-- ==== Sys2Proof/Word.lean ====
section
/-! DEFINITION. The word types of the part and its plainest arithmetic: bit vectors for what the manual
treats as bits, byte strings, and the sparse map in which indexed state is held. -/

namespace Sys2Proof

/-- One byte. -/
abbrev Byte := BitVec 8
/-- A 32-bit register word (R18, R646). -/
abbrev Word := BitVec 32
/-- A 64-bit value, such as an address, a tag or a station time. -/
abbrev Dword := BitVec 64
/-- One lane of a vector register, and one scalar register (R249). -/
abbrev Lane := BitVec 36
/-- A vector register or a row of local vector memory (R253). -/
abbrev Row := BitVec 4608
/-- A byte string; index 0 is the byte at the lowest address. -/
abbrev Bytes := List Byte

/-- Indexed state: pairs of key and value, keys strictly rising, no entry equal to the default.
Equal contents are equal data. -/
abbrev SMap (α : Type) := List (Nat × α)

/-- `ceilDiv a b` is a ÷ b rounded up. -/
def ceilDiv (a b : Nat) : Nat := (a + b - 1) / b

/-- `a` rounded up to a multiple of `b`. -/
def roundUp (a b : Nat) : Nat := ceilDiv a b * b

/-- The bit of a Bool. -/
def bitOf (b : Bool) : Nat := if b then 1 else 0

end Sys2Proof
end

