-- ==== Sys2Proof/Machine/TypesCmd.lean ====
section
/-! DEFINITION. The operands of the commands: what an event of the outside world, of host memory or of an
engine brings with it. Data that lies in host memory when the part reads it travels with the command that
brings it in. -/

namespace Sys2Proof.Machine

/-- The five engine classes (R30). -/
inductive Cls where
  | vce | hse | cde | cle | ste
deriving DecidableEq, Repr, Inhabited

/-- Cause of a failed access to host memory or of a stopped queue (R59). -/
inductive HCause where
  | none | tailRange | translation | urCa | timeout | poisoned | headRange
deriving DecidableEq, Repr, Inhabited

/-- The part of a job whose access failed: DETAIL[3:0] of BUFFER_FAULT (R104). -/
inductive Part where
  | input | output | block | inList | outList | blob
deriving DecidableEq, Repr, Inhabited

/-- An access of the part to host memory (R59, R60). -/
inductive Access where
  | jobPart (job : Nat) (part : Part)
  | descriptor (slice sq : Nat)
  | doorbell (slice : Nat)
  /-- The write of completion entries; `entries`: how many entries of the CQ were written from the failed one on. -/
  | completion (slice cq entries : Nat)
deriving DecidableEq, Repr

/-- A descriptor read from a submission ring, with what the part reads beside it to check it under R89:
its parameter block and its scatter lists, and the failure of one of those reads if one fails (R60). -/
structure FetchedDesc where
  words   : List Word
  block   : Bytes := []
  inList  : Bytes := []
  outList : Bytes := []
  failure : Option (Part × HCause) := none
deriving DecidableEq, Repr

/-- What a job reads before it starts: its input bytes; `keyBad`: its key slot read with an uncorrectable error, `otherBad`: the
last of the slots that KEY reads for it, a session's or a WRAP's SUBJECT (R432). -/
structure StagedData where
  input   : Bytes
  subject : Bytes := []
  keyBad  : Bool := false
  otherBad : Bool := false
deriving DecidableEq, Repr

/-- The fields of a vector instruction word (R300, R301) and the value of its long immediate. -/
structure VFields where
  vd      : BitVec 5 := 0
  vs1     : BitVec 5 := 0
  vs2     : BitVec 5 := 0
  mx      : BitVec 3 := 0
  inv     : Bool := false
  variant : BitVec 2 := 0
  func    : BitVec 7 := 0
  imm     : BitVec 36 := 0
deriving DecidableEq, Repr

/-- Where a tripping monitor saw its condition, which decides the scope of its alarm (R551). -/
inductive TripScope where
  | none
  | engine (e : Nat)
  | slice (n : Nat)
deriving DecidableEq, Repr

/-- The pages of 4 KiB of an ATS invalidation (R57). -/
structure PageRange where
  page  : Nat
  pages : Nat := 1
deriving DecidableEq, Repr

/-- A safe point that an engine reaches: for a CDE, whether it is a round boundary (R222, R395). -/
structure SafePoint where
  unit  : Nat
  round : Bool := false
deriving DecidableEq, Repr

/-- The end of a thaw, with what the generator test of a VCE gives and the four margins and the temperature sampled at it
(R269, R288, R297). -/
structure ThawEnd where
  unit    : Nat
  testOk  : Bool := true
  margins : List Nat := []
  temp    : Nat := 0
deriving DecidableEq, Repr

/-- One DDR5 channel as training and the mode registers show it at a start (R405). -/
structure DdrChannel where
  trained : Bool := true
  ranks   : Nat := 0
  gib     : Nat := 0
  /-- Gbit of a device, and its data width in bits, as its mode registers give them (R405). -/
  density : Nat := 16
  width   : Nat := 4
deriving DecidableEq, Repr

/-- What a start finds and takes: whether the rails were raised in the order of R660, the levels of TESTMODE and PFAIL_N
(R657, R663), the memory (R405), the causes of the start-up tests that fail before a source passes (R470, R472), whether
a known-answer test fails (R462), whether the spare records cannot be read (R42), the µs its harvest takes, the ns from the
rise of PERST_N to
READY (R599), and the step of R565 in which power fails. -/
structure StartData where
  inOrder : Bool := true
  testmode : Bool := false
  /-- The levels of SMB_ADDR[1:0] when VIO18 reaches regulation (R670). -/
  straps  : Nat := 0
  pfail   : Bool := false
  chA     : DdrChannel := {}
  chB     : DdrChannel := {}
  startup : List Nat := []
  /-- Speed code and lanes to which the link trains (R52): 5 is 32 GT/s. -/
  linkGen : Nat := 5
  lanes   : Nat := 8
  katFail : Bool := false
  recordsBad : Bool := false
  harvestUs : Nat := 0
  ns      : Nat := 0
  /-- The step of R565, 3 or 4, during which power fails; 0: it does not. -/
  failAt  : Nat := 0
deriving DecidableEq, Repr

end Sys2Proof.Machine
end

