-- ==== Sys2Proof/Syntax.lean ====
section
/-! DEFINITION. The commands of the block: one constructor per row of the opcode table, with what the row's event
brings from outside. Operand names: `n` slice, `q` queue, `j` job by its admission number, `k` step of its plan,
`e` physical engine of R41, `off` BAR0 offset, `v` value written. -/

namespace Sys2Proof

open Sys2Proof.Machine

/-- A command. Each constructor's docstring gives its row's mnemonic and rule. -/
inductive Instr where
  /-- R64. -/
  | doorbellPoll (n : Nat)
  /-- R69. -/
  | nudge (offset : Nat)
  /-- R67. -/
  | doorbellReadData (n : Nat) (words : List Word)
  /-- R89. -/
  | descriptorArrival (n : Nat) (q : Nat) (descs : List FetchedDesc)
  /-- R60. -/
  | hostAccessFail (a : Access) (c : HCause)
  /-- R684. -/
  | completionTimeout (a : Access)
  /-- R57. -/
  | atsInvalidation (pasid : Nat) (range : PageRange)
  /-- R55. -/
  | linkDown
  /-- R105. -/
  | perstNAssert
  /-- R61. -/
  | sqErrClear (n : Nat) (q : Nat)
  /-- R61. -/
  | cqErrClear (n : Nat) (q : Nat)
  /-- R61. -/
  | dbErrClear (n : Nat)
  /-- R81. -/
  | sqEnable (n : Nat) (q : Nat) (v : Word)
  /-- R82. -/
  | sqDisable (n : Nat) (q : Nat) (v : Word)
  /-- R80. -/
  | cqEnable (n : Nat) (q : Nat) (v : Word)
  /-- R82. -/
  | cqDisable (n : Nat) (q : Nat) (v : Word)
  /-- R101. -/
  | coalesceTimeout (n : Nat) (q : Nat)
  /-- R103. -/
  | moderationAge (n : Nat) (q : Nat)
  /-- R654. -/
  | vectorUnmask (v : Nat)
  /-- R240. -/
  | stationTick
  /-- R238. -/
  | notBeforeReached (j : Nat)
  /-- R240. -/
  | expiryTick (j : Nat)
  /-- R214. -/
  | accountingWindowStart
  /-- R200. -/
  | scratchAllocated (j : Nat)
  /-- R427. -/
  | keyloadDone (j : Nat) (blob : Bytes)
  /-- R198. -/
  | entropyAvailable (j : Nat)
  /-- R476. -/
  | entropyWaitLimit (j : Nat)
  /-- R203. -/
  | dispatchDecision (e : Nat)
  /-- R681. -/
  | inputStaged (j : Nat) (d : StagedData)
  /-- R681. -/
  | jobStart (j : Nat) (k : Nat)
  /-- R278. -/
  | streamRowArrival (e : Nat) (bits : Row)
  /-- R397. -/
  | hashLend (e : Nat) (h : Nat)
  /-- R372. -/
  | safePointStop (e : SafePoint)
  /-- R283. -/
  | saveDone (e : Nat)
  /-- R353. -/
  | runLimit (e : Nat)
  /-- R373. -/
  | watchdog (e : Nat)
  /-- R220. -/
  | jobResult (j : Nat)
  /-- R282. -/
  | frostDone (j : Nat)
  /-- R227. -/
  | flowRelease (j : Nat)
  /-- R229. -/
  | rbEntryFree
  /-- R287; `bad`: result slots that read back with an uncorrectable error. -/
  | engineFaultDetect (e : Nat) (cause : Nat) (bad : List Nat)
  /-- R377; `bad` as above. -/
  | machineCheck (e : Nat) (cause : Nat) (addr : Nat) (bad : List Nat)
  /-- R287. -/
  | quarantineTestEnd (e : Nat) (pass : Bool)
  /-- R289. -/
  | retireUnit (e : Nat) (criterion : Nat)
  /-- R45. -/
  | spareBringIn (spare : Nat) (old : Nat)
  /-- R288. -/
  | agingSample (e : Nat) (margin : List Nat) (temp : Nat)
  /-- R592. -/
  | engineGate (e : Nat)
  /-- R297. -/
  | thaw (e : Nat)
  /-- R297. -/
  | thawComplete (e : ThawEnd)
  /-- R113. -/
  | mlKemKeyGeneration (j : Nat)
  /-- R123. -/
  | mlKemDecapsulation (j : Nat)
  /-- R108. -/
  | mlKemEncapsulationReferenced (j : Nat)
  /-- R122. -/
  | mlKemEncapsulationInline (j : Nat)
  /-- R112. -/
  | mlDsaKeyGeneration (j : Nat)
  /-- R130. -/
  | mlDsaSign (j : Nat)
  /-- R129. -/
  | mlDsaVerifyReferenced (j : Nat)
  /-- R129. -/
  | mlDsaVerifyInline (j : Nat)
  /-- R112. -/
  | slhDsaKeyGeneration (j : Nat)
  /-- R132. -/
  | slhDsaSign (j : Nat)
  /-- R133. -/
  | slhDsaVerifyReferenced (j : Nat)
  /-- R133. -/
  | slhDsaVerifyInline (j : Nat)
  /-- R135. -/
  | lmsKeyGeneration (j : Nat)
  /-- R136. -/
  | lmsSign (j : Nat)
  /-- R140. -/
  | lmsVerifyReferenced (j : Nat)
  /-- R140. -/
  | lmsVerifyInline (j : Nat)
  /-- R135. -/
  | xmssKeyGeneration (j : Nat)
  /-- R136. -/
  | xmssSign (j : Nat)
  /-- R140. -/
  | xmssVerifyReferenced (j : Nat)
  /-- R140. -/
  | xmssVerifyInline (j : Nat)
  /-- R139. -/
  | traversalBuild (j : Nat)
  /-- R136. -/
  | reservationCommitDone (r : Nat) (ok : Bool)
  /-- R450. -/
  | firstReservation (r : Nat) (ok : Bool)
  /-- R141. -/
  | hqcKeyGeneration (j : Nat)
  /-- R141. -/
  | hqcDecapsulation (j : Nat)
  /-- R141. -/
  | hqcEncapsulationReferenced (j : Nat)
  /-- R141. -/
  | hqcEncapsulationInline (j : Nat)
  /-- R145. -/
  | mcelieceKeyGeneration (j : Nat)
  /-- R145. -/
  | mcelieceDecapsulation (j : Nat)
  /-- R143. -/
  | mcelieceEncapsulationReferenced (j : Nat)
  /-- R144. -/
  | mcelieceEncapsulationInline (j : Nat)
  /-- R146. -/
  | hybridKemKeyGeneration (j : Nat)
  /-- R148. -/
  | hybridKemDecapsulation (j : Nat)
  /-- R146. -/
  | hybridKemEncapsulationReferenced (j : Nat)
  /-- R148. -/
  | hybridKemEncapsulationInline (j : Nat)
  /-- R149. -/
  | decapsulationRaw (j : Nat)
  /-- R149. -/
  | encapsulationRawReferenced (j : Nat)
  /-- R149. -/
  | encapsulationRawInline (j : Nat)
  /-- R150. -/
  | hybridSigKeyGeneration (j : Nat)
  /-- R151. -/
  | hybridSign (j : Nat)
  /-- R152. -/
  | hybridVerifyReferenced (j : Nat)
  /-- R152. -/
  | hybridVerifyInline (j : Nat)
  /-- R166. -/
  | eccKeyGeneration (j : Nat)
  /-- R163. -/
  | eccSign (j : Nat)
  /-- R164. -/
  | eccVerifyReferenced (j : Nat)
  /-- R164. -/
  | eccVerifyInline (j : Nat)
  /-- R164. -/
  | keyAgreement (j : Nat)
  /-- R168. -/
  | rsaKeyGeneration (j : Nat)
  /-- R169. -/
  | rsaSignPkcs1V15 (j : Nat)
  /-- R169. -/
  | rsaSignPss (j : Nat)
  /-- R169. -/
  | rsaVerifyV15Referenced (j : Nat)
  /-- R169. -/
  | rsaVerifyPssReferenced (j : Nat)
  /-- R167. -/
  | rsaVerifyV15Inline (j : Nat)
  /-- R167. -/
  | rsaVerifyPssInline (j : Nat)
  /-- R170. -/
  | oaepDecrypt (j : Nat)
  /-- R172. -/
  | gcmEncrypt (j : Nat)
  /-- R173. -/
  | gcmDecrypt (j : Nat)
  /-- R172. -/
  | gmacGenerate (j : Nat)
  /-- R173. -/
  | gmacVerify (j : Nat)
  /-- R172. -/
  | cmacGenerate (j : Nat)
  /-- R173. -/
  | cmacVerify (j : Nat)
  /-- R172. -/
  | ctr (j : Nat)
  /-- R172. -/
  | kwWrap (j : Nat)
  /-- R173. -/
  | kwUnwrap (j : Nat)
  /-- R172. -/
  | kwpWrap (j : Nat)
  /-- R173. -/
  | kwpUnwrap (j : Nat)
  /-- R172. -/
  | chacha20Poly1305Encrypt (j : Nat)
  /-- R173. -/
  | chacha20Poly1305Decrypt (j : Nat)
  /-- R175. -/
  | sha2Hash (j : Nat)
  /-- R175. -/
  | sha3Hash (j : Nat)
  /-- R175. -/
  | xof (j : Nat)
  /-- R175. -/
  | hmacGenerate (j : Nat)
  /-- R175. -/
  | hmacVerify (j : Nat)
  /-- R175. -/
  | kmacGenerate (j : Nat)
  /-- R175. -/
  | kmacVerify (j : Nat)
  /-- R176. -/
  | hkdf (j : Nat)
  /-- R176. -/
  | hkdfExpand (j : Nat)
  /-- R178. -/
  | sp800108Counter (j : Nat)
  /-- R178. -/
  | sp800108Feedback (j : Nat)
  /-- R178. -/
  | sp800108Kmac (j : Nat)
  /-- R178. -/
  | oneStepHash (j : Nat)
  /-- R178. -/
  | oneStepHmac (j : Nat)
  /-- R178. -/
  | oneStepKmac (j : Nat)
  /-- R184. -/
  | sessionCreate (j : Nat)
  /-- R184. -/
  | sessionDestroy (j : Nat)
  /-- R182. -/
  | sessionRead (j : Nat)
  /-- R186. -/
  | seal (j : Nat)
  /-- `OPEN`, R187. -/
  | sessionOpen (j : Nat)
  /-- R186. -/
  | tagGenerate (j : Nat)
  /-- R187. -/
  | tagVerify (j : Nat)
  /-- R185. -/
  | rekey (j : Nat)
  /-- R191. -/
  | rngGenerate (j : Nat)
  /-- R191. -/
  | rngGeneratePr (j : Nat)
  /-- R191. -/
  | rngReseed (j : Nat)
  /-- R192. -/
  | noOp (j : Nat)
  /-- R192. -/
  | clearFlags (j : Nat)
  /-- R440. -/
  | generate (j : Nat)
  /-- `IMPORT`, R441. -/
  | importKey (j : Nat)
  /-- R442. -/
  | wrap (j : Nat)
  /-- R441. -/
  | unwrap (j : Nat)
  /-- `DERIVE`, R440. -/
  | deriveKey (j : Nat)
  /-- R443; `ok` false: the record of a stateful key cannot be programmed (R454). -/
  | rewrap (j : Nat) (ok : Bool)
  /-- R444. -/
  | destroy (j : Nat)
  /-- R445. -/
  | load (j : Nat)
  /-- R445. -/
  | evict (j : Nat)
  /-- R446. -/
  | blobStore (j : Nat)
  /-- R447. -/
  | loadList (j : Nat)
  /-- R517. -/
  | readingVerify (j : Nat)
  /-- R518. -/
  | statement (j : Nat)
  /-- R517. -/
  | identify (j : Nat)
  /-- R517. -/
  | logRead (j : Nat)
  /-- R515. -/
  | statementCounterCommit (ok : Bool)
  /-- R350. -/
  | kernelCall (j : Nat)
  /-- R308. -/
  | vsetl (e : Nat) (f : VFields)
  /-- R260. -/
  | vcfg (e : Nat) (f : VFields)
  /-- R251. -/
  | vsetq (e : Nat) (f : VFields)
  /-- R309. -/
  | sop (e : Nat) (f : VFields)
  /-- R308. -/
  | smovv (e : Nat) (f : VFields)
  /-- R308. -/
  | smpop (e : Nat) (f : VFields)
  /-- R308. -/
  | mop (e : Nat) (f : VFields)
  /-- R310. -/
  | vld (e : Nat) (f : VFields)
  /-- R310. -/
  | vst (e : Nat) (f : VFields)
  /-- R315. -/
  | vout (e : Nat) (f : VFields)
  /-- R314. -/
  | vrel (e : Nat) (f : VFields)
  /-- R316. -/
  | vadd (e : Nat) (f : VFields)
  /-- R316. -/
  | vsub (e : Nat) (f : VFields)
  /-- R316. -/
  | vaddm (e : Nat) (f : VFields)
  /-- R316. -/
  | vsubm (e : Nat) (f : VFields)
  /-- R316. -/
  | vmul (e : Nat) (f : VFields)
  /-- R316. -/
  | vmulw (e : Nat) (f : VFields)
  /-- R316. -/
  | vmacw (e : Nat) (f : VFields)
  /-- R316. -/
  | vdot (e : Nat) (f : VFields)
  /-- R317. -/
  | vmont (e : Nat) (f : VFields)
  /-- R317. -/
  | vmulm (e : Nat) (f : VFields)
  /-- R316. -/
  | vmodr (e : Nat) (f : VFields)
  /-- R316. -/
  | vcsub (e : Nat) (f : VFields)
  /-- R316. -/
  | vand (e : Nat) (f : VFields)
  /-- R316. -/
  | vor (e : Nat) (f : VFields)
  /-- R316. -/
  | vxor (e : Nat) (f : VFields)
  /-- R316. -/
  | vshl (e : Nat) (f : VFields)
  /-- R316. -/
  | vshr (e : Nat) (f : VFields)
  /-- R316. -/
  | vrotl (e : Nat) (f : VFields)
  /-- R316. -/
  | vmov (e : Nat) (f : VFields)
  /-- R319. -/
  | vbfly (e : Nat) (f : VFields)
  /-- R320. -/
  | vexch (e : Nat) (f : VFields)
  /-- R318. -/
  | vperm (e : Nat) (f : VFields)
  /-- R321. -/
  | vcvt (e : Nat) (f : VFields)
  /-- R321. -/
  | vbitpk (e : Nat) (f : VFields)
  /-- R321. -/
  | vbitup (e : Nat) (f : VFields)
  /-- R322. -/
  | vcomp (e : Nat) (f : VFields)
  /-- R321. -/
  | vcmp (e : Nat) (f : VFields)
  /-- R321. -/
  | vsel (e : Nat) (f : VFields)
  /-- R323. -/
  | vkinit (e : Nat) (f : VFields)
  /-- R324. -/
  | vkabs (e : Nat) (f : VFields)
  /-- R324. -/
  | vksqz (e : Nat) (f : VFields)
  /-- R325. -/
  | vsampu (e : Nat) (f : VFields)
  /-- R326. -/
  | vsampb (e : Nat) (f : VFields)
  /-- R323. -/
  | vsampball (e : Nat) (f : VFields)
  /-- R323. -/
  | vcbd (e : Nat) (f : VFields)
  /-- R328. -/
  | vref (e : Nat) (f : VFields)
  /-- R328. -/
  | vsand (e : Nat) (f : VFields)
  /-- R327. -/
  | va2b (e : Nat) (f : VFields)
  /-- R327. -/
  | vb2a (e : Nat) (f : VFields)
  /-- R327. -/
  | vszero (e : Nat) (f : VFields)
  /-- R329. -/
  | vunsh (e : Nat) (f : VFields)
  /-- R332. -/
  | vgather (e : Nat) (f : VFields)
  /-- R336. -/
  | vscatter (e : Nat) (f : VFields)
  /-- R343. -/
  | br (e : Nat) (f : VFields)
  /-- R344. -/
  | call (e : Nat) (f : VFields)
  /-- R344. -/
  | ret (e : Nat) (f : VFields)
  /-- R351. -/
  | vend (e : Nat) (f : VFields)
  /-- R302. -/
  | customerOpcode (e : Nat) (opc : Nat)
  /-- R363. -/
  | nop (e : Nat) (w : BitVec 30)
  /-- R363. -/
  | alu (e : Nat) (w : BitVec 30)
  /-- R363. -/
  | alui (e : Nat) (w : BitVec 30)
  /-- R363. -/
  | ldi (e : Nat) (w : BitVec 30)
  /-- R363. -/
  | fld (e : Nat) (w : BitVec 30)
  /-- R363. -/
  | srd (e : Nat) (w : BitVec 30)
  /-- R363. -/
  | swr (e : Nat) (w : BitVec 30)
  /-- R363. -/
  | immf (e : Nat) (w : BitVec 30)
  /-- R365. -/
  | microBr (e : Nat) (w : BitVec 30)
  /-- R367. -/
  | microCall (e : Nat) (w : BitVec 30)
  /-- R367. -/
  | microRet (e : Nat) (w : BitVec 30)
  /-- `NEXT`, R366. -/
  | microNext (e : Nat) (w : BitVec 30)
  /-- R363. -/
  | kjmp (e : Nat) (w : BitVec 30)
  /-- R363. -/
  | kpush (e : Nat) (w : BitVec 30)
  /-- R363. -/
  | kpop (e : Nat) (w : BitVec 30)
  /-- R370. -/
  | vissue (e : Nat) (w : BitVec 30)
  /-- R363. -/
  | vwait (e : Nat) (w : BitVec 30)
  /-- R370. -/
  | rowmv (e : Nat) (w : BitVec 30)
  /-- R363. -/
  | port (e : Nat) (w : BitVec 30) (elem : Nat)
  /-- R363. -/
  | kcore (e : Nat) (w : BitVec 30)
  /-- R363. -/
  | shmap (e : Nat) (w : BitVec 30)
  /-- R375. -/
  | chk (e : Nat) (w : BitVec 30)
  /-- `FAULT`, R375. -/
  | microFault (e : Nat) (w : BitVec 30)
  /-- R372. -/
  | poll (e : Nat) (w : BitVec 30)
  /-- R363. -/
  | jend (e : Nat) (w : BitVec 30)
  /-- R363. -/
  | modw (e : Nat) (w : BitVec 30)
  /-- R363. -/
  | ostr (e : Nat) (w : BitVec 30)
  /-- R386. -/
  | install (data : Option Bytes) (ok : Bool) (now : Bool)
  /-- R387. -/
  | removePackage
  /-- R625. -/
  | store (steps : Nat) (ok : Bool)
  /-- R627. -/
  | defaults (now : Bool)
  /-- R628. -/
  | rwcWrite (off : Nat) (v : Word)
  /-- R630. -/
  | check
  /-- R632. -/
  | applyNow
  /-- R631. -/
  | applyAt
  /-- R629. -/
  | discard
  /-- R632. -/
  | commitInstant
  /-- R529. -/
  | transition (steps : Nat) (ok : Bool)
  /-- R536. -/
  | installCodeKey (data : Option Bytes) (ok : Bool) (now : Bool)
  /-- R536. -/
  | installDebugKey (data : Option Bytes) (ok : Bool) (now : Bool)
  /-- R539. -/
  | newChallenge
  /-- R540. -/
  | present
  /-- R543. -/
  | revoke
  /-- R539. -/
  | challengeExpiry
  /-- R543. -/
  | grantExpiry
  /-- R541. -/
  | halt
  /-- R541. -/
  | release
  /-- `STEP`, R541. -/
  | dbgStep
  /-- R541. -/
  | spare (spare : Nat)
  /-- R541. -/
  | traceOn
  /-- R541. -/
  | traceOff
  /-- R541. -/
  | inject
  /-- R542. -/
  | dbgWinDataRead
  /-- R549. -/
  | monitorTrip (m : Nat) (count : Nat) (scope : TripScope) (steps : Nat)
  /-- R23. -/
  | shadowWindowExpiry (off : Nat)
  /-- R556. -/
  | clear (holding : BitVec 20)
  /-- R559. -/
  | test (empty : Bool)
  /-- R558. -/
  | stimulusTestEnd (pass : Bool)
  /-- R559. -/
  | periodicSelftest
  /-- R567. -/
  | monCfgWrite (m : Nat)
  /-- R562. -/
  | winterTrip (m : Nat) (count : Nat)
  /-- R509. -/
  | installAuthority (data : Option Bytes) (ok : Bool) (now : Bool)
  /-- R511. -/
  | loadTariff (data : Option Bytes) (ok : Bool) (now : Bool)
  /-- R522. -/
  | separate (ok : Bool) (now : Bool)
  /-- R587. -/
  | clearGrant
  /-- R587. -/
  | clearToken (len : Nat)
  /-- R584. -/
  | journalLookup (hi : Word)
  /-- R575. -/
  | snapSetWrite (off : Nat) (v : Word)
  /-- R573. -/
  | eventRecord (code : BitVec 16) (slice : Nat) (engine : Nat) (detail : Bytes)
  /-- R576. -/
  | aggregatorWindowClose (unit : Nat) (cause : Nat)
  /-- R578. -/
  | heldRecordRelease
  /-- R579. -/
  | summary (code : Nat)
  /-- R581. -/
  | commitGroup (ok : Bool)
  /-- R652. -/
  | sysReset (v : Word)
  /-- R18. -/
  | badAccess (off : Nat) (write : Bool)
  /-- R22. -/
  | registerWrite (off : Nat) (v : Word)
  /-- R494. -/
  | activate (n : Nat)
  /-- R497. -/
  | quiesce (n : Nat)
  /-- R497. -/
  | quiesceLimit (n : Nat)
  /-- R497. -/
  | quiesced (n : Nat)
  /-- R494. -/
  | resume (n : Nat)
  /-- R499. -/
  | reset (n : Nat)
  /-- R499. -/
  | remove (n : Nat)
  /-- R499. -/
  | scrubDone (n : Nat)
  /-- R472. -/
  | healthFail (src : Nat) (cause : Nat) (startup : Bool)
  /-- R484. -/
  | noSamples (src : Nat)
  /-- R465. -/
  | blockReady
  /-- R468. -/
  | reseedBackground (inst : Nat)
  /-- R468. -/
  | reseedDue (inst : Nat)
  /-- R475. -/
  | retest (src : Nat) (cause : Nat)
  /-- R475. -/
  | standbyRetest (src : Nat) (cause : Nat)
  /-- R415. -/
  | rootGeneration
  /-- R411. -/
  | ovwDone (ms : Nat)
  /-- R410. -/
  | patrolScrub (ch : Nat) (corrected : Nat) (bad : List Nat)
  /-- R607. -/
  | ppsEdge
  /-- R609. -/
  | timeLoad (hi : Word)
  /-- R609. -/
  | loadExpired
  /-- R608. -/
  | holdoverEntry
  /-- R610. -/
  | anchorWrite
  /-- R613. -/
  | tsyncPulse
  /-- R603. -/
  | xtalRc (rc : Bool)
  /-- R595; `d3hot`: the function is in D3hot. -/
  | sleepEntry (d3hot : Bool)
  /-- R596. -/
  | wake
  /-- R597. -/
  | pfailFall (width : Nat) (taken : Bool)
  /-- R453. -/
  | pfailRise
  /-- R591. -/
  | mainPowerLoss (torn : Nat)
  /-- R665. -/
  | aonChangeover (vbat : Bool)
  /-- R599. -/
  | coldStart (d : StartData)
  /-- `ID`, R671. -/
  | smbId
  /-- `TEMP`, R671. -/
  | smbTemp (celsius : Int)
  /-- `LCS`, R671. -/
  | smbLcs
  /-- `ALARM`, R671. -/
  | smbAlarm
  /-- `STATUS`, R671. -/
  | smbStatus
  /-- R670. -/
  | smbusWrite
  /-- R670. -/
  | smbusTimeout
  /-- R673. -/
  | extest (pins : Bytes)
  /-- R672. -/
  | idcode
  /-- R672. -/
  | samplePreload (pins : Bytes) (data : Bytes)
  /-- R673. -/
  | clamp
  /-- R673. -/
  | highz
  /-- R672. -/
  | bypass (code : Nat)
  /-- R201. -/
  | internalFlagSet (j : Nat) (k : Nat)
  /-- R411. -/
  | overwriteReachesGroup (g : Nat)
  /-- R641. -/
  | poolLow (e : Nat)
  /-- R562. -/
  | monitorRearm (m : Nat)
  /-- R598. -/
  | aonDomainLost
  /-- R607. -/
  | phaseSlewEnd
  /-- R21. -/
  | nameLoRead (off : Nat)
deriving DecidableEq, Repr

end Sys2Proof
end

