-- ==== Sys2Proof/Decode.lean ====
section
/-! DEFINITION. Words of the opcode table. The table gives no row any bits: the commands are events, and no word
spells one. -/

namespace Sys2Proof

/-- The command a table word spells: none, since no row of the table has bits. DESIGN CHOICE, log entry 6, safe. -/
def decodeTableWord (_nbits _w : Nat) : Option Instr := none

end Sys2Proof
end

