-- ==== Sys2Proof/Machine/TypesJob.lean ====
section
/-! DEFINITION. Jobs, queues, slices, key slots, sessions and stateful records: the data of chapters
02, 04, 05, 10 and 12 of the manual. -/

namespace Sys2Proof.Machine

/-- The status codes of R104. -/
inductive Status where
  | ok | verifyFail | tagMismatch | replay
  | refused | deadlineMissed | timedOut | descInvalid | opcUnsupported
  | keyPolicy | keyBlobInvalid | keyState | keyExpired
  | bufferFault | gatherFault | outTooSmall
  | entropyUnavailable | engineFault | machineCheck | sliceQuiesced
  | statefulExhausted | statefulBusy | abortedTamper | kernelFault
deriving DecidableEq, Repr, Inhabited

/-- A descriptor, its fields pulled out of its 16 words (R88). -/
structure Desc where
  opc       : BitVec 16 := 0
  prio      : Nat := 0
  maskord   : Nat := 0
  ordered   : Bool := false
  fence     : Bool := false
  sgl       : Bool := false
  prot      : Bool := false
  notBefore : Bool := false
  deadline  : Bool := false
  waitev    : Bool := false
  setev     : Bool := false
  waitany   : Bool := false
  evgroup   : Nat := 0
  flow      : Nat := 0
  flowRsv   : Nat := 0
  tag       : Dword := 0
  keyref    : Dword := 0
  inAddr    : Dword := 0
  outAddr   : Dword := 0
  inLen     : Nat := 0
  outCap    : Nat := 0
  auxAddr   : Dword := 0
  evwait    : BitVec 16 := 0
  evset     : BitVec 16 := 0
  time      : Nat := 0
deriving DecidableEq, Repr, Inhabited

/-- What a job answers: status and detail of R104, its output, and the length OUT_TOO_SMALL reports (R98). -/
structure Result where
  status : Status := .ok
  detail : Nat := 0
  out    : Bytes := []
  need   : Nat := 0
  /-- Key material that KEY takes from the result slot, for a DEST of SLOT or BLOB (R313). -/
  key    : Bytes := []
deriving DecidableEq, Repr, Inhabited

/-- Where a step of a job plan stands (R197, R201). -/
inductive StepSt where
  | blocked     -- waits for the internal flags of the steps it depends on
  | ready
  | staged
  | running
  | suspended
  | finished
deriving DecidableEq, Repr, Inhabited

/-- One step of a job plan (R200, R201); `cls` none: the scheduler, KEY or the steward carries it out. -/
structure PStep where
  cls      : Option Cls := none
  deps     : List Nat := []
  st       : StepSt := .blocked
  engine   : Nat := 0
  restore  : Bool := false
  stagedAt : Nat := 0
deriving DecidableEq, Repr, Inhabited

/-- Stage of an admitted job. READY, STAGED, RUNNING and SUSPENDED of R197 are read from its steps. -/
inductive Stage where
  | held | keyload | entropyWait | active | done
deriving DecidableEq, Repr, Inhabited

/-- The eight job states of R197. -/
inductive JobState where
  | held | keyload | entropyWait | ready | staged | running | suspended | done
deriving DecidableEq, Repr, Inhabited

/-- A save area that a step of a job holds (R226): its kind, its number, and the data block of it whose read fails (R409). -/
structure SaveArea where
  step : Nat
  cde  : Bool
  num  : Nat
  bad  : Option Nat := none
deriving DecidableEq, Repr, Inhabited

/-- One entry of the job table (R38, R197), from consumption to the issue of its completion entry. -/
structure Job where
  slice     : Nat := 0
  sq        : Nat := 0
  cq        : Nat := 0
  desc      : Desc := {}
  /-- Protection-class job: PROT bit set on a protection-class SQ (R92). -/
  prot      : Bool := false
  /-- The SQ was of protection class: its entry is never held (R50, R101). -/
  sqProt    : Bool := false
  /-- Masking order, resolved at admission (R243). -/
  order     : Nat := 0
  /-- Elapsed ns of admission. -/
  admitted  : Nat := 0
  stage     : Stage := .held
  /-- Not-before µs still to come (R238). -/
  notBefore : Option Nat := none
  /-- The flag wait is not yet satisfied (R234). -/
  waitFlags : Bool := false
  /-- The plan's scratch area is not yet allocated (R200). -/
  needScratch : Bool := false
  scratch   : Bool := false
  /-- Expiry tick in station µs (R239). -/
  expiry    : Option Nat := none
  block     : Bytes := []
  inSegs    : List (Nat × Nat) := []
  outSegs   : List (Nat × Nat) := []
  input     : Option Bytes := none
  subject   : Bytes := []
  /-- The key slot the job holds from leaving HELD (R436). -/
  key       : Option Nat := none
  /-- The classic McEliece public-key blob the job streams from its window (R143). -/
  keyBlob   : Bytes := []
  /-- Randomness has been drawn for this attempt, once and in full (R117). -/
  drawn     : Bool := false
  /-- What the slice's instance gave. -/
  rand      : Bytes := []
  /-- Seeds of the mask streams, 32 bytes for each step of the plan (R17, R117). -/
  seeds     : Bytes := []
  /-- The masks of a RAW output (R117, R149). -/
  rawMask   : Bytes := []
  /-- Seed of the blinding values or of the support permutation (R156, R400). -/
  blind     : Bytes := []
  /-- Stateful leaf given at the start (R136). -/
  leaf      : Option Nat := none
  /-- The job waits for a RESV_END commit before it may sign (R136). -/
  waitCommit : Bool := false
  /-- Session counter taken at the start (R186). -/
  counter   : Option Nat := none
  readyAt   : Nat := 0
  /-- Elapsed ns at which its wait for randomness reaches RNG_WAIT_LIMIT as it stood at the entry (R476, R483). -/
  waitUntil : Nat := 0
  /-- Its load of a secret waits for the harvest (R431). -/
  harvestWait : Bool := false
  started   : Bool := false
  attempts  : Nat := 0
  faultyUnits : List Nat := []
  steps     : List PStep := []
  /-- The save areas that its suspended steps hold (R226). -/
  areas     : List SaveArea := []
  /-- A release buffer entry is held (R229). -/
  rbEntry   : Bool := false
  /-- The OPC row has produced a result that waits for the collector (R220). -/
  computed  : Option Result := none
  result    : Result := {}
  stamp     : Nat := 0
  engineCode : Nat := 0x7F
  /-- Every local row of the job is frosted (R49). -/
  frosted   : Bool := true
  /-- It completed at consumption and was never admitted (R228). -/
  unadmitted : Bool := false
  /-- An abort is due at the next safe point (R372, R497). -/
  abort     : Option Result := none
  /-- A stop for a save is requested (R222). -/
  stopReq   : Bool := false
  /-- Words that the job has scattered, by address, and words as it saw them before another job's scatters (R337). -/
  scat      : SMap Nat := []
  shadow    : SMap Nat := []
  /-- The job has executed VSCATTER (R352). -/
  scattered : Bool := false
  /-- Station time in ns at which it started (R185). -/
  startAt   : Nat := 0
  /-- Elapsed ns at which it first entered RUNNING (R199, R223). -/
  begunAt   : Nat := 0
  /-- Bytes of the output streamed during the run (R280). -/
  wrote     : Nat := 0
  /-- Elapsed ns at which its read of host memory that is outstanding was issued (R684). -/
  readAt    : Option Nat := none
  /-- The handle of its key slot as it took hold of it (R429, R436). -/
  keyHandle : Nat := 0
  /-- Intermediate values in its scratch area, by the step that gave them: two shares each (R39, R118). -/
  passed    : SMap (List Bytes) := []
  /-- Tariffs in force when it left HELD (R519). -/
  tariffs   : List Bytes := []
deriving DecidableEq, Repr, Inhabited

/-- A submission queue's running state (R75); its set-up lies in the registers. -/
structure Sq where
  head  : Nat := 0
  tail  : Nat := 0
  err   : Bool := false
  cause : HCause := .none
  /-- A descriptor read is outstanding, and the elapsed ns at which it was issued (R684). -/
  reading : Bool := false
  readAt  : Nat := 0
  /-- Descriptors read and not yet consumed, oldest first (R85, R195). -/
  fetched : List FetchedDesc := []
deriving DecidableEq, Repr, Inhabited

/-- One completion entry, 8 words without the phase bit and SQHEAD, which its write puts in, and the index of its SQ
(R96). -/
structure Entry where
  words : List Word
  sq    : Nat := 0
  /-- The SQ is of protection class: the entry is never held and its message goes at once (R101, R103). -/
  prot  : Bool := false
deriving DecidableEq, Repr, Inhabited

/-- A completion queue's running state (R78, R86, R101, R103). -/
structure Cq where
  tail    : Nat := 0
  phase   : Bool := true
  err     : Bool := false
  cause   : HCause := .none
  /-- Head word last read. -/
  head    : Nat := 0
  /-- Entries written and not yet released by the head word last read (R86). -/
  unrel   : Nat := 0
  /-- Entries owed to jobs consumed and not yet issued (R86). -/
  owed    : Nat := 0
  /-- Entries gathered for one write (R101), or held behind a stopped CQ (R60). -/
  gather  : List Entry := []
  /-- Elapsed ns at which the first gathered entry was ready. -/
  since   : Nat := 0
  /-- Entries written and not yet signalled (R103). -/
  unsig   : Nat := 0
  /-- Elapsed ns of the oldest unsignalled entry. -/
  oldest  : Nat := 0
  /-- Entries written and not yet released, oldest first; a failed write takes the last of them back (R60). -/
  sent    : List Entry := []
deriving DecidableEq, Repr, Inhabited

/-- The states of R491. -/
inductive SliceSt where
  | disabled | active | quiescing | quiesced | scrubbing | absent
deriving DecidableEq, Repr, Inhabited

/-- A request to set or clear event flags, applied on the next tick (R233). -/
structure FlagReq where
  set  : Bool
  mask : BitVec 64
deriving DecidableEq, Repr, Inhabited

/-- A CTR_DRBG instance (R466 to R469). -/
structure Drbg where
  live     : Bool := false
  /-- Elapsed ns of the last reseed. -/
  reseeded : Nat := 0
  /-- Generate requests since the last reseed. -/
  requests : Nat := 0
  /-- Its reseed is due: it serves nothing until it is reseeded (R468). -/
  due      : Bool := false
  /-- The personalisation string of its instantiation (R467). -/
  person   : Bytes := []
  /-- Key and V of the CTR_DRBG, 48 bytes. -/
  val      : Bytes := []
deriving DecidableEq, Repr, Inhabited

/-- The running state of one slice (chapters 02, 05, 12). -/
structure Slice where
  st        : SliceSt := .disabled
  badState  : Bool := false
  badConfig : Bool := false
  cause     : Nat := 0
  aborted   : Nat := 0
  /-- Elapsed ns at which a quiesce reaches its limit. -/
  limitAt   : Nat := 0
  /-- The window a REMOVE overwrites, in units of 2 MiB: base and size (R499). -/
  scrub     : Nat × Nat := (0, 0)
  /-- The PASID of its requests, from its last ACTIVATE or RESUME on (R496). -/
  pasid     : Option Nat := none
  dbErr     : Bool := false
  dbCause   : HCause := .none
  /-- A doorbell read is outstanding; `dbAgain`: one further read follows it (R71). -/
  dbReading : Bool := false
  dbAgain   : Bool := false
  /-- Elapsed ns of the last poll (R64). -/
  polled    : Nat := 0
  sqs       : SMap Sq := []
  cqs       : SMap Cq := []
  flags     : BitVec 64 := 0
  flagReqs  : List FlagReq := []
  /-- Usage in engine-ns per class, in the order VCE HSE CDE CLE STE (R213). -/
  usage     : SMap Nat := []
  /-- A lowered depth cap holds all consumption until occupancy falls below it (R217). -/
  capHold   : Bool := false
  drbg      : Drbg := {}
  /-- SQ index whose descriptor was consumed last (R194). -/
  lastSq    : Nat := 15
deriving DecidableEq, Repr, Inhabited

/-- One key slot (R430, R433): its table entry and what its lines of the arena hold.
DESIGN CHOICE, log entry 58, unsafe. -/
structure KeySlot where
  inUse   : Bool := false
  /-- Generation modulo 2^17 (R429). -/
  gen     : Nat := 0
  owner   : Nat := 0
  /-- LOADED, else CACHED (R433). -/
  loaded  : Bool := false
  /-- Freed under R436 while a job still holds it; frosted after the last holder. -/
  zombie  : Bool := false
  alg     : BitVec 16 := 0
  usage   : Word := 0
  policy  : Word := 0
  expiry  : Nat := 0
  blobgen : Nat := 0
  epoch   : Nat := 0
  keyId   : Bytes := []
  /-- The body: two Boolean shares of a secret one, or `share0` alone for a public key (R430). -/
  share0  : Bytes := []
  share1  : Bytes := []
  /-- Two shares of the HMAC pad states (R430). -/
  pads    : Bytes × Bytes := ([], [])
  /-- Header and tag of the blob, for the equality of R433. -/
  header  : Bytes := []
  tag     : Bytes := []
  /-- The derived public key is held in the slot (R426). -/
  pub     : Option Bytes := none
  /-- Session pins (R181). -/
  pins    : Nat := 0
  /-- Loaded by a session create or rekey, and ended with the session (R433). -/
  bySession : Bool := false
  /-- Jobs that hold the slot (R436). -/
  holders : Nat := 0
  lines   : Nat := 0
  /-- The numbers of its lines of the arena (R430). -/
  lineList : List Nat := []
  /-- An uncorrectable error has frosted its data (R432). -/
  lost    : Bool := false
  /-- Order of last use (R434). -/
  used    : Nat := 0
deriving DecidableEq, Repr, Inhabited

/-- A session context (R181). -/
inductive SessSt where
  | free | active | expired
deriving DecidableEq, Repr, Inhabited

/-- A session context (R181). -/
structure Session where
  gen        : Nat := 0
  st         : SessSt := .free
  variant    : Nat := 0
  replay     : Bool := false
  rxValid    : Bool := false
  nextValid  : Bool := false
  key        : Nat := 0
  keyNext    : Nat := 0
  activate   : Nat := 0
  graceUs    : Nat := 0
  txCounter  : Nat := 0
  rxHigh     : Nat := 0
  rxWindow   : BitVec 256 := 0
  peerId     : Bytes := []
  expiry     : Nat := 0
  nonceSalt  : Bytes := []
  sent       : Nat := 0
  accepted   : Nat := 0
  authFail   : Nat := 0
  replays    : Nat := 0
  bytesOut   : Nat := 0
  bytesIn    : Nat := 0
  lastAccept : Nat := 0
  /-- Its data block in context memory fails its read (R409). -/
  unread     : Bool := false
deriving DecidableEq, Repr, Inhabited

/-- The job waits for the harvest to load a secret (R431). -/
def Job.loadWaits (x : Job) : Bool := x.harvestWait && (decide (x.stage = .keyload) || decide (x.stage = .entropyWait))

/-- Words W0 to W15 of a stateful key record in NVM (R449), with the volatile part of R136. -/
structure StfRecord where
  valid   : Bool := false
  keyId   : Bytes := []
  alg     : BitVec 16 := 0
  owner   : Nat := 0
  state   : Nat := 0
  epoch   : Nat := 0
  blobgen : Nat := 0
  total   : Nat := 0
  /-- CLOSE: 0 open, 1 SUPERSEDED, 2 DESTROYED. -/
  close   : Nat := 0
  /-- The programmed words of the RESV_END log, oldest first. -/
  log     : List Nat := []
  /-- NEXT, volatile (R137). -/
  next    : Nat := 0
  pending : Bool := false
  /-- The value a started commit programs. -/
  target  : Nat := 0
  /-- The commit was held back while PFAIL_N was low (R453). -/
  heldBack : Bool := false
  /-- Traversal state built since the start or the first load (R139). -/
  built   : Bool := false
  /-- Job whose completion entry starts the first reservation (R450). -/
  firstOf : Option Nat := none
deriving DecidableEq, Repr, Inhabited

/-- Words W0 to W15 of a record as NVM holds them; an unprogrammed word reads all ones (R449). DESIGN CHOICE, log entry 93,
unsafe. -/
def StfRecord.words (r : StfRecord) : List Nat :=
  let blank := 2 ^ 64 - 1
  let id := fun (i : Nat) => ((List.range 8).map fun k => ((r.keyId[8 * i + k]?).getD 0).toNat * 2 ^ (8 * k)).sum
  [if r.valid then 0xA55A5AA5C33C3CC3 else blank, id 0, id 1,
    r.alg.toNat + 2 ^ 16 * r.owner + 2 ^ 24 * r.state + 2 ^ 32 * r.epoch, r.blobgen, r.total,
    if r.close = 0 then blank else r.close] ++ (List.range 9).map fun i => (r.log[i]?).getD blank

end Sys2Proof.Machine
end

