-- ==== Sys2Proof/Machine/TypesVce.lean ====
section
/-! DEFINITION. The state of one vector crypto engine (R249, R361, R374) and of every physical engine
(R33, R219, R290 to R295). -/

namespace Sys2Proof.Machine

/-- How the shares of a set combine (R260). -/
inductive ShareKind where
  | arith | bool
deriving DecidableEq, Repr, Inhabited

/-- One entry of the share map: PUBLIC when `k` is 0, else the register's place in its share set (R260),
and the INTERNAL mark of R330. -/
structure ShareEnt where
  k        : Nat := 0
  base     : Nat := 0
  g        : Nat := 1
  idx      : Nat := 0
  kind     : ShareKind := .arith
  internal : Bool := false
deriving DecidableEq, Repr, Inhabited

/-- A row of local vector memory with its secret mark and the share index it carries (R276, R277). -/
structure RowCell where
  bits   : Row := 0
  secret : Bool := false
  share  : Nat := 0
deriving DecidableEq, Repr, Inhabited

/-- Modes of the local Keccak core (R323). -/
inductive SpongeMode where
  | shake128 | shake256 | sha3_256 | sha3_512
deriving DecidableEq, Repr, Inhabited

/-- The local Keccak core: one state copy per share (R270, R323, R324). -/
structure Sponge where
  init   : Bool := false
  mode   : SpongeMode := .shake128
  shared : Bool := false
  final  : Bool := false
  copies : List (BitVec 1600) := [0]
  /-- Permutations since the core was set up (R325). -/
  perms  : Nat := 0
  /-- Byte position within the rate. -/
  pos    : Nat := 0
  marked : Bool := false
deriving DecidableEq, Repr, Inhabited

/-- Whose kernel runs (R302, R329, R345). -/
inductive KernelKind where
  | vendor | metrology | customer
deriving DecidableEq, Repr, Inhabited

/-- What the job gave the engine at its start, needed by the rules of chapter 07. -/
structure KernelCtx where
  kind      : KernelKind := .vendor
  /-- Share count K (R259). -/
  k         : Nat := 1
  /-- First row of the job's input area: 0 or 160 (R273). -/
  area      : Nat := 0
  /-- First row of its reserved result slot: 340 or 356 (R273). -/
  slot      : Nat := 340
  blockRow  : Nat := 0
  blockLen  : Nat := 0
  inRow     : Nat := 0
  inLen     : Nat := 0
  keyRow    : Nat := 0
  keyLen    : Nat := 0
  keyDist   : Nat := 0
  outCap    : Nat := 0
  hasKey    : Bool := false
  keyKcall  : Bool := false
  keySeal   : Bool := false
  destHost  : Bool := true
  /-- Run limit in ENGCLK cycles, customer kernels only (R353). -/
  limit     : Nat := 0
  spill     : Nat := 0
deriving DecidableEq, Repr, Inhabited

/-- The state of a VCE (R249) with its micro-sequencer (R361, R367, R374). -/
structure Vce where
  v       : SMap Row := []
  m       : SMap (BitVec 128) := []
  s       : SMap Lane := []
  /-- INTERNAL marks of the scalars and of the mask registers (R330). -/
  smark   : SMap Bool := []
  mmark   : SMap Bool := []
  q       : Lane := 0
  qinv    : Lane := 0
  qsq     : BitVec 72 := 0
  vl      : Nat := 128
  g       : Nat := 1
  share   : SMap ShareEnt := []
  vfault  : Word := 0
  /-- Seed of the mask stream generator; none: off (R268). -/
  seed    : Option Bytes := none
  /-- Stream bits already used (R267). -/
  used    : Nat := 0
  sponge  : Sponge := {}
  rows    : SMap RowCell := []
  ctx     : KernelCtx := {}
  /-- Output streamed by VOUT (R315). -/
  streamed : Bytes := []
  /-- Streamed input (R278, R314): active, rows arrived, rows released below. -/
  streaming : Bool := false
  arrived : Nat := 0
  released : Nat := 0
  kstack  : List Nat := []
  kpc     : Nat := 0
  /-- Address of the kernel word being carried out. -/
  kaddr   : Nat := 0
  upc     : Nat := 0
  /-- Micro-stack entries, each with its parity bits (R360, R367). -/
  ustack  : List (BitVec 17) := []
  u       : SMap Lane := []
  ir      : Lane := 0
  imm     : Lane := 0
  /-- ENGCLK cycles since the last safe point (R373). -/
  wd      : Nat := 0
  /-- ENGCLK cycles of the micro-operations of the kernel, and those it spent in RUNNING before its latest start (R353). -/
  cycles  : Nat := 0
  spent   : Nat := 0
  /-- Cycles for which the datapath is still busy (R365). -/
  dp      : Nat := 0
  /-- A KJMP since the last NEXT (R365). -/
  jumped  : Bool := false
  /-- The sequencer is at a safe point: a POLL, a NEXT or a wait for external data (R372). -/
  safe    : Bool := true
  /-- That safe point is a wait for data from outside the engine (R372). -/
  waiting : Bool := false
  /-- The kernel has been entered: for a customer kernel, through its entry word (R348). -/
  entered : Bool := true
  /-- Next element of a gather or scatter in progress (R338). -/
  gsAt    : Nat := 0
  /-- Resume address of a save (R374). -/
  resume  : Nat := 0
  /-- A hash handed to an HSE is awaited (R397), and the μ that has come back. -/
  lent    : Bool := false
  mu      : Bytes := []
deriving DecidableEq, Repr, Inhabited

/-- States of a physical unit (R42). -/
inductive UnitSt where
  | absent | active | spare | quarantined | retired
deriving DecidableEq, Repr, Inhabited

/-- A job's step on an engine. -/
abbrev JobStep := Nat × Nat

/-- The buffer half of a job on an HSE, CDE, CLE or STE, and its key registers and seed (R36, R391, R681, R682). -/
structure EngBuf where
  /-- Block and input, as far as the half holds them (R144, R682). -/
  data : Bytes := []
  /-- The shares that KEY has delivered, by slot; 16,384 stands for the statement key (R276, R681). -/
  keys : SMap (List Bytes) := []
  /-- Two shares of the pad states of an HMAC key, by slot (R156, R396). -/
  pads : SMap (Bytes × Bytes) := []
  seed : Bytes := []
  /-- What the running job keeps in the buffer: sponge states and tree nodes of an HSE, the matrix rows of a CDE (R396,
  R401). -/
  work : Bytes := []
  /-- The order in which a CDE visits the support, or the positions of the sparse operand (R400). -/
  order : List Nat := []
deriving DecidableEq, Repr, Inhabited

/-- One physical engine of any class (R42, R219, R291 to R295). -/
structure Engine where
  unit     : UnitSt := .absent
  logical  : Nat := 0xFF
  gated    : Bool := true
  thawing  : Bool := false
  incoming : Option JobStep := none
  /-- Input, key shares and seeds of the staged job are in place (R681). -/
  loaded   : Bool := false
  running  : Option JobStep := none
  saving   : Bool := false
  /-- Occupied result slots: job and slot number 0 or 1 (R219, R280). -/
  results  : List (Nat × Nat) := []
  /-- A stop for a save is due at the next safe point (R222). -/
  stopReq  : Bool := false
  /-- The staged job's input area, 0 A or 1 B (R273). -/
  area     : Nat := 0
  /-- The half that the staged job fills, and the half of the running job. -/
  next     : EngBuf := {}
  cur      : EngBuf := {}
  fcause   : Nat := 0
  fcount   : Nat := 0
  corr     : Nat := 0
  uncorr   : Nat := 0
  ageBase  : Nat := 0
  ageNow   : Nat := 0
  ageWorst : Nat := 0xFF
  temp     : Nat := 0
  jobs     : Nat := 0
  busy     : Nat := 0
  /-- Elapsed ns at which the running job entered RUNNING, or 0. -/
  since    : Nat := 0
  /-- Operating seconds of the last counted machine checks (R379), newest first. -/
  checks   : List Nat := []
  /-- Operating seconds of the last counted engine faults (R637), newest first. -/
  faults   : List Nat := []
  /-- SRAM rows marked for their errors and not yet replaced (R637, R639). -/
  marked   : Nat := 0
  /-- The build of traversal state that holds the VCE: the record, and the elapsed ns at which it ends (R139). -/
  build    : Option (Nat × Nat) := none
  /-- Elapsed ns at which the restore in progress ends, or 0 (R283, R291). -/
  restEnd  : Nat := 0
  /-- The lend that an HSE carries out: the VCE, the elapsed ns at which it ends, and μ (R397). -/
  lend     : Option (Nat × Nat × Bytes) := none
  /-- What the VCE sent for it: the sponge state, the host address and the remaining length (R397). -/
  lendIn   : Option (BitVec 1600 × Nat × Nat) := none
  /-- Halted by a debug grant (R541). -/
  halted   : Bool := false
  /-- The criterion by which the unit is to be retired, which drains; 0: none (R289). -/
  retiring : Nat := 0
  /-- Stopped by CONTAIN (R551). -/
  contained : Bool := false
  /-- Elapsed ns since which the engine has been idle (R592). -/
  idleAt   : Nat := 0
deriving DecidableEq, Repr, Inhabited

end Sys2Proof.Machine
end

