-- ==== Sys2Proof/Machine/TypesUnit.lean ====
section
/-! DEFINITION. Context memory, the random number generator, code packages and the metrology partition: the data of
chapters 08, 09, 11 and 13 of the manual. -/

namespace Sys2Proof.Machine

/-- One DDR5 channel as the CMC found it (R405, R413). -/
structure Channel where
  fitted : Bool := false
  active : Bool := false
  ranks  : Nat := 0
  gib    : Nat := 0
  corr   : Nat := 0
  uncorr : Nat := 0
deriving DecidableEq, Repr, Inhabited

/-- A byte of context memory at a logical address. -/
abbrev Cell := Nat × BitVec 8

/-- Context memory and its controller (R404 to R413). `cells` holds the plaintext bytes that differ from 0, in
rising order of logical address. -/
structure Cmc where
  ready    : Bool := false
  popCode  : Nat := 0
  chA      : Channel := {}
  chB      : Channel := {}
  usable   : Nat := 0
  internal : Nat := 0
  cells    : List Cell := []
  /-- Save images of suspended VCE jobs in the internal region, by job (R226, R283). -/
  saves    : SMap Vce := []
  /-- Saved buffer areas of suspended jobs of the other classes, by job (R226, R395). -/
  buffers  : SMap EngBuf := []
  /-- CDE scratch areas of 2 MiB, by job: the matrix of a key generation, and the rounds done on it (R401, R412). -/
  scratch  : SMap (Bytes × Nat) := []
  /-- Groups below this one are overwritten (R411). -/
  done     : Nat := 0
  ovwDone  : Bool := false
  /-- Groups initialised out of order (R411). -/
  onDemand : List Nat := []
  /-- Blocks whose read fails its tag check or ECC (R409, R410). -/
  bad      : List Nat := []
  /-- Those of them whose ECC passes and whose tag does not (R409). -/
  badTag   : List Nat := []
  errAddr  : Nat := 0
  integ    : Nat := 0
  /-- The per-boot key of R47, 96 bytes. -/
  key      : Bytes := []
deriving DecidableEq, Repr, Inhabited

/-- States of a noise source (R460, R484). -/
inductive SrcSt where
  | standby | selected | bad
deriving DecidableEq, Repr, Inhabited

/-- One noise source (R459, R484). -/
structure Source where
  st      : SrcSt := .standby
  cause   : Nat := 0
  fails   : Nat := 0
  maxRun  : Nat := 0
  maxApt  : Nat := 0
  /-- Passed its start-up test in its present period of operation (R462). -/
  passed  : Bool := false
  /-- Operating second at which it was marked BAD or last tested (R475). -/
  at_     : Nat := 0
  /-- The start-up test in progress of a source that is not selected, which reads TESTING meanwhile: the elapsed ns at which it
  ends, and the cause by which it fails, 0 where it passes (R462, R475, R484). -/
  test    : Option (Nat × Nat) := none
deriving DecidableEq, Repr, Inhabited

/-- A waiting request for fresh entropy (R469, R477). -/
inductive FreshReq where
  | root
  | job (id : Nat) (prot : Bool)
deriving DecidableEq, Repr, Inhabited

/-- The random number generator (chapter 11). -/
structure Rng where
  /-- Powered and enabled by the steward (R470). -/
  on        : Bool := false
  /-- Elapsed ns at which the steward enabled it. -/
  onAt      : Nat := 0
  ready     : Bool := false
  switching : Bool := false
  noSource  : Bool := false
  sel       : Nat := 0
  srcs      : SMap Source := []
  /-- The conditioned blocks of 48 bytes in the pool, oldest first (R464, R465). -/
  pool      : List Bytes := []
  blocks    : Nat := 0
  d0        : Drbg := {}
  root      : Drbg := {}
  mask      : Drbg := {}
  blind     : Drbg := {}
  share     : Drbg := {}
  stw       : Drbg := {}
  waiting   : List FreshReq := []
  /-- Jobs given a fresh block they have not yet used, with that block. -/
  granted   : List (Nat × Bytes) := []
deriving DecidableEq, Repr, Inhabited

/-- A code package in a slot (R381 to R387). -/
structure Package where
  version : Nat := 0
  bytes   : Bytes := []
deriving DecidableEq, Repr, Inhabited

/-- The code package partition and the loaded stores (R345, R356, R368, R369, R383 to R388). -/
structure Code where
  active   : SMap Package := []
  pending  : SMap Package := []
  /-- Which of its two slots holds the active package of a type; the other is the pending slot (R383). -/
  side     : SMap Nat := []
  /-- Highest VERSION ever installed per type (R386). -/
  highest  : SMap Nat := []
  removeAt : Bool := false
  busy     : Bool := false
  result   : Nat := 0
  type_    : Nat := 0
  /-- Types whose active package is loaded in every VCE (R388). -/
  loaded   : List Nat := []
  /-- Kernel-store words loaded from packages over the ROM image, by address. -/
  kernel   : SMap (BitVec 36) := []
  /-- Control-store RAM words as stored (R359), decode entries and match entries loaded from packages, with
  their parity bits (R360). -/
  control  : SMap (BitVec 40) := []
  decode   : SMap (BitVec 18) := []
  match_   : SMap (BitVec 36) := []
deriving DecidableEq, Repr, Inhabited

/-- An audit entry (R512). -/
structure AuditEntry where
  seq    : Nat
  kind   : Nat
  time   : Nat
  old    : Nat
  new    : Nat
  digest : Bytes
deriving DecidableEq, Repr, Inhabited

/-- A command of MP_CMD that has started and is still running (R521). -/
inductive MpOp where
  | authority (data : Option Bytes) (ok : Bool)
  | tariff (data : Option Bytes) (ok : Bool)
  | separate (ok : Bool)
deriving DecidableEq, Repr, Inhabited

/-- The sealed metrology partition (chapter 13). -/
structure Mp where
  busy      : Bool := false
  op        : Option MpOp := none
  result    : Nat := 0
  sepFuse   : Bool := false
  /-- Separation has been carried out at a start (R522). -/
  separated : Bool := false
  authKey   : Bytes := []
  tariffKey : Bytes := []
  /-- Tables in force, highest VERSION first, at most four (R511). -/
  tariffs   : List Bytes := []
  topTariff : Nat := 0
  audit     : List AuditEntry := []
  /-- The copies of tariff history and log in the metrology SRAM region, which jobs read (R504). -/
  ramTariffs : List Bytes := []
  ramAudit  : List AuditEntry := []
  /-- Statement counter: next value, committed end, commit in progress (R515). -/
  ctrNext   : Nat := 0
  ctrEnd    : Nat := 0
  ctrBusy   : Bool := false
  /-- The last value issued; none until one is issued after a start. -/
  ctrLast   : Option Nat := none
  /-- Statement key: its public key, its blob in the metrology region, and the life-cycle state of the blob (R514). -/
  stPub     : Bytes := []
  stBlob    : Bytes := []
  stState   : Nat := 0
  swVer     : Nat := 0
  swDigest  : Bytes := []
deriving DecidableEq, Repr, Inhabited

end Sys2Proof.Machine
end

