-- ==== Sys2Proof/Machine/Layouts.lean ====
section
/-! DEFINITION. The layouts of what the part itself keeps in context memory, which the manual calls internal (R139, R283,
R374, R395) or
does not state. DESIGN CHOICE, log entry 29, unsafe. -/

namespace Sys2Proof.Config
open Sys2Proof.Machine

/-- The 256 bytes of a session context (R407). -/
opaque contextBytes : Session → Bytes
/-- The 128 bytes of an entry of the job table (R407). -/
opaque jobBytes : Job → Bytes
/-- The job table as its blocks hold it: 512 bytes by block of the table (R407). -/
opaque tableBlock : SMap Job → Nat → Bytes
/-- The save image of a VCE (R283). -/
opaque imageBytes : Vce → Bytes
/-- The saved buffer areas of another engine (R395). -/
opaque bufferBytes : EngBuf → Bytes
/-- The traversal state of a stateful key (R139). -/
opaque treeBytes : StfRecord → Bytes

end Sys2Proof.Config
end

