-- ==== Sys2Proof/Config.lean ====
section
/-! DEFINITION. What the manual takes from outside or leaves open, as constants without a body: the standard
algorithms it names, and values it does not state. Nothing can be proved of their values, so every claim holds
for all of them. -/

namespace Sys2Proof.Config

/-! Free values -/

/-- Free bytes: byte `i` of draw number `n`. The manual states no value. -/
opaque randomByte : Nat → Nat → Byte
/-- Byte `i` of the 256 bytes of samples that two windows give (R464): draw number, byte. The manual states no value. -/
opaque noiseByte : Nat → Nat → Byte
/-- A number the manual leaves open, draw number `n`. -/
opaque freeNat : Nat → Nat
/-- A reduction modulo Q while Q is 0, where the manual states no value: a function of the operand. -/
opaque modZero : Nat → Nat

/-- The translation completion of request number `n` for a page under a PASID denies the access (R59). -/
opaque atsDenied : Nat → Nat → Nat → Bool

/-- The bits that the BCH code of NVM can correct, which the manual does not state (R637). -/
opaque bchBits : Nat

/-- The vendor ID of the PCI Express function, which the manual does not print. -/
opaque vendorId : Nat

/-! Hash functions and ciphers, each as its standard defines it (log entry 3) -/

/-- Keccak-f[1600] of FIPS 202. -/
opaque keccakF : BitVec 1600 → BitVec 1600
/-- Copy `i`, but the last, after a permutation on shares: of the copies before it and its 320 mask stream bits. -/
opaque keccakShare : List (BitVec 1600) → Nat → Nat → BitVec 1600
/-- Byte `i` of SHAKE128 and SHAKE256 of a message (FIPS 202). -/
opaque shake128 : Bytes → Nat → Byte
opaque shake256 : Bytes → Nat → Byte
/-- Byte `i` of cSHAKE with message, function name N and customisation S (SP 800-185). -/
opaque cshake128 : Bytes → Bytes → Bytes → Nat → Byte
opaque cshake256 : Bytes → Bytes → Bytes → Nat → Byte
/-- SHA-2 of the variant code of R154. -/
opaque sha2 : Nat → Bytes → Bytes
/-- CTR_DRBG of SP 800-90A with AES-256 and the derivation function, byte by byte: the 48 bytes of Key and V after an
instantiation from entropy input, nonce and personalisation string, and after a reseed; the output of a request of `n` bytes
in a state, and the state after it. -/
opaque drbgInit : Bytes → Bytes → Bytes → Nat → Byte
opaque drbgReseed : Bytes → Bytes → Nat → Byte
opaque drbgByte : Bytes → Nat → Nat → Byte
opaque drbgNext : Bytes → Nat → Nat → Byte
/-- SHA-3 of the variant code of R154. -/
opaque sha3 : Nat → Bytes → Bytes
/-- HMAC of the variant code of R154: key, message (FIPS 198-1). -/
opaque hmac : Nat → Bytes → Bytes → Bytes
/-- The inner and outer pad states of an HMAC key: variant of R154, key (R175, R430). -/
opaque hmacPads : Nat → Bytes → Bytes
/-- KMAC128 (code 1) or KMAC256 (code 2): key, message, output length in bytes, S (SP 800-185). -/
opaque kmac : Nat → Bytes → Bytes → Nat → Bytes → Bytes
/-- AES-GCM: key, nonce, additional data, plaintext; ciphertext and the 16-byte tag (SP 800-38D). -/
opaque gcmCrypt : Bytes → Bytes → Bytes → Bytes
opaque gcmTag : Bytes → Bytes → Bytes → Bytes → Bytes
/-- AES of one 16-byte block (FIPS 197): key, block. -/
opaque aesBlock : Bytes → Bytes → Bytes
/-- AES-CMAC (SP 800-38B): key, message. -/
opaque cmac : Bytes → Bytes → Bytes
/-- AES key wrap KW and KWP (SP 800-38F, RFC 5649): key, plaintext; and the inverse, none on a failed check. -/
opaque kwWrap : Bytes → Bytes → Bytes
opaque kwUnwrap : Bytes → Bytes → Option Bytes
opaque kwpWrap : Bytes → Bytes → Bytes
opaque kwpUnwrap : Bytes → Bytes → Option Bytes
/-- ChaCha20-Poly1305 (RFC 8439): key, nonce, data; and its tag. -/
opaque chachaCrypt : Bytes → Bytes → Bytes → Bytes
opaque chachaTag : Bytes → Bytes → Bytes → Bytes → Bytes
/-- AES-256-GCM-SIV (RFC 8452): key, nonce, additional data, plaintext; ciphertext then tag of 16 bytes. -/
opaque gcmSivSeal : Bytes → Bytes → Bytes → Bytes → Bytes
/-- Its inverse: key, nonce, additional data, ciphertext, tag. -/
opaque gcmSivOpen : Bytes → Bytes → Bytes → Bytes → Bytes → Option Bytes

/-! Public-key algorithms -/

/-- ML-KEM of FIPS 203, by the parameter set code of R106. -/
opaque mlkemEk : Nat → Bytes → Bytes
opaque mlkemDk : Nat → Bytes → Bytes
opaque mlkemEncCt : Nat → Bytes → Bytes → Bytes
opaque mlkemEncSs : Nat → Bytes → Bytes → Bytes
/-- Decapsulation, implicit rejection included (R123). -/
opaque mlkemDec : Nat → Bytes → Bytes → Bytes
opaque mlkemEkOk : Nat → Bytes → Bool
opaque mlkemDkOk : Nat → Bytes → Bool
/-- ML-DSA of FIPS 204: keys from ξ, signature of M′ with rnd, verification. -/
opaque mldsaPk : Nat → Bytes → Bytes
opaque mldsaSk : Nat → Bytes → Bytes
opaque mldsaPkOfSk : Nat → Bytes → Bytes
opaque mldsaSign : Nat → Bytes → Bytes → Bytes → Bytes
opaque mldsaVerify : Nat → Bytes → Bytes → Bytes → Bool
/-- The DER-encoded OID of the pre-hash function PHALG (FIPS 204, FIPS 205). -/
opaque hashOid : Nat → Bytes
/-- SLH-DSA of FIPS 205: keys from the 3n-byte seed, signature of M′ with opt_rand, verification. -/
opaque slhPk : Nat → Bytes → Bytes
opaque slhSk : Nat → Bytes → Bytes
opaque slhSign : Nat → Bytes → Bytes → Bytes → Bytes
opaque slhVerify : Nat → Bytes → Bytes → Bytes → Bool
/-- LMS/HSS and XMSS of SP 800-208: the body behind its header from parameters (field A of R135) and drawn bytes; the
public key behind its typecodes or OID from a body; signature with body, leaf and message; verification under a public key
of a message and a signature. -/
opaque lmsBody : Bytes → Bytes → Bytes
opaque lmsRoot : Bytes → Bytes
opaque lmsSign : Bytes → Nat → Bytes → Bytes
opaque lmsVerify : Bytes → Bytes → Bytes → Bool
opaque xmssBody : Bytes → Bytes → Bytes
opaque xmssRoot : Bytes → Bytes
opaque xmssSign : Bytes → Nat → Bytes → Bytes
opaque xmssVerify : Nat → Bytes → Bytes → Bytes → Bool
/-- HQC: keys from the drawn bytes, encapsulation, decapsulation, format check. -/
opaque hqcPk : Nat → Bytes → Bytes
opaque hqcSk : Nat → Bytes → Bytes
opaque hqcPkOfSk : Nat → Bytes → Bytes
opaque hqcEncCt : Nat → Bytes → Bytes → Bytes
opaque hqcEncSs : Nat → Bytes → Bytes → Bytes
opaque hqcDec : Nat → Bytes → Bytes → Bytes
opaque hqcPkOk : Nat → Bytes → Bool
/-- Classic McEliece, round 4. -/
opaque mcePk : Nat → Bytes → Bytes
opaque mceSk : Nat → Bytes → Bytes
opaque mceEncCt : Nat → Bytes → Bytes → Bytes
opaque mceEncSs : Nat → Bytes → Bytes → Bytes
opaque mceDec : Nat → Bytes → Bytes → Bytes
opaque mcePkOk : Nat → Bytes → Bool
/-- Elliptic curves by the curve code of R154: private key from drawn bytes, public key, agreement. -/
opaque eccSk : Nat → Bytes → Bytes
opaque eccPk : Nat → Bytes → Bytes
opaque eccPkOk : Nat → Bytes → Bool
/-- A private key of the curve, as SP 800-56A requires it. -/
opaque eccSkOk : Nat → Bytes → Bool
/-- Agreement: curve, private key, peer key; the raw shared secret. -/
opaque eccAgree : Nat → Bytes → Bytes → Bytes
/-- Signature of a digest with additional data for hedging (RFC 6979, FIPS 186-5): curve, key, hash, digest, extra. -/
opaque ecdsaSign : Nat → Bytes → Nat → Bytes → Bytes → Bytes
opaque ecdsaVerify : Nat → Bytes → Nat → Bytes → Bytes → Bool
/-- Ed25519 of RFC 8032, pure, and Ed25519ph of a SHA-512 digest with a context. -/
opaque ed25519Sign : Bytes → Bytes → Bytes
opaque ed25519Verify : Bytes → Bytes → Bytes → Bool
opaque ed25519phSign : Bytes → Bytes → Bytes → Bytes
opaque ed25519phVerify : Bytes → Bytes → Bytes → Bytes → Bool
/-- RSA (RFC 8017, FIPS 186-5): size code, seed; body of R167, whose e the part sets. -/
opaque rsaBody : Nat → Bytes → Bytes
/-- Signature of a digest: body, hash, digest; PSS with salt. -/
opaque rsaSignV15 : Bytes → Nat → Bytes → Bytes
opaque rsaSignPss : Bytes → Nat → Bytes → Bytes → Bytes
opaque rsaVerifyV15 : Bytes → Nat → Bytes → Bytes → Bool
opaque rsaVerifyPss : Bytes → Nat → Nat → Bytes → Bytes → Bool
/-- OAEP decryption: body, hash, label, ciphertext; none on a decoding failure. -/
opaque rsaOaep : Bytes → Nat → Bytes → Bytes → Option Bytes

/-- The encoded form of a key of a further algorithm identifier (R441). -/
opaque keyFormOk : Nat → Bytes → Bool

/-- What an HSE works on in its buffer during an operation: OPC, buffered bytes (R396). -/
opaque hseStates : Nat → Bytes → Bytes
/-- The order in which a CDE visits the elements of the support, or the rotated and padded list of positions of a sparse
operand:
OPC, seed (R400). -/
opaque visitOrder : Nat → Bytes → List Nat
/-- The matrix of a key generation of Classic McEliece after so many rounds: set, drawn bytes, rounds (R401). -/
opaque mceMatrix : Nat → Bytes → Nat → Bytes
/-- The 1,600-bit sponge state after the public prefix of μ and the first 1 KiB of the message (R397). -/
opaque absorbed : Bytes → Bytes → BitVec 1600

/-- The value that step `k` of an operation leaves for the steps that follow: OPC, step, key body, drawn bytes, input. -/
opaque stepValue : Nat → Nat → Bytes → Bytes → Bytes → Bytes

/-! Values of one part that the manual does not print -/

/-- Word `a` of the vendor ROM images: kernel words, micro-operations and decode entries (R356, R388). -/
opaque romKernelWord : Nat → BitVec 36
opaque romMicroOp : Nat → BitVec 40
opaque romDecode : Nat → BitVec 16
/-- Where the tables of the constant rows begin in the vendor kernel range (R345). -/
opaque constTable : Nat
/-- The entry address of the vendor or metrology kernel that carries out an OPC. -/
opaque vendorEntry : Nat → Nat
/-- The input of the known-answer job of share count K, and of 4 + K its seed (R541). -/
opaque katInput : Nat → Bytes
/-- The word of the contents of a debug window area that lies at an offset of the area (R541, R542): area, offset. -/
opaque windowIndex : Nat → Nat → Nat
/-- The vendor public keys in steward ROM. -/
opaque vendorKey : Nat → Bytes
/-- The device key fused at production test, which only KEY reads (R416). -/
opaque deviceKey : Bytes
/-- The routines IFAULT, SAVE and the X formats are not published: bits of a vendor micro-operation. -/
opaque vendorMicro : Nat → Nat

/-- An element or index that the sampling of R323 and R326 has not found within the bytes the model takes. -/
opaque sampleRest : Nat → Nat

end Sys2Proof.Config
end

