-- ==== Sys2Proof/Machine/Parts.lean ====
section
/-! DEFINITION. What manufacture fixes for the two part types: units of each class, the memories on the chip and the
partitions of NVM (R2 to R5, R38, R40 to R42, R636). -/

namespace Sys2Proof.Machine

/-- Active units of a class nominal for the part type (R3, R650). -/
def nominal (small : Bool) : Cls → Nat
  | .vce => if small then 16 else 32
  | .hse => if small then 8 else 16
  | .cde => if small then 2 else 4
  | .cle => if small then 2 else 4
  | .ste => if small then 4 else 8

/-- Spare units of a class as the part leaves production test (R636). -/
def sparesOf (small : Bool) : Cls → Nat
  | .vce => 2
  | .hse => if small then 1 else 2
  | .cde | .cle | .ste => 1

/-- Physical units of a class (R3). -/
def physical (small : Bool) (c : Cls) : Nat := nominal small c + sparesOf small c

/-- The order of the classes in SYS_SPARE and in SHORT (R645). -/
def Cls.num : Cls → Nat
  | .vce => 0 | .hse => 1 | .cde => 2 | .cle => 3 | .ste => 4

/-- First physical index of a class (R41). -/
def Cls.first : Cls → Nat
  | .vce => 0 | .hse => 34 | .cde => 52 | .cle => 57 | .ste => 62

/-- The class of physical engine `e` (R41). -/
def clsOf (e : Nat) : Cls :=
  if e < 34 then .vce else if e < 52 then .hse else if e < 57 then .cde else if e < 62 then .cle else .ste

/-- The map fused at test: state and logical number of physical engine `e` (R42). A unit that the part type does not have
is ABSENT. DESIGN CHOICE, log entry 2, unsafe. -/
def fusedUnit (small : Bool) (e : Nat) : UnitSt × Nat :=
  let c := clsOf e
  let i := e - c.first
  if i < nominal small c then (.active, i)
  else if i < physical small c then (.spare, 0xFF)
  else (.absent, 0xFF)

/-- The physical engine `e` as production test leaves it (R42, R636). -/
def factoryEngine (small : Bool) (e : Nat) : Engine :=
  { unit := (fusedUnit small e).1, logical := (fusedUnit small e).2 }

/-! The 28 MiB of SRAM (R38), in KiB. The metrology region goes to the job table cache where it serves no partition. -/

/-- The holders of SRAM in the order of R38. -/
inductive Holder where
  | vceRows | kernelStores | controlRam | cdeBuffers | workBuffers | slotCache | sessionCache | stewardRam
  | jobCache | releaseBuffer | readyLists | scratch | moverBuffers | tagCache | metrology | recorder
deriving DecidableEq, Repr

/-- KiB of a holder; `mp`: the metrology partition is in service. A TRL3620 carries the same arrays. -/
def Holder.kib (mp : Bool) : Holder → Nat
  | .vceRows => 34 * 216 | .kernelStores => 34 * 72 | .controlRam => 34 * 40 | .cdeBuffers => 5 * 512
  | .workBuffers => 18 * 16 + 5 * 32 + 9 * 32 | .slotCache => 4096 | .sessionCache => 16384 * 256 / 1024
  | .stewardRam => 1536 | .jobCache => if mp then 512 else 768 | .releaseBuffer => 65536 * 32 / 1024
  | .readyLists => 256 | .scratch => 256 | .moverBuffers => 512 | .tagCache => 512
  | .metrology => if mp then 256 else 0 | .recorder => 144

/-- All holders. -/
def allHolders : List Holder :=
  [.vceRows, .kernelStores, .controlRam, .cdeBuffers, .workBuffers, .slotCache, .sessionCache, .stewardRam, .jobCache,
    .releaseBuffer, .readyLists, .scratch, .moverBuffers, .tagCache, .metrology, .recorder]

/-- KiB of the SRAM of a part. -/
def sramKib (mp : Bool) : Nat := (allHolders.map (Holder.kib mp)).sum

/-! The 8 MiB of NVM (R40), in blocks of 4 KiB; 256 spare blocks lie outside the partitions. -/

/-- Blocks of partition 0 settings, 1 overwritable journal, 2 retained journal, 3 stateful keys, 4 roots and boot count,
5 code packages, 6 metrology region, 7 trust anchors and certificates, 8 vendor reserve; `mp`: the metrology partition is
in service, and where it is not its region belongs to the journal. -/
def nvmBlocks (mp : Bool) : Nat → Nat
  | 0 => 64
  | 1 => if mp then 448 else 576
  | 2 => 64
  | 3 => 128
  | 4 => 1
  | 5 => 640
  | 6 => if mp then 128 else 0
  | 7 => 16
  | 8 => 559
  | _ => 0

/-- KiB of all partitions. -/
def nvmKib (mp : Bool) : Nat := 4 * ((List.range 9).map (nvmBlocks mp)).sum

/-- Records of the retained area, 64 bytes each (R40, R582). -/
def retainedCap : Nat := 64 * nvmBlocks true 2


end Sys2Proof.Machine
end

