-- ==== Sys2Proof/Machine/Store.lean ====
section
/-! DEFINITION. Sparse maps, byte strings, byte order and bit fields: the helpers every meaning uses. -/

namespace Sys2Proof.Machine

/-- The entry of a sparse map, if it lists one. -/
def mapFind {α : Type} : SMap α → Nat → Option α
  | [], _ => none
  | (i, v) :: m, k => if k = i then some v else mapFind m k

/-- The value of key `k`: the listed value, or the default `d`. -/
def mapGet {α : Type} (d : α) (m : SMap α) (k : Nat) : α := (mapFind m k).getD d

/-- Inserts or replaces the entry of `k`, keeping the keys rising. -/
def mapInsert {α : Type} : SMap α → Nat → α → SMap α
  | [], k, v => [(k, v)]
  | (i, w) :: m, k, v =>
    if k < i then (k, v) :: (i, w) :: m
    else if k = i then (k, v) :: m
    else (i, w) :: mapInsert m k v

/-- Removes every entry of `k`. -/
def mapErase {α : Type} : SMap α → Nat → SMap α
  | [], _ => []
  | (i, w) :: m, k => if k = i then mapErase m k else (i, w) :: mapErase m k

/-- Writes `v` at `k`; writing the default removes the entry. -/
def mapSet {α : Type} [DecidableEq α] (d : α) (m : SMap α) (k : Nat) (v : α) : SMap α :=
  if v = d then mapErase m k else mapInsert m k v

/-- Changes the value at `k` by `f`. -/
def mapUpd {α : Type} [DecidableEq α] (d : α) (m : SMap α) (k : Nat) (f : α → α) : SMap α :=
  mapSet d m k (f (mapGet d m k))

/-- All values of a map, in order of key. -/
def mapVals {α : Type} (m : SMap α) : List α := m.map (·.2)

/-- Keeps the entries that satisfy `p`. -/
def mapKeep {α : Type} (m : SMap α) (p : Nat → α → Bool) : SMap α := m.filter fun e => p e.1 e.2

/-- Changes every listed entry by `f`, dropping those that become the default. -/
def mapAll {α : Type} [DecidableEq α] (d : α) (m : SMap α) (f : Nat → α → α) : SMap α :=
  (m.map fun e => (e.1, f e.1 e.2)).filter fun e => e.2 ≠ d

/-- The keys rise strictly. -/
def keysRise {α : Type} : SMap α → Bool
  | [] => true
  | [_] => true
  | (i, _) :: (j, w) :: m => i < j && keysRise ((j, w) :: m)

/-- The canonical form: keys strictly rising, no entry equal to the default. -/
def mapWf {α : Type} [DecidableEq α] (d : α) (m : SMap α) : Bool :=
  keysRise m && m.all fun e => e.2 ≠ d

/-! Byte strings -/

/-- Exactly `n` bytes: cut, or padded with zero bytes. Fits an uninterpreted value to the length the manual gives.
DESIGN CHOICE, log entry 3, safe. -/
def fit (n : Nat) (b : Bytes) : Bytes := (b ++ List.replicate (n - b.length) 0).take n

/-- `n` zero bytes. -/
def zeros (n : Nat) : Bytes := List.replicate n 0

/-- The little-endian value of a byte string (R12). -/
def leVal : Bytes → Nat
  | [] => 0
  | b :: r => b.toNat + 256 * leVal r

/-- The big-endian value of a byte string. -/
def beVal (b : Bytes) : Nat := leVal b.reverse

/-- `v` as `n` little-endian bytes (R12). -/
def leBytes : Nat → Nat → Bytes
  | 0, _ => []
  | n + 1, v => BitVec.ofNat 8 v :: leBytes n (v / 256)

/-- `v` as `n` big-endian bytes. -/
def beBytes (n v : Nat) : Bytes := (leBytes n v).reverse

/-- `n` bytes from offset `o`; bytes beyond the end are absent. -/
def cut (b : Bytes) (o n : Nat) : Bytes := (b.drop o).take n

/-- The little-endian field of `n` bytes at offset `o`, 0 where the string is shorter. -/
def leAt (b : Bytes) (o n : Nat) : Nat := leVal (cut b o n)

/-- Byte-wise exclusive or of two strings of equal length. -/
def xorBytes : Bytes → Bytes → Bytes
  | a :: as, b :: bs => (a ^^^ b) :: xorBytes as bs
  | _, _ => []

/-- The bytes `b` written over the string `t` from offset `o`; the length of `t` is kept. -/
def overwrite (t : Bytes) (o : Nat) (b : Bytes) : Bytes := (t.take o ++ b ++ t.drop (o + b.length)).take t.length

/-- An ASCII text as bytes. -/
def ascii (s : String) : Bytes := s.toList.map fun c => BitVec.ofNat 8 c.toNat

/-! Bit fields -/

/-- The field [hi:lo] of a register word, as a number. -/
def fld (w : Word) (hi lo : Nat) : Nat := (w.toNat / 2 ^ lo) % 2 ^ (hi + 1 - lo)

/-- Bit `i` of a register word. -/
def bitAt (w : Word) (i : Nat) : Bool := w.getLsbD i

/-- The field value `v` placed at [hi:lo]. -/
def place (v hi lo : Nat) : Nat := (v % 2 ^ (hi + 1 - lo)) * 2 ^ lo

/-- A word from a number, modulo 2^32. -/
def w32 (n : Nat) : Word := BitVec.ofNat 32 n

/-- The number a word with only the field [hi:lo] kept. -/
def keepField (w : Word) (hi lo : Nat) : Word := w32 (place (fld w hi lo) hi lo)

/-- `w` with the field [hi:lo] taken from `v`. -/
def setField (w : Word) (hi lo v : Nat) : Word :=
  w32 (w.toNat - fld w hi lo * 2 ^ lo + place v hi lo)

/-- A counter that stops at its maximum (R648). -/
def sat (max n : Nat) : Nat := if n > max then max else n

/-- The low 32 bits of a number as a word. -/
def loHalf (n : Nat) : Word := w32 n

/-- Bits [63:32] of a number as a word. -/
def hiHalf (n : Nat) : Word := w32 (n / 2 ^ 32)

/-! Lists -/

/-- The first element that satisfies `p`, or none. -/
def firstWhere {α : Type} (p : α → Bool) (l : List α) : Option α := l.find? p

/-- `l` with element `i` changed by `f`. -/
def modifyAt {α : Type} : List α → Nat → (α → α) → List α
  | [], _, _ => []
  | a :: r, 0, f => f a :: r
  | a :: r, n + 1, f => a :: modifyAt r n f

/-- The element of `l` with the least key, the first among equals. -/
def leastBy {α : Type} (key : α → Nat) : List α → Option α
  | [] => none
  | a :: r =>
    match leastBy key r with
    | none => some a
    | some b => if key b < key a then some b else some a

/-- The element of `l` with the greatest key, the first among equals. -/
def greatestBy {α : Type} (key : α → Nat) : List α → Option α
  | [] => none
  | a :: r =>
    match greatestBy key r with
    | none => some a
    | some b => if key a < key b then some b else some a

end Sys2Proof.Machine
end

