-- ==== Sys2Proof/Machine/TypesSys.lean ====
section
/-! DEFINITION. The event recorder, the tamper monitors, the always-on domain, life cycle, debug, power and time, the
settings store, the host interface, the key manager's lasting state, SMBus, JTAG and the pins: the data of chapters 02,
05, 10 and 14 to 20 of the manual. -/

namespace Sys2Proof.Machine

/-! Event recorder (chapter 16) -/

/-- A journal record (R572); with `ext`, an extension record: set index and captured values (R575). -/
structure Rec where
  seq    : Nat := 0
  time   : Nat := 0
  code   : Nat := 0
  count  : Nat := 1
  slice  : Nat := 0
  engine : Nat := 0xFF
  lcs    : Nat := 0
  holdover   : Bool := false
  injected   : Bool := false
  vendor     : Bool := false
  retained   : Bool := false
  aggregated : Bool := false
  exts   : Nat := 0
  corr   : Nat := 0
  detail : Bytes := []
  last   : Nat := 0
  ext    : Option (Nat × List Word) := none
  /-- Elapsed ns at which it entered the staging ring (R581). -/
  since  : Nat := 0
  /-- Elapsed ns at its TIME (R578). -/
  born   : Nat := 0
deriving DecidableEq, Repr, Inhabited

/-- A token bucket of flood control on a TRL3640 (R579). -/
structure Bucket where
  /-- Codes it serves; more than one in a shared bucket. -/
  codes   : List Nat := []
  /-- Tokens in units of 10^-9. -/
  tokens  : Nat := 0
  /-- Elapsed ns up to which tokens have been added. -/
  upTo    : Nat := 0
  supp    : Nat := 0
  firstCode : Nat := 0
  first   : Nat := 0
  last    : Nat := 0
  firstAt : Nat := 0
  lastAt  : Nat := 0
deriving DecidableEq, Repr, Inhabited

/-- An open window of the fault aggregator (R576). -/
structure Window where
  unit   : Nat := 0
  cause  : Nat := 0
  opened : Nat := 0
  rcd    : Rec := {}
deriving DecidableEq, Repr, Inhabited

/-- The event recorder (R569 to R589). -/
structure Evr where
  ready    : Bool := false
  flushing : Bool := false
  ring     : List Rec := []
  next     : Nat := 0
  /-- SEQ of the record held uncommitted on a TRL3620 (R578). -/
  held     : Option Nat := none
  /-- The record programmed last was of a retained class, or an extension of one (R577). -/
  lastKept : Bool := false
  /-- The overwritable area by position written; 64 positions to a block (R582). -/
  area     : SMap Rec := []
  written  : Nat := 0
  retained : List Rec := []
  retFull  : Bool := false
  lostRing : Nat := 0
  /-- Drops not yet reported by RING_LOST (R580). -/
  dropped  : Nat := 0
  torn     : Nat := 0
  /-- Records programmed without their valid mark when power failed (R581). -/
  tornNvm  : Nat := 0
  buckets  : SMap Bucket := []
  windows  : List Window := []
  found    : Bool := false
  none_    : Bool := false
  data     : Bytes := []
  cmdRes   : Nat := 0
deriving DecidableEq, Repr, Inhabited

/-! Tamper (chapter 15) -/

/-- The scope of an alarm (R551). -/
inductive Scope where
  | all
  | engine (e : Nat)
  | slice (n : Nat)
deriving DecidableEq, Repr, Inhabited

/-- An active alarm: the response it was raised with and its scope (R549, R550). -/
structure Alarm where
  resp  : Nat := 1
  scope : Scope := .all
deriving DecidableEq, Repr, Inhabited

/-- Running state of a monitor (R548, R567). -/
structure Mon where
  cond   : Bool := false
  broken : Bool := false
  inwin  : Nat := 0
  /-- Elapsed ns of the SHADOW events since the window was last emptied, oldest first (R548, R561). -/
  events : List Nat := []
  trips  : Nat := 0
deriving DecidableEq, Repr, Inhabited

/-- A PURGE or FORFEIT sequence in progress: step reached, and what step 5 records (R552, R553). -/
structure Seq where
  step      : Nat := 0
  monitor   : Nat := 0
  discarded : Nat := 0
deriving DecidableEq, Repr, Inhabited

/-- The TMP block's state outside the AON domain. -/
structure Tmp where
  mons      : SMap Mon := []
  seq       : Option Seq := none
  testing   : Option Nat := none
  /-- Monitors still to be tested by a round of R559. -/
  round     : List Nat := []
  clearRes  : Nat := 0
  testRes   : Nat := 0
  tmon      : Nat := 0
  aonLost   : Bool := false
  forfeited : Bool := false
  held      : Nat := 0
  overflow  : Nat := 0
  /-- ALARM_N and TAMPER_N show the active alarms (R565 step 5, R566). -/
  outputs   : Bool := false
  /-- A round has begun since this start, and the operating second of the latest (R559). -/
  rounded   : Bool := false
  roundAt   : Nat := 0
deriving DecidableEq, Repr, Inhabited

/-- An entry of the alarm store (R564). -/
structure StoreEntry where
  time  : Nat
  mon   : Nat
  resp  : Nat
  count : Nat
deriving DecidableEq, Repr, Inhabited

/-- The time anchor (R610). -/
structure Anchor where
  time    : Nat
  counter : Nat
  freq    : Int
deriving DecidableEq, Repr, Inhabited

/-- The AON domain (R32, R562 to R568, R598, R603, R610, R665). -/
structure Aon where
  /-- The retention word is intact. -/
  intact   : Bool := false
  alarms   : SMap Alarm := []
  corr     : Nat := 0
  latch    : Bool := false
  store    : List StoreEntry := []
  /-- Entry 15: time and monitor of the latest alarm not stored, and their count. -/
  overEntry : Option (Nat × Nat × Nat) := none
  cfg      : SMap Word := []
  anchor   : Option Anchor := none
  /-- The Winter Hold time counter, 48 bits. -/
  counter  : Nat := 0
  rc       : Bool := false
  onVbat   : Bool := false
  /-- Monitors that have tripped in Winter Hold and are not re-armed (R562). -/
  tripped  : List Nat := []
deriving DecidableEq, Repr, Inhabited

/-! Life cycle and debug (chapter 14) -/

/-- A marker pair: the word M and, once programmed, the word C (R524). -/
structure Marker where
  m : Dword
  c : Option Dword := none
deriving DecidableEq, Repr, Inhabited

/-- A transition in progress: its states and the last step of R529 that is complete. -/
structure Trans where
  from_ : Nat
  into  : Nat
  step  : Nat := 1
deriving DecidableEq, Repr, Inhabited

/-- The life-cycle machine and the owner keys (R523 to R536). -/
structure Lcs where
  words    : List Dword := []
  markers  : List Marker := []
  code     : Nat := 0
  first    : Bool := false
  /-- Code of the state whose first start is complete (R535; the model's own). -/
  begun    : Nat := 0
  result   : Nat := 0
  trans    : Option Trans := none
  codeKey  : Bytes := []
  debugKey : Bytes := []
  ownerBusy : Bool := false
  ownerRes : Nat := 0
deriving DecidableEq, Repr, Inhabited

/-- An entry of the scheduler trace ring (R541). -/
structure TraceEntry where
  time  : Nat
  slice : Nat
  qid   : Nat
  cls   : Nat
  logical : Nat
  state : Nat
deriving DecidableEq, Repr, Inhabited

/-- Debug grants (R537 to R545). -/
structure Dbg where
  active  : Bool := false
  issuer  : Nat := 0
  rights  : Word := 0
  until_  : Nat := 0
  /-- The valid challenge and the elapsed ns at which it was drawn. -/
  chal    : Option (Bytes × Nat) := none
  chalReg : Bytes := []
  result  : Nat := 0
  mbox    : SMap Byte := []
  traceOn : Bool := false
  trace   : List TraceEntry := []
  /-- The engine and share count of the latest known-answer job that STEP has begun (R541). -/
  kat     : Option (Nat × Nat) := none
deriving DecidableEq, Repr, Inhabited

/-! Power and time (chapter 17) -/

/-- Power states (R590); `off` is the part before its first power and while every rail is absent. -/
inductive Power where
  | off | run | doze | sleep | winter
deriving DecidableEq, Repr, Inhabited

/-- The PWR block (R590 to R600, R617). -/
structure Pwr where
  st      : Power := .off
  /-- The part is held in reset: PERST_N low, or the start not begun. -/
  inReset : Bool := true
  ready   : Bool := false
  start   : Nat := 0
  pfail   : Bool := false
  /-- Elapsed ns since which the part has been in DOZE. -/
  dozeAt  : Nat := 0
  d3hot   : Bool := false
  /-- Seconds of operating time (R379), and the ns toward the next. -/
  opSec   : Nat := 0
  opNs    : Nat := 0
deriving DecidableEq, Repr, Inhabited

/-- States of the time base (R606). -/
inductive TimeSt where
  | unset | free | locking | locked | holdover
deriving DecidableEq, Repr, Inhabited

/-- The time base (R605 to R613). F is held in eighths of a ppb, e and P in ns and ppb. -/
structure Tim where
  ns       : Nat := 0
  frac     : Nat := 0
  /-- Time that has passed since power was applied: it counts with `ns` and is never stepped. -/
  elapsed  : Nat := 0
  st       : TimeSt := .unset
  freq     : Int := 0
  slew     : Int := 0
  slewEnd  : Nat := 0
  /-- An armed load and the elapsed ns at which it was armed (R609). -/
  armed    : Option (Nat × Nat) := none
  expired  : Bool := false
  range    : Bool := false
  /-- Elapsed ns of the last accepted edge; none before the first. -/
  lastEdge : Option Nat := none
  /-- Elapsed ns from which HOLD_S counts: the last accepted edge, or the last reset after it. -/
  holdBase : Nat := 0
  /-- Elapsed ns from which the 1.5 s of R608 run. -/
  holdFrom : Nat := 0
  expected : Option Nat := none
  /-- Consecutive edges rejected for |e| > 1 µs in LOCKED; accepted edges of |e| ≤ 50 ns in a row. -/
  badRun   : Nat := 0
  goodRun  : Nat := 0
  phase    : Int := 0
  accepted : Nat := 0
  rejected : Nat := 0
  /-- TSYNC_OUT is high until this elapsed ns. -/
  pulseEnd : Nat := 0
  tsync    : Bool := false
deriving DecidableEq, Repr, Inhabited

/-! Settings, spares and wear (chapter 18) -/

/-- A settings image (R623): its header fields that a check reads, and its body. -/
structure Image where
  valid : Bool := false
  gen   : Nat := 0
  part  : Nat := 0
  state : Nat := 0
  body  : List (Nat × Word) := []
  digest : Bytes := []
deriving DecidableEq, Repr, Inhabited

/-- Long NVM operations that a command has started and that are still running. -/
inductive NvmOp where
  | store (place gen state : Nat) (body : List (Nat × Word)) (step : Nat)
  | defaults
  | install (data : Option Bytes) (ok : Bool)
  | ownerKey (debug : Bool) (data : Option Bytes) (ok : Bool)
deriving DecidableEq, Repr, Inhabited

/-- States of the solstice commit (R628). -/
inductive CommitSt where
  | idle | staged | checked | armed
deriving DecidableEq, Repr, Inhabited

/-- The NVM block and the solstice commit (R620 to R645). -/
structure Nvm where
  images  : SMap Image := []
  nextPlace : Nat := 0
  gen     : Nat := 0
  result  : Nat := 0
  noImage : Bool := false
  op      : Option NvmOp := none
  /-- Spare blocks not used yet, and places that went back to the pool when their block had moved and they were erased (R640).
  -/
  spares  : Nat := 256
  freed   : List Nat := []
  /-- The root block left unreferenced by step 4 of R529: its place, and the root records in it, until it is erased (R417,
  R529, R535). -/
  unref   : Option (Nat × SMap Bytes) := none
  /-- Erase counts by place (R637, R640). A place has the number of the block it first held, partition × 65,536 + block;
  spare places are numbered from 0x1000000 on. -/
  erases  : SMap Nat := []
  /-- The block map: place of each block that has left its first place (R640). -/
  blockMap : SMap Nat := []
  /-- The spare records in the vendor reserve: state and logical number by physical engine; none before the first is
  programmed (R42, R638). -/
  spareRecs : Option (List (UnitSt × Nat)) := none
  /-- Samples of each engine, newest first: margin, and temperature as °C + 64 (R288, R298). -/
  aging   : SMap (List (Nat × Nat)) := []
  staging : SMap Word := []
  commit  : CommitSt := .idle
  cres    : Nat := 0
  /-- Instant of an armed commit in station µs, and its STORE flag. -/
  instant : Nat := 0
  storeAfter : Bool := false
  /-- Marked rows of shared arrays, not yet replaced, by the source number of the unit that holds the array (R639). -/
  rows     : SMap Nat := []
  /-- Spare rows mapped since manufacture (R645). -/
  repaired : Nat := 0
  /-- Classes of R30, 0 VCE to 4 STE, whose pool ran out (SHORT). -/
  short    : BitVec 5 := 0
  /-- Aging retirements that wait on an empty pool: engine and operating second of the last POOL_LOW (R641). -/
  waiting  : List (Nat × Nat) := []
deriving DecidableEq, Repr, Inhabited

/-- What the part sends outward: the requests, writes, messages and replies it issues. -/
inductive Out where
  | doorbellRead (slice : Nat) (pasid : Option Nat) (addr : Nat)
  | descRead (slice sq : Nat) (pasid : Option Nat) (addr count : Nat)
  | jobRead (job : Nat) (pasid : Option Nat) (addr len : Nat)
  /-- A read of the steward through HDX, without a PASID: an install's data (R383, R509, R511, R536). -/
  | stewardRead (addr len : Nat)
  | memWrite (pasid : Option Nat) (addr : Nat) (data : Bytes)
  | cqWrite (slice cq : Nat) (pasid : Option Nat) (addr : Nat) (entries : List (List Word))
  | message (vector : Nat) (addr : Nat) (data : Word)
  | readReply (value : Word)
  /-- A request to host memory with translated addresses, one for each page that it touches (R57). -/
  | translated (request : Out) (pages : List Nat)
  /-- A translation request for a page that the cache does not hold (R57). -/
  | translate (pasid : Option Nat) (page : Nat)
  | atsDone
  | smbus (data : Bytes) (pec : Byte)
  | smbusNack
  | smbusRelease
  | jtag (value : Bytes)
  | pulse (time : Nat)
deriving DecidableEq, Repr

/-! Host interface (chapter 02) -/

/-- An MSI-X table entry (R654). -/
structure Msix where
  lo   : Word := 0
  hi   : Word := 0
  data : Word := 0
  mask : Bool := true
deriving DecidableEq, Repr, Inhabited

/-- The PCI Express function: MSI-X, link, AER, Device Control 2, and the cached translations (R52 to R57, R684). -/
structure Hif where
  msix    : SMap Msix := []
  pba     : SMap Bool := []
  linkUp  : Bool := false
  /-- Speed code and lanes of the link (R52). -/
  gen     : Nat := 0
  lanes   : Nat := 0
  /-- AER uncorrectable error status (R52). -/
  aer     : Word := 0
  /-- Completion Timeout Value and Completion Timeout Disable of Device Control 2. -/
  timeout : Nat := 0
  noTimeout : Bool := false
  ats     : Bool := false
  /-- Cached translations, oldest first, at most 4,096: PASID or 2^20 for none, page, translated page (R52, R57). -/
  cache   : List (Nat × Nat × Nat) := []
  /-- Requests that were not issued, since a translation completion denied their access (R59, R685). -/
  denied  : List Out := []
  /-- ECRC generation and checking enabled in the AER capability (R52). -/
  ecrc    : Bool := false
deriving DecidableEq, Repr, Inhabited

/-- The running state of the scheduler (chapter 05). -/
structure Sch where
  jobs     : SMap Job := []
  nextJob  : Nat := 0
  /-- Slice last chosen per class (R203). -/
  chosen   : SMap Nat := []
  /-- The engine port the collector served last (R220). -/
  lastPort : Nat := 70
  /-- Mapped sources seen since the last tick, as SRC codes (R235, R236). -/
  sources  : List Nat := []
  /-- Number of the next accounting window in ms (R212). -/
  window   : Nat := 0
  /-- Station µs of the last tick, and the elapsed ns at which it was. -/
  lastTick : Nat := 0
  tickEl   : Nat := 0
  /-- Elapsed ns from which the next descriptor may be admitted, and the slice of the last one (R194). -/
  admitAt  : Nat := 0
  lastSlice : Nat := 0
deriving DecidableEq, Repr, Inhabited

/-- The key manager (chapter 10). Roots by state code: present means a valid root record. -/
structure Kmg where
  ready    : Bool := false
  rootNew  : Bool := false
  roots    : SMap Bytes := []
  boot     : Nat := 0
  creation : Nat := 0
  epochs   : SMap Nat := []
  slots    : SMap KeySlot := []
  /-- Order of use, for the least recently used slot (R434). -/
  clock    : Nat := 0
  sessions : SMap Session := []
  /-- RESETs and REMOVEs that each block of 4,096 sessions has seen, which every generation in it counts (R189). -/
  sessBase : SMap Nat := []
  /-- Sessions in the on-chip context cache, used last first (R38, R189). -/
  sessCache : List Nat := []
  stf      : SMap StfRecord := []
deriving DecidableEq, Repr, Inhabited

/-! SMBus, JTAG and pins (chapter 20) -/

/-- The JTAG port (R672, R673). -/
structure Jtag where
  ir       : Nat := 1
  boundary : Bytes := []
  sampled  : Bytes := []
  /-- The outputs are driven from the boundary register, or held high-impedance. -/
  driven   : Bool := false
  highZ    : Bool := false
deriving DecidableEq, Repr, Inhabited

/-- The SMBus port (R670, R671). -/
structure Smb where
  /-- LCS byte at the latest start (code 0x03). -/
  lcs   : Nat := 0
  temp  : Nat := 0
  /-- SMB_ADDR straps. -/
  addr  : Nat := 0
deriving DecidableEq, Repr, Inhabited

/-- The level of the input pins that are not kept elsewhere (R656). -/
structure Pins where
  perstN   : Bool := false
  testmode : Bool := false
  rails    : Bool := false
  vbat     : Bool := true
  vaon     : Bool := true
deriving DecidableEq, Repr, Inhabited

end Sys2Proof.Machine
end

