-- ==== Sys2Proof/Machine/State.lean ====
section
/-! DEFINITION. The state of the part as plain data, the reasons a step can stop, and the state after reset. -/

namespace Sys2Proof.Machine

/-- What is fixed at manufacture (R2, R649 to R651): part type, metrology, device serial.
DESIGN CHOICE, log entry 1, unsafe. -/
structure Fuses where
  small  : Bool := false
  im     : Bool := true
  serial : Bytes := zeros 16
deriving DecidableEq, Repr

/-- The whole machine. -/
structure State where
  /-- Values in effect of the writable registers that differ from their reset values, by BAR0 offset. -/
  regs     : SMap Word := []
  /-- Low halves written since reset and not yet taken (R20), by offset of NAME_LO. -/
  loHeld   : SMap Word := []
  /-- Upper halves captured by a read of NAME_LO (R21), by offset of NAME_LO. -/
  loCap    : SMap Word := []
  /-- Writes held for their companion (R22): value and FABCLK time in ns, by offset of NAME. -/
  held     : SMap (Word × Nat) := []
  /-- Command words that have taken effect under R22 and whose command is still to be carried out. -/
  accepted : SMap Word := []
  slices   : SMap Slice := []
  sch      : Sch := {}
  kmg      : Kmg := {}
  engines  : SMap Engine := []
  vces     : SMap Vce := []
  cmc      : Cmc := {}
  rng      : Rng := {}
  code     : Code := {}
  mp       : Mp := {}
  evr      : Evr := {}
  tmp      : Tmp := {}
  aon      : Aon := {}
  lcs      : Lcs := {}
  dbg      : Dbg := {}
  pwr      : Pwr := {}
  tim      : Tim := {}
  nvm      : Nvm := {}
  hif      : Hif := {}
  jtag     : Jtag := {}
  smb      : Smb := {}
  pins     : Pins := {}
  fuses    : Fuses := {}
  /-- Number of the next free value (the model's own). -/
  freeCtr  : Nat := 0
  /-- What the part has sent outward, oldest first (the model's own). -/
  out      : List Out := []
  /-- Commands that wait, first in, first out (the model's own). -/
  pending  : List Instr := []
deriving DecidableEq, Repr

/-- Reasons the machine stops. -/
inductive Fault where
  /-- COLD_START after rails applied out of the order of R660: the manual does not define that start (R661). Safe. -/
  | startUndefined
deriving DecidableEq, Repr

/-- Reasons a command has no meaning here. -/
inductive Refusal where
  /-- Raised by no meaning: an arm of `exec` whose command is not modelled yet. Safe. -/
  | notModelled (mnemonic : String)
deriving DecidableEq, Repr

/-- The state after reset: a TRL3640-IM as it leaves production test, in state TEST (R524), held in reset by PERST_N
with no station time; the first command of a run is COLD_START.
DESIGN CHOICE, log entry 1, unsafe. DESIGN CHOICE, log entry 2, unsafe. DESIGN CHOICE, log entry 6, safe. -/
def State.reset : State :=
  { engines := (List.range 71).map fun e => (e, factoryEngine false e)
    lcs := { words := [0xCCCCCCCC33333333#64] } }

end Sys2Proof.Machine
end

