-- ==== Sys2Proof/Machine/Ops.lean ====
section
/-! DEFINITION. The named operations over the state: one reader and one updater per component, random draws, what is
sent outward, and the numbers of the part types. -/

namespace Sys2Proof.Machine

/-! Components held by index -/

/-- Slice `n`. -/
def State.slice (s : State) (n : Nat) : Slice := mapGet {} s.slices n

/-- Slice `n` changed by `f`. -/
def State.onSlice (s : State) (n : Nat) (f : Slice → Slice) : State := { s with slices := mapUpd {} s.slices n f }

/-- SQ `q` of slice `n`. -/
def State.sq (s : State) (n q : Nat) : Sq := mapGet {} (s.slice n).sqs q

def State.onSq (s : State) (n q : Nat) (f : Sq → Sq) : State :=
  s.onSlice n fun x => { x with sqs := mapUpd {} x.sqs q f }

/-- CQ `q` of slice `n`. -/
def State.cq (s : State) (n q : Nat) : Cq := mapGet {} (s.slice n).cqs q

def State.onCq (s : State) (n q : Nat) (f : Cq → Cq) : State :=
  s.onSlice n fun x => { x with cqs := mapUpd {} x.cqs q f }

/-- The job with admission number `j`, while it is in the job table. -/
def State.job? (s : State) (j : Nat) : Option Job := mapFind s.sch.jobs j

/-- Job `j` changed by `f`; nothing where the table holds no such job. -/
def State.onJob (s : State) (j : Nat) (f : Job → Job) : State :=
  match s.job? j with
  | some x => { s with sch := { s.sch with jobs := mapInsert s.sch.jobs j (f x) } }
  | none => s

/-- Job `j` of the table becomes `x`. -/
def State.putJob (s : State) (j : Nat) (x : Job) : State := s.onJob j fun _ => x

/-- Physical engine `e`. -/
def State.engine (s : State) (e : Nat) : Engine := mapGet {} s.engines e

def State.onEngine (s : State) (e : Nat) (f : Engine → Engine) : State :=
  { s with engines := mapUpd {} s.engines e f }

/-- VCE `e`. -/
def State.vce (s : State) (e : Nat) : Vce := mapGet {} s.vces e

def State.onVce (s : State) (e : Nat) (f : Vce → Vce) : State := { s with vces := mapUpd {} s.vces e f }

/-- Key slot `i`. -/
def State.slot (s : State) (i : Nat) : KeySlot := mapGet {} s.kmg.slots i

def State.onSlot (s : State) (i : Nat) (f : KeySlot → KeySlot) : State :=
  { s with kmg := { s.kmg with slots := mapUpd {} s.kmg.slots i f } }

/-- The body of a key: its shares recombined. -/
def KeySlot.body (k : KeySlot) : Bytes := if k.share1 = [] then k.share0 else xorBytes k.share0 k.share1

/-- The key with body `b`, not yet in a slot. -/
def KeySlot.withBody (k : KeySlot) (b : Bytes) : KeySlot := { k with share0 := b, share1 := [], pads := ([], []) }

/-- Session `i`. -/
def State.session (s : State) (i : Nat) : Session := mapGet {} s.kmg.sessions i

def State.onSession (s : State) (i : Nat) (f : Session → Session) : State :=
  { s with kmg := { s.kmg with sessions := mapUpd {} s.kmg.sessions i f } }

/-- Stateful key record `r` of NVM. -/
def State.record? (s : State) (r : Nat) : Option StfRecord := mapFind s.kmg.stf r

def State.onRecord (s : State) (r : Nat) (f : StfRecord → StfRecord) : State :=
  match s.record? r with
  | some x => { s with kmg := { s.kmg with stf := mapInsert s.kmg.stf r (f x) } }
  | none => s

/-- Monitor `m`. -/
def State.mon (s : State) (m : Nat) : Mon := mapGet {} s.tmp.mons m

def State.onMon (s : State) (m : Nat) (f : Mon → Mon) : State :=
  { s with tmp := { s.tmp with mons := mapUpd {} s.tmp.mons m f } }

/-- MSI-X entry `v`. -/
def State.msix (s : State) (v : Nat) : Msix := mapGet {} s.hif.msix v

/-- The epoch of slice `n` (R418). -/
def State.epoch (s : State) (n : Nat) : Nat := mapGet 0 s.kmg.epochs n

/-! Time -/

/-- Station time in ns. -/
def State.now (s : State) : Nat := s.tim.ns

/-- Station time in µs (R14). -/
def State.us (s : State) : Nat := s.tim.ns / 1000

/-- Elapsed ns, against which ages and limits run (R612). -/
def State.el (s : State) : Nat := s.tim.elapsed

/-- The current moment is that of a tick (R15). -/
def State.onTick (s : State) : Bool := decide (s.el = s.sch.tickEl)

/-! Random draws and the outside -/

/-- `n` free bytes, which the manual does not state, and the state after the draw. DESIGN CHOICE, log entry 8, safe. -/
def State.draw (s : State) (n : Nat) : Bytes × State :=
  ((List.range n).map fun i => Config.randomByte s.freeCtr i, { s with freeCtr := s.freeCtr + 1 })

/-- The part sends `o` outward. DESIGN CHOICE, log entry 55, unsafe. -/
def State.emit (s : State) (o : Out) : State := { s with out := s.out ++ [o] }

/-! Requests to host memory (R56, R57) -/

/-- The PASID under which translations are cached; 2^20 stands for no PASID. -/
def pasidKey (p : Option Nat) : Nat := p.getD (2 ^ 20)

/-- The pages of 4 KiB that a range touches. -/
def pagesOf (addr len : Nat) : List Nat :=
  (List.range ((addr + len - 1) / 4096 + 1 - addr / 4096)).map (addr / 4096 + ·)

/-- The cached translation of a page. -/
def State.translation (s : State) (p page : Nat) : Option Nat :=
  (s.hif.cache.find? fun t => t.1 = p && t.2.1 = page).map (·.2.2)

/-- The translation of a page enters the cache, which holds 4,096 of them; what the host answers is a free value (R52).
DESIGN CHOICE, log entry 85, unsafe. -/
def State.cachePage (s : State) (p page : Nat) : State :=
  let l := if s.hif.cache.length ≥ 4096 then s.hif.cache.drop 1 else s.hif.cache
  { s with freeCtr := s.freeCtr + 1, hif := { s.hif with cache := l ++ [(p, page, Config.freeNat s.freeCtr)] } }

/-- The translations of the pages of a request: on a miss a translation request goes out, whose completion enters the cache or
denies the access; whether every page is translated (R57, R59). DESIGN CHOICE, log entry 85, unsafe. -/
def State.translate (s : State) (pasid : Option Nat) : List Nat → Bool × State
  | [] => (true, s)
  | p :: r =>
    if (s.translation (pasidKey pasid) p).isSome then s.translate pasid r
    else
      let no := Config.atsDenied (pasidKey pasid) p s.freeCtr
      let s := s.emit (.translate pasid p)
      if no then (false, { s with freeCtr := s.freeCtr + 1 }) else (s.cachePage (pasidKey pasid) p).translate pasid r

/-- The part issues a request that touches `len` bytes at `addr`: translated through the cache where ATS is enabled, and not at
all where its translation is denied (R57, R685). DESIGN CHOICE, log entry 85, unsafe. -/
def State.request (s : State) (pasid : Option Nat) (addr len : Nat) (o : Out) : State :=
  if !s.hif.ats then s.emit o
  else
    let l := pagesOf addr len
    match s.translate pasid l with
    | (true, s) => s.emit (.translated o (l.map fun p => (s.translation (pasidKey pasid) p).getD 0))
    | (false, s) => { s with hif := { s.hif with denied := s.hif.denied ++ [o] } }

/-- A range in pieces, none across a boundary of `n` bytes. -/
def pieces (n : Nat) : Nat → Nat → Nat → List (Nat × Nat)
  | 0, _, _ => []
  | fuel + 1, addr, len =>
    let k := n - addr % n
    if len = 0 then [] else if len ≤ k then [(addr, len)] else (addr, k) :: pieces n fuel (addr + k) (len - k)

/-- The read requests for a range: at most 4,096 bytes each (R52). -/
def readPieces (addr len : Nat) : List (Nat × Nat) := pieces 4096 (len / 4096 + 2) addr len

/-- The writes of a range: a payload of at most 512 bytes each (R52). -/
def writePieces (addr len : Nat) : List (Nat × Nat) := pieces 512 (len / 512 + 2) addr len

/-! The part types (R2 to R5, R636) -/

/-- All physical indices (R41). -/
def allEngines : List Nat := List.range 71

/-- Physical indices of a class. -/
def enginesOf (c : Cls) : List Nat := allEngines.filter fun e => clsOf e = c

/-- ENGINE value of R97 of a logical engine. -/
def engineCode (c : Cls) (logical : Nat) : Nat :=
  match c with
  | .vce => logical | .hse => 0x20 + logical | .cde => 0x30 + logical | .cle => 0x34 + logical | .ste => 0x38 + logical

/-- Units of a class that are ACTIVE. -/
def State.activeUnits (s : State) (c : Cls) : Nat :=
  ((enginesOf c).filter fun e => (s.engine e).unit = .active).length

/-- Units of a class that are SPARE. -/
def State.spareUnits (s : State) (c : Cls) : Nat :=
  ((enginesOf c).filter fun e => (s.engine e).unit = .spare).length

/-- General slices (R4, R650). -/
def State.generalSlices (s : State) : Nat := if s.fuses.small then 32 else 64

/-- The metrology partition is in service (R650). -/
def State.mpInService (s : State) : Bool := s.fuses.im && !s.mp.separated

/-- The slice exists on this part (R501). -/
def State.present (s : State) (n : Nat) : Bool :=
  (1 ≤ n && n ≤ s.generalSlices) || (n = 127 && s.mpInService)

/-- Every slice id the part type has. -/
def State.slicesPresent (s : State) : List Nat :=
  ((List.range 128).filter fun n => s.present n)

/-- The slice's state as SLC_STATE shows it (R491, R501). -/
def State.sliceState (s : State) (n : Nat) : SliceSt := if s.present n then (s.slice n).st else .absent

/-- Code of a slice state (R491). -/
def SliceSt.code : SliceSt → Nat
  | .disabled => 0 | .active => 1 | .quiescing => 2 | .quiesced => 3 | .scrubbing => 4 | .absent => 0xF

/-! Blocks of NVM (R40, R640) -/

/-- The number of a block of a partition. -/
def nvmBlock (part block : Nat) : Nat := part * 65536 + block

/-- The place that the block map gives a block; spare places are numbered from 0x1000000 on (R640). -/
def Nvm.place (v : Nvm) (k : Nat) : Nat := mapGet k v.blockMap k

/-- Spare blocks in the pool. -/
def Nvm.pool (v : Nvm) : Nat := v.spares + v.freed.length

/-- The place of the next spare block, and the pool without it. -/
def Nvm.nextSpare (v : Nvm) : Nat := match v.freed with | p :: _ => p | [] => 0x1000000 + v.spares
def Nvm.takeSpare (v : Nvm) : Nvm :=
  match v.freed with
  | _ :: r => { v with freed := r }
  | [] => { v with spares := v.spares - 1 }

/-- Erases of the place of a block. -/
def Nvm.count (v : Nvm) (k : Nat) : Nat := mapGet 0 v.erases (v.place k)

/-- Highest erase count among the blocks of a partition. -/
def State.maxErase (s : State) (part : Nat) : Nat :=
  ((List.range (nvmBlocks s.mpInService part)).map fun b => s.nvm.count (nvmBlock part b)).foldl max 0

/-- The part runs its start's end state: READY of R600. -/
def State.up (s : State) : Bool := s.pwr.ready

/-- The part is powered and clocked: RUN or DOZE. -/
def State.awake (s : State) : Bool := s.pwr.st = .run || s.pwr.st = .doze

/-- The part answers only under R532: LOST or SCRAP. -/
def State.ended (s : State) : Bool := s.lcs.code = 0xF || s.lcs.code = 0xC

/-- ENGCLK cycles in a time (R601: 1.25 GHz). -/
def engCycles (ns : Nat) : Nat := ns * 5 / 4

/-- KEY starts no new commit: PFAIL_N is low (R453), or a transition is accepted (R529). -/
def State.commitsHeld (s : State) : Bool := s.pwr.pfail || s.lcs.trans.isSome

/-- Commits held back start, in order of request, when nothing holds them any more (R453). -/
def State.releaseCommits (s : State) : State :=
  if s.commitsHeld then s
  else { s with kmg := { s.kmg with stf := s.kmg.stf.map fun (e : Nat × StfRecord) => (e.1, { e.2 with heldBack := false }) } }

end Sys2Proof.Machine
end

