-- ==== Sys2Proof/Machine/Drbg.lean ====
section
/-! DEFINITION. Conditioned blocks and the CTR_DRBG instances (R464 to R469, R473, R478, R486): their seeding, and the requests
they serve. An instance is numbered as in R467 for the internal ones, 256 + n for slice n. -/

namespace Sys2Proof.Machine

/-- Instance `i`. -/
def State.drbg (s : State) (i : Nat) : Drbg :=
  match i with
  | 0 => s.rng.d0 | 1 => s.rng.root | 2 => s.rng.mask | 3 => s.rng.blind | 4 => s.rng.share | 5 => s.rng.stw
  | _ => (s.slice (i - 256)).drbg

/-- Instance `i` becomes `d`. -/
def State.setDrbg (s : State) (i : Nat) (d : Drbg) : State :=
  match i with
  | 0 => { s with rng := { s.rng with d0 := d } }
  | 1 => { s with rng := { s.rng with root := d } }
  | 2 => { s with rng := { s.rng with mask := d } }
  | 3 => { s with rng := { s.rng with blind := d } }
  | 4 => { s with rng := { s.rng with share := d } }
  | 5 => { s with rng := { s.rng with stw := d } }
  | _ => s.onSlice (i - 256) fun x => { x with drbg := d }

/-! Conditioned blocks (R463 to R465) -/

/-- The conditioner's next block: SHA3-384 of two passed windows packed as 256 bytes (R464). The samples are free values.
DESIGN CHOICE, log entry 8, safe. -/
def State.newBlock (s : State) : Bytes × State :=
  (fit 48 (Config.sha3 3 ((List.range 256).map (Config.noiseByte s.freeCtr))), { s with freeCtr := s.freeCtr + 1 })

/-- The oldest block of the pool, which is used once, and the pool without it (R465). -/
def State.takePool (s : State) : Option (Bytes × State) :=
  match s.rng.pool with
  | b :: r => some (b, { s with rng := { s.rng with pool := r } })
  | [] => none

/-! Seeding (R466 to R468) -/

/-- The personalisation string of an instantiation of instance `i` (R467). -/
def State.personOf (s : State) (i : Nat) : Bytes :=
  ascii "TRL-DRBG" ++ leBytes 1 (if i < 256 then i else i - 256) ++ leBytes 4 (if i < 256 then 0 else s.epoch (i - 256))
    ++ leBytes 8 s.kmg.boot ++ fit 16 s.fuses.serial

/-- An instance after its instantiation from 48 bytes: entropy input bytes 0 to 31, nonce bytes 32 to 47 (R467). -/
def Drbg.instantiated (seed person : Bytes) (el : Nat) : Drbg :=
  { live := true, reseeded := el, person := person
    val := (List.range 48).map (Config.drbgInit (seed.take 32) (cut seed 32 16) person) }

/-- An instance after a reseed, whose entropy input is all 48 bytes (R467). -/
def Drbg.reseededWith (d : Drbg) (seed : Bytes) (el : Nat) : Drbg :=
  { live := true, reseeded := el, person := d.person, val := (List.range 48).map (Config.drbgReseed d.val seed) }

/-- Instance `i` is instantiated, or reseeded, now, from a block or from 48 bytes of D0 output (R467, R468). -/
def State.seed (s : State) (i : Nat) (b : Bytes) : State :=
  s.setDrbg i (if (s.drbg i).live then (s.drbg i).reseededWith b s.el else Drbg.instantiated b (s.personOf i) s.el)

/-- Age and count of an instance have reached a limit (R468). DESIGN CHOICE, log entry 61, unsafe. -/
def Drbg.reached (d : Drbg) (el ms count : Nat) : Bool := d.live && (el ≥ d.reseeded + ms * 1000000 || d.requests ≥ count)

/-- The reseed of the instance is due. -/
def State.reseedIsDue (s : State) (i : Nat) : Bool := (s.drbg i).due || (s.drbg i).reached s.el 1000 1048576

/-- The background reseed of the instance is wanted. -/
def State.reseedWanted (s : State) (i : Nat) : Bool := s.reseedIsDue i || (s.drbg i).reached s.el 750 786432

/-- D0 or ROOT takes a block from the pool (R465, R466). -/
def State.poolSeed (s : State) (i : Nat) : State :=
  match s.takePool with
  | some (b, s) => s.seed i b
  | none => s

/-- One request of `n` bytes to instance `i`: its output, counted (R466, R468). -/
def State.request1 (s : State) (i n : Nat) : Bytes × State :=
  let d := s.drbg i
  ((List.range n).map (Config.drbgByte d.val n),
    s.setDrbg i { d with requests := d.requests + 1, val := (List.range 48).map (Config.drbgNext d.val n) })

/-- D0 can seed another instance, after a reseed of its own where that is due (R474, R478). -/
def State.d0Serves (s : State) : Bool := s.rng.d0.live && (!s.reseedIsDue 0 || !s.rng.pool.isEmpty)

/-- Instance `i` is seeded from 48 bytes of D0 output; a reseed of D0 that is due, or that could not be done before, comes
first (R466 to R468). -/
def State.fromD0 (s : State) (i : Nat) : State :=
  if i ≤ 1 ∨ !s.d0Serves then s
  else
    let s := if s.reseedWanted 0 then s.poolSeed 0 else s
    let (b, s) := s.request1 0 48
    s.seed i b

/-- Reseeds instance `i`, where it can be done: D0 and ROOT from the pool, the others from D0 (R465, R466, R468).
DESIGN CHOICE, log entry 61, unsafe. -/
def State.reseed (s : State) (i : Nat) : State := if i ≤ 1 then s.poolSeed i else s.fromD0 i

/-! Requests (R466, R468, R473, R486) -/

/-- Instance `i` can serve a request now, an instance that is not instantiated or due being seeded from D0 first
(R468, R473, R486). -/
def State.canServe (s : State) (i : Nat) : Bool :=
  s.rng.ready && (((s.drbg i).live && !s.reseedIsDue i) || (i ≠ 0 && i ≠ 1 && s.d0Serves))

/-- Instance `i` before it serves: one that is missing or due is seeded from D0 first, and one whose background reseed could not
be done tries it again (R468). -/
def State.serve (s : State) (i : Nat) : State := if !(s.drbg i).live || s.reseedWanted i then s.fromD0 i else s

/-- The requests in which `n` bytes are drawn, of at most 2^19 bits each (R466). -/
def requestSizes (n : Nat) : List Nat :=
  List.replicate (n / 65536) 65536 ++ (if n % 65536 = 0 then [] else [n % 65536])

/-- `n` bytes of output of instance `i`, and the state after the requests (R116, R158, R191, R466). -/
def State.generate (s : State) (i n : Nat) : Bytes × State :=
  (requestSizes n).foldl (fun (a : Bytes × State) k =>
    let (b, s) := (a.2.serve i).request1 i k
    (a.1 ++ b, s)) ([], s)

/-- The DRBG output of instance `i` in two shares of a byte string: the string under a mask that the instance gives. -/
def State.maskedBy (s : State) (i : Nat) (b : Bytes) : (Bytes × Bytes) × State :=
  let (r, s) := s.generate i b.length
  ((xorBytes b r, r), s)

/-- The instance of slice `n` is reseeded from a fresh block, after its instantiation from D0 where it has none (R469, R486). -/
def State.freshSlice (s : State) (n : Nat) (b : Bytes) : State :=
  (if (s.drbg (256 + n)).live then s else s.fromD0 (256 + n)).seed (256 + n) b

/-- On waking from SLEEP every instance that has fallen due is reseeded, D0 first (R478). -/
def State.reseedAll (s : State) : State :=
  ([0, 1, 2, 3, 4, 5] ++ s.slicesPresent.map (256 + ·)).foldl (fun (s : State) i =>
    if (s.drbg i).live && s.reseedIsDue i then s.reseed i else s) s

end Sys2Proof.Machine
end

