-- ==== Sys2Proof/Machine/Regs.lean ====
section
/-! DEFINITION. The writable registers: their names, BAR0 offsets, reset or default values, written bits and reserved
encodings (chapter 19 and the chapters it names). -/

namespace Sys2Proof.Machine

/-- A writable register. `hi` selects NAME_HI of a pair (R20); `inv` is the companion of an RWS register (R22). -/
inductive Reg where
  | sysReset | sysCommit | commitAt (hi : Bool)
  | pwrCtrl | pwrCapW
  | timStatus | timCtrl | timNext (hi : Bool) | timTrim | timTsync
  | nvmCmd | pkgAddr (hi : Bool) | pkgLen | pkgCmd
  | lcsTransition | ownerAddr (hi : Bool) | ownerCmd
  | dbgCmd | dbgAct | winSel | mbox (i : Nat)
  | tmpClear | tmpTest | monCfg (m : Nat)
  | rngWaitLimit
  | keyQuota (n : Nat)
  | schProfile | schPoll | schIdlePoll | share (n : Nat) | depth (n : Nat) | classcap (n : Nat) | evmap (n m : Nat)
  | evrFlood | rdSeq (hi : Bool) | clrUpto (hi : Bool) | evrCmd | snapCtrl (i : Nat) | snapMatch (i : Nat)
  | snapReg (i j : Nat)
  | mpAddr (hi : Bool) | mpLen | mpCmd
  | hifCoal
  | dbBase (n : Nat) (hi : Bool) | dbStatus (n : Nat)
  | sqBase (n q : Nat) (hi : Bool) | sqCfg (n q : Nat) | sqStatus (n q : Nat)
  | cqBase (n q : Nat) (hi : Bool) | cqCfg (n q : Nat) | cqMod (n q : Nat) | cqStatus (n q : Nat)
  | slcCtrl (n : Nat) | slcStatus (n : Nat) | pasid (n : Nat) | vec (n : Nat) | winBase (n : Nat) | winSize (n : Nat)
  | sess (n : Nat) | perm (n : Nat) | limit (n : Nat) | mvec (n : Nat)
  | inv (name : Nat)
deriving DecidableEq, Repr

/-- Start of the set-up page of slice `n` (R72). -/
def page (n : Nat) : Nat := 0x1000000 + n * 0x10000

/-- Start of queue block `q` of slice `n` (R72). -/
def qblock (n q : Nat) : Nat := page n + 0x1000 + 0x40 * q

/-- 4 for the high half of a pair. -/
def half (hi : Bool) : Nat := if hi then 4 else 0

/-- BAR0 offset (chapter 19). -/
def Reg.addr : Reg → Nat
  | .sysReset => 0x10 | .sysCommit => 0x100 | .commitAt h => 0x108 + half h
  | .pwrCtrl => 0x10004 | .pwrCapW => 0x1000C
  | .timStatus => 0x20000 | .timCtrl => 0x20004 | .timNext h => 0x20010 + half h | .timTrim => 0x20018
  | .timTsync => 0x20024
  | .nvmCmd => 0x30000 | .pkgAddr h => 0x30200 + half h | .pkgLen => 0x30208 | .pkgCmd => 0x3020C
  | .lcsTransition => 0x40004 | .ownerAddr h => 0x40010 + half h | .ownerCmd => 0x40018
  | .dbgCmd => 0x50010 | .dbgAct => 0x50018 | .winSel => 0x51000 | .mbox i => 0x52000 + 4 * i
  | .tmpClear => 0x60010 | .tmpTest => 0x60020 | .monCfg m => 0x60100 + 8 * m
  | .rngWaitLimit => 0x70010
  | .keyQuota n => 0x80400 + 4 * n
  | .schProfile => 0x90010 | .schPoll => 0x90100 | .schIdlePoll => 0x90104
  | .share n => 0x91000 + 0x20 * n | .depth n => 0x91004 + 0x20 * n | .classcap n => 0x91008 + 0x20 * n
  | .evmap n m => 0x91010 + 0x20 * n + 4 * m
  | .evrFlood => 0xA0020 | .rdSeq h => 0xA0030 + half h | .clrUpto h => 0xA0080 + half h | .evrCmd => 0xA0088
  | .snapCtrl i => 0xA0100 + 0x40 * i | .snapMatch i => 0xA0104 + 0x40 * i
  | .snapReg i j => 0xA0108 + 0x40 * i + 4 * j
  | .mpAddr h => 0xB0040 + half h | .mpLen => 0xB0048 | .mpCmd => 0xB004C
  | .hifCoal => 0xC0100
  | .dbBase n h => page n + 0x80 + half h | .dbStatus n => page n + 0x88
  | .sqBase n q h => qblock n q + half h | .sqCfg n q => qblock n q + 8 | .sqStatus n q => qblock n q + 0xC
  | .cqBase n q h => qblock n q + 0x10 + half h | .cqCfg n q => qblock n q + 0x18 | .cqMod n q => qblock n q + 0x1C
  | .cqStatus n q => qblock n q + 0x20
  | .slcCtrl n => page n + 0xF000 | .slcStatus n => page n + 0xF00C | .pasid n => page n + 0xF010
  | .vec n => page n + 0xF014 | .winBase n => page n + 0xF018 | .winSize n => page n + 0xF01C
  | .sess n => page n + 0xF020 | .perm n => page n + 0xF024 | .limit n => page n + 0xF028 | .mvec n => page n + 0xF02C
  | .inv a => a + 4

/-- The default configuration of monitor `m` (R546, R567). -/
def monDefault (m : Nat) : Word :=
  let mk (en resp window count : Nat) : Word :=
    w32 (en * 2 ^ 31 + resp * 2 ^ 28 + window * 2 ^ 16 + count * 2 ^ 8)
  if m ≤ 1 then mk 0 4 16 8
  else if m ≤ 5 then mk 0 3 32 16
  else if m ≤ 7 then mk 1 1 8 4
  else if m = 8 then mk 1 4 4 2
  else if m = 9 then mk 1 1 4 2
  else if m ≤ 11 then mk 1 3 16 4
  else if m = 12 then mk 1 1 16 4
  else if m = 13 then mk 1 2 1 2
  else if m = 14 then mk 1 3 4 2
  else if m = 15 then mk 1 1 250 4
  else if m = 16 then mk 1 4 16 8
  else mk 1 1 1 1

/-- Responses a monitor allows (R546). -/
def monAllows (m resp : Nat) : Bool :=
  if m ≤ 5 ∨ m = 7 ∨ m = 8 then [1, 3, 4, 5].contains resp
  else if m = 6 then [1, 3].contains resp
  else if m = 9 ∨ m = 18 ∨ m = 19 then [1, 3, 5].contains resp
  else if m = 13 ∨ m = 15 then [1, 2, 3, 4].contains resp
  else if m = 16 then [3, 4, 5].contains resp
  else if m = 17 then resp = 1
  else [1, 3, 4].contains resp

/-- Value after a reset; for a setting its default (R26). -/
def Reg.reset : Reg → Word
  | .pwrCtrl => w32 (100 * 2 ^ 14 + 20)
  | .pwrCapW => 60
  | .timCtrl => 100
  | .timTsync => w32 (100 * 2 ^ 21)
  | .rngWaitLimit => 10
  | .keyQuota _ => w32 (768 * 2 ^ 16 + 256)
  | .schProfile => 0x120
  | .schPoll => 2000
  | .schIdlePoll => 50
  | .share _ => 1
  | .depth _ => 4096
  | .evrFlood => 0x0810
  | .hifCoal => 500
  | .limit _ => 10
  | .monCfg m => monDefault m
  | _ => 0

/-- The bits a write reaches: all but the reserved and the read-only ones (R19). -/
def Reg.mask : Reg → Word
  | .pwrCapW => 0x3F
  | .timCtrl => 0xE00000FF
  | .rngWaitLimit => 0x3FF
  | .keyQuota _ => 0xFFFF7FFF
  | .schProfile => 0x733
  | .schPoll => 0xFFFFF
  | .schIdlePoll => 0x3FFF
  | .share _ => 0xC000FFFF
  | .depth _ => 0x7FFFF
  | .classcap _ => 0x1F771F3F
  | .evmap _ _ => 0xF0FFFF3F
  | .evrFlood => 0xFFFF
  | .snapCtrl _ => 0x8000000F
  | .snapReg _ _ => 0x03FFFFFC
  | .hifCoal => 0x7FF
  | .dbBase _ hi => if hi then 0xFFFFFFFF else 0xFFFFF000
  | .sqBase _ _ hi => if hi then 0xFFFFFFFF else 0xFFFFF000
  | .cqBase _ _ hi => if hi then 0xFFFFFFFF else 0xFFFFF000
  | .sqCfg _ _ => 0xF00F001F
  | .cqCfg _ _ => 0xC7FF001F
  | .cqMod _ _ => 0x00FF03FF
  | .slcCtrl _ => 0xF0000000
  | .pasid _ => 0x800FFFFF
  | .vec _ => 0x0FFF07FF
  | .winBase _ => 0x1FFFF
  | .winSize _ => 0x1FFFF
  | .sess _ => 0x1FFFF
  | .perm _ => 0x80000003
  | .limit _ => 0x3FF
  | .mvec _ => 0x800007FF
  | .sysCommit => 0xF0000001
  | .nvmCmd => 0xF0000000
  | .lcsTransition => 0xFF
  | .ownerCmd => 0xF0000000
  | .dbgCmd => 0xF0003FFF
  | .dbgAct => 0xF000FFFF
  | .winSel => 0xF0FFFFFF
  | .tmpClear => 0xFFFFF
  | .tmpTest => 0x8000001F
  | .monCfg m => if 2 ≤ m ∧ m ≤ 5 then 0xF8FFFF00 else if 17 ≤ m then 0xF0000000 else 0xF0FFFF00
  | .pkgLen => 0x1FFFFF
  | .pkgCmd => 0xF000000F
  | .mpLen => 0xFFF
  | .mpCmd => 0xF0000000
  | _ => 0xFFFFFFFF

/-- The value in effect of a register. -/
def State.reg (s : State) (r : Reg) : Word := mapGet r.reset s.regs r.addr

/-- The register takes the value `v`. -/
def State.setReg (s : State) (r : Reg) (v : Word) : State := { s with regs := mapSet r.reset s.regs r.addr v }

/-- The 64-bit value in effect of a pair, from its two registers. -/
def State.pair (s : State) (f : Bool → Reg) : Nat := (s.reg (f false)).toNat + 2 ^ 32 * (s.reg (f true)).toNat

/-- The steward reads `len` bytes at a host address through HDX, without a PASID (R509, R511, R536). -/
def State.stewardRead (s : State) (addr len : Nat) : State := s.request none addr len (.stewardRead addr len)

/-- A pair takes a 64-bit value (R20). -/
def State.setPair (s : State) (f : Bool → Reg) (v : Nat) : State :=
  (s.setReg (f false) (loHalf v)).setReg (f true) (hiHalf v)

/-- A 21-bit or 32-bit two's complement field as an integer. -/
def signed (bits v : Nat) : Int := if v < 2 ^ (bits - 1) then v else (v : Int) - 2 ^ bits

/-- TIM_TRIM in ppb (R618). -/
def State.trim (s : State) : Int := signed 32 (s.reg .timTrim).toNat

/-- The value is outside `lo` to `hi`. -/
def outside (lo hi v : Nat) : Bool := v < lo || hi < v

/-- Vectors granted to slice `n`: first and count (R490). -/
def State.vectors (s : State) (n : Nat) : Nat × Nat := (fld (s.reg (.vec n)) 10 0, fld (s.reg (.vec n)) 27 16)

/-- A vector lies in the range granted to slice `n` (R76). -/
def State.vectorGranted (s : State) (n v : Nat) : Bool :=
  let (b, c) := s.vectors n
  b ≤ v && v < b + c

/-- A write of `v` would put a reserved encoding into the register (R27 and the register's own rule). -/
def State.reservedFor (s : State) (r : Reg) (v : Word) : Bool :=
  match r with
  | .pwrCtrl => outside 1 10000 (fld v 29 14) || outside 1 10000 (fld v 13 0)
  | .pwrCapW => outside 10 60 (fld v 5 0)
  | .timCtrl => outside 1 250 (fld v 7 0)
  | .timTrim => decide ((signed 32 v.toNat).natAbs > 250000)
  | .timTsync => outside 1 500 (fld v 29 21) || decide ((signed 21 (fld v 20 0)).natAbs > 1000000)
  | .rngWaitLimit => outside 1 1000 (fld v 9 0)
  | .keyQuota _ => fld v 31 16 > 49152 || fld v 14 0 > 16384
  | .schProfile => fld v 1 0 = 3 || outside 1 4 (fld v 10 8) || fld v 5 4 = 0
  | .schPoll => outside 200 1000000 (fld v 19 0)
  | .schIdlePoll => outside 10 10000 (fld v 13 0)
  | .share _ => fld v 15 0 = 0
  | .depth _ => outside 1 262144 (fld v 18 0)
  | .classcap _ =>
    fld v 5 0 > nominal s.fuses.small .vce || fld v 12 8 > nominal s.fuses.small .hse
      || fld v 18 16 > nominal s.fuses.small .cde || fld v 22 20 > nominal s.fuses.small .cle
      || fld v 28 24 > nominal s.fuses.small .ste
  | .evmap _ _ => bitAt v 31 && (outside 1 4 (fld v 30 28) || (fld v 30 28 = 2 && fld v 23 8 = 0))
  | .evrFlood => !s.fuses.small && (fld v 15 8 = 0 || fld v 7 0 = 0)
  | .snapCtrl _ => outside 1 8 (fld v 3 0) && (bitAt v 31 || fld v 3 0 ≠ 0)
  | .hifCoal => fld v 10 0 > 2000
  | .sqCfg _ _ => fld v 29 28 > 1 || fld v 4 0 > 16 || (bitAt v 31 && fld v 4 0 = 0)
  | .cqCfg n _ => fld v 4 0 > 16 || (bitAt v 31 && (fld v 4 0 = 0 || !s.vectorGranted n (fld v 26 16)))
  | .cqMod _ _ => fld v 23 16 ≥ 2 && fld v 9 0 = 0
  | .vec _ => fld v 27 16 > 2048
  | .sess _ => fld v 16 8 > 256
  | .limit _ => outside 1 1000 (fld v 9 0)
  | .sysCommit => outside 1 4 (fld v 31 28)
  | .nvmCmd => outside 1 2 (fld v 31 28)
  | .ownerCmd => outside 1 2 (fld v 31 28)
  | .dbgCmd => outside 1 3 (fld v 31 28) || (fld v 31 28 = 2 && outside 1 8192 (fld v 13 0))
  | .dbgAct => outside 1 7 (fld v 31 28) || (fld v 31 28 = 7 && fld v 15 12 = 0xF)
  | .winSel => outside 1 5 (fld v 31 28)
  | .monCfg m =>
    !monAllows m (fld v 30 28) || (16 ≤ m && !bitAt v 31)
      || (m < 17 && (fld v 15 8 = 0 || fld v 15 8 > fld v 23 16))
  | .evrCmd => outside 1 2 (fld v 31 28)
  | .pkgLen => outside 1 1048576 (fld v 20 0)
  | .pkgCmd =>
    !((fld v 31 28 = 1 && fld v 3 0 = 0) || (fld v 31 28 = 2 && fld v 3 0 = 5))
  | .mpCmd => outside 1 3 (fld v 31 28)
  | _ => false

/-- The registers whose new value waits for a solstice commit (R621). -/
def Reg.isRwc : Reg → Bool
  | .schProfile | .pwrCapW | .share _ | .depth _ | .classcap _ => true
  | _ => false

/-- The shadowed registers (R560). -/
def Reg.isRws : Reg → Bool
  | .slcCtrl _ | .pkgCmd | .nvmCmd | .sysCommit | .lcsTransition | .ownerCmd | .dbgCmd | .dbgAct | .mpCmd
  | .tmpClear | .tmpTest | .monCfg _ => true
  | _ => false

/-- The settings: writable registers whose reset value comes from NVM (R620), those of slice `n` apart. -/
def partSettings : List Reg :=
  [.pwrCtrl, .pwrCapW, .timCtrl, .timTrim, .timTsync, .rngWaitLimit, .schProfile, .schPoll, .schIdlePoll, .evrFlood,
    .hifCoal]
  ++ (List.range 20).map .monCfg
  ++ (List.range 16).flatMap fun i => [.snapCtrl i, .snapMatch i] ++ (List.range 8).map (.snapReg i)

/-- The settings of slice `n`. -/
def sliceSettings (n : Nat) : List Reg :=
  [.keyQuota n, .share n, .depth n, .classcap n, .pasid n, .vec n, .winBase n, .winSize n, .sess n, .perm n, .limit n,
    .mvec n]

/-- The registers of a queue and of the doorbell page of slice `n` that hold set-up values (R72). -/
def queueRegs (n : Nat) : List Reg :=
  [.dbBase n false, .dbBase n true] ++ (List.range 16).flatMap fun q =>
    [.sqBase n q false, .sqBase n q true, .sqCfg n q, .cqBase n q false, .cqBase n q true, .cqCfg n q, .cqMod n q]

/-- The writable register of a slice's set-up page at offset `o` within it (R487). -/
def pageReg (n o : Nat) : Option Reg :=
  if o < 0x1000 then
    if o = 0x80 then some (.dbBase n false) else if o = 0x84 then some (.dbBase n true)
    else if o = 0x88 then some (.dbStatus n) else none
  else if o < 0x1400 then
    let q := (o - 0x1000) / 0x40
    match (o - 0x1000) % 0x40 with
    | 0x00 => some (.sqBase n q false) | 0x04 => some (.sqBase n q true)
    | 0x08 => some (.sqCfg n q) | 0x0C => some (.sqStatus n q)
    | 0x10 => some (.cqBase n q false) | 0x14 => some (.cqBase n q true)
    | 0x18 => some (.cqCfg n q) | 0x1C => some (.cqMod n q) | 0x20 => some (.cqStatus n q)
    | _ => none
  else
    match o with
    | 0xF000 => some (.slcCtrl n) | 0xF004 => some (.inv (page n + 0xF000)) | 0xF00C => some (.slcStatus n)
    | 0xF010 => some (.pasid n) | 0xF014 => some (.vec n) | 0xF018 => some (.winBase n) | 0xF01C => some (.winSize n)
    | 0xF020 => some (.sess n) | 0xF024 => some (.perm n) | 0xF028 => some (.limit n) | 0xF02C => some (.mvec n)
    | _ => none

/-- The writable register of a service block: block number [19:16] and offset in the block. -/
def blockReg (b o : Nat) : Option Reg :=
  match b, o with
  | 0x0, 0x10 => some .sysReset | 0x0, 0x100 => some .sysCommit | 0x0, 0x104 => some (.inv 0x100)
  | 0x0, 0x108 => some (.commitAt false) | 0x0, 0x10C => some (.commitAt true)
  | 0x1, 0x4 => some .pwrCtrl | 0x1, 0xC => some .pwrCapW
  | 0x2, 0x0 => some .timStatus | 0x2, 0x4 => some .timCtrl | 0x2, 0x10 => some (.timNext false)
  | 0x2, 0x14 => some (.timNext true) | 0x2, 0x18 => some .timTrim | 0x2, 0x24 => some .timTsync
  | 0x3, 0x0 => some .nvmCmd | 0x3, 0x4 => some (.inv 0x30000) | 0x3, 0x200 => some (.pkgAddr false)
  | 0x3, 0x204 => some (.pkgAddr true) | 0x3, 0x208 => some .pkgLen | 0x3, 0x20C => some .pkgCmd
  | 0x3, 0x210 => some (.inv 0x3020C)
  | 0x4, 0x4 => some .lcsTransition | 0x4, 0x8 => some (.inv 0x40004) | 0x4, 0x10 => some (.ownerAddr false)
  | 0x4, 0x14 => some (.ownerAddr true) | 0x4, 0x18 => some .ownerCmd | 0x4, 0x1C => some (.inv 0x40018)
  | 0x5, 0x10 => some .dbgCmd | 0x5, 0x14 => some (.inv 0x50010) | 0x5, 0x18 => some .dbgAct
  | 0x5, 0x1C => some (.inv 0x50018) | 0x5, 0x1000 => some .winSel
  | 0x6, 0x10 => some .tmpClear | 0x6, 0x14 => some (.inv 0x60010) | 0x6, 0x20 => some .tmpTest
  | 0x6, 0x24 => some (.inv 0x60020)
  | 0x7, 0x10 => some .rngWaitLimit
  | 0x9, 0x10 => some .schProfile | 0x9, 0x100 => some .schPoll | 0x9, 0x104 => some .schIdlePoll
  | 0xA, 0x20 => some .evrFlood | 0xA, 0x30 => some (.rdSeq false) | 0xA, 0x34 => some (.rdSeq true)
  | 0xA, 0x80 => some (.clrUpto false) | 0xA, 0x84 => some (.clrUpto true) | 0xA, 0x88 => some .evrCmd
  | 0xB, 0x40 => some (.mpAddr false) | 0xB, 0x44 => some (.mpAddr true) | 0xB, 0x48 => some .mpLen
  | 0xB, 0x4C => some .mpCmd | 0xB, 0x50 => some (.inv 0xB004C)
  | 0xC, 0x100 => some .hifCoal
  | _, _ =>
    if b = 5 ∧ 0x2000 ≤ o ∧ o < 0x4000 then some (.mbox ((o - 0x2000) / 4))
    else if b = 6 ∧ 0x100 ≤ o ∧ o < 0x1A0 then
      if o % 8 = 0 then some (.monCfg ((o - 0x100) / 8)) else some (.inv (0x60000 + o - 4))
    else if b = 8 ∧ 0x400 ≤ o ∧ o < 0x600 then some (.keyQuota ((o - 0x400) / 4))
    else if b = 9 ∧ 0x1000 ≤ o ∧ o < 0x2000 then
      let n := (o - 0x1000) / 0x20
      match (o - 0x1000) % 0x20 with
      | 0x00 => some (.share n) | 0x04 => some (.depth n) | 0x08 => some (.classcap n)
      | 0x10 => some (.evmap n 0) | 0x14 => some (.evmap n 1) | 0x18 => some (.evmap n 2) | 0x1C => some (.evmap n 3)
      | _ => none
    else if b = 0xA ∧ 0x100 ≤ o ∧ o < 0x500 then
      let i := (o - 0x100) / 0x40
      let r := (o - 0x100) % 0x40
      if r = 0 then some (.snapCtrl i) else if r = 4 then some (.snapMatch i)
      else if r < 0x28 then some (.snapReg i ((r - 8) / 4)) else none
    else none

/-- The writable register at a BAR0 offset. -/
def regAt (off : Nat) : Option Reg :=
  if 0x1000000 ≤ off then pageReg ((off - 0x1000000) / 0x10000) (off % 0x10000)
  else if off < 0x100000 then blockReg (off / 0x10000) (off % 0x10000)
  else none

/-- The slice whose presence a register depends on (R501). -/
def Reg.sliceOf : Reg → Option Nat
  | .keyQuota n | .share n | .depth n | .classcap n | .evmap n _ | .dbBase n _ | .dbStatus n | .sqBase n _ _
  | .sqCfg n _ | .sqStatus n _ | .cqBase n _ _ | .cqCfg n _ | .cqMod n _ | .cqStatus n _ | .slcCtrl n | .slcStatus n
  | .pasid n | .vec n | .winBase n | .winSize n | .sess n | .perm n | .limit n | .mvec n => some n
  | .inv a => if 0x1000000 ≤ a then some ((a - 0x1000000) / 0x10000) else none
  | _ => none

/-! Fields that many meanings read -/

/-- PASID of the slice's requests, in effect since its last ACTIVATE or RESUME (R56, R496). -/
def State.pasidOf (s : State) (n : Nat) : Option Nat := (s.slice n).pasid

/-- PASID that the manager page of the slice names (R490). -/
def State.namedPasid (s : State) (n : Nat) : Option Nat :=
  if bitAt (s.reg (.pasid n)) 31 then some (fld (s.reg (.pasid n)) 19 0) else none

def State.sqEn (s : State) (n q : Nat) : Bool := bitAt (s.reg (.sqCfg n q)) 31
def State.cqEn (s : State) (n q : Nat) : Bool := bitAt (s.reg (.cqCfg n q)) 31
/-- Entries of an SQ and of a CQ (R73). -/
def State.sqSize (s : State) (n q : Nat) : Nat := 2 ^ fld (s.reg (.sqCfg n q)) 4 0
def State.cqSize (s : State) (n q : Nat) : Nat := 2 ^ fld (s.reg (.cqCfg n q)) 4 0
/-- The CQ of an SQ (R74). -/
def State.cqOf (s : State) (n q : Nat) : Nat := fld (s.reg (.sqCfg n q)) 19 16
/-- The SQ counts as protection class (R74). -/
def State.sqProt (s : State) (n q : Nat) : Bool := bitAt (s.reg (.perm n)) 0 && bitAt (s.reg (.sqCfg n q)) 30

/-- 0 THROUGHPUT, 1 LATENCY, 2 FRUGAL (R242). -/
def State.profile (s : State) : Nat := fld (s.reg .schProfile) 1 0

end Sys2Proof.Machine
end

