-- ==== Sys2Proof/Machine/VecOps.lean ====
section
/-! DEFINITION. Shared operations of the vector crypto engine: lanes and elements (R252, R253), operands and
share sets (R254 to R262, R303 to R305), activity (R256 to R258), marks (R330), the mask stream (R265) and the
local Keccak core (R270, R323). -/

namespace Sys2Proof.Machine

/-! Registers of one engine -/

/-- Vector register n. -/
def Vce.reg (e : Vce) (n : Nat) : Row := mapGet 0 e.v n
/-- Writes vector register n. -/
def Vce.setReg (e : Vce) (n : Nat) (r : Row) : Vce := { e with v := mapSet 0 e.v n r }

/-- Mask register n; M0 reads as all ones (R249). -/
def Vce.mask (e : Vce) (n : Nat) : BitVec 128 := if n = 0 then BitVec.allOnes 128 else mapGet 0 e.m n
/-- The INTERNAL mark of mask register n (R330). -/
def Vce.mMarked (e : Vce) (n : Nat) : Bool := n ≠ 0 && mapGet false e.mmark n
/-- Writes mask register n with its INTERNAL mark; M0 ignores writes. -/
def Vce.setMask (e : Vce) (n : Nat) (b : BitVec 128) (mark : Bool := false) : Vce :=
  if n = 0 then e else { e with m := mapSet 0 e.m n b, mmark := mapSet false e.mmark n mark }

/-- Scalar register n; S0 reads 0 (R249). -/
def Vce.scal (e : Vce) (n : Nat) : Lane := if n = 0 then 0 else mapGet 0 e.s n
/-- Writes scalar register n with its INTERNAL mark; S0 ignores writes. -/
def Vce.setScal (e : Vce) (n : Nat) (x : Lane) (mark : Bool := false) : Vce :=
  if n = 0 then e else { e with s := mapSet 0 e.s n x, smark := mapSet false e.smark n mark }
/-- The INTERNAL mark of scalar n. -/
def Vce.sMarked (e : Vce) (n : Nat) : Bool := mapGet false e.smark n

/-- Share-map entry of register n. -/
def Vce.ent (e : Vce) (n : Nat) : ShareEnt := mapGet {} e.share n
/-- Writes the share-map entry of register n. -/
def Vce.setEnt (e : Vce) (n : Nat) (x : ShareEnt) : Vce := { e with share := mapSet {} e.share n x }

/-- Local row n (R273). -/
def Vce.row (e : Vce) (n : Nat) : RowCell := mapGet {} e.rows n
/-- Writes local row n. -/
def Vce.setRow (e : Vce) (n : Nat) (c : RowCell) : Vce := { e with rows := mapSet {} e.rows n c }

/-! Lanes and elements (R252, R253) -/

/-- Lane l of a register or row. -/
def laneOf (r : Row) (l : Nat) : Nat := (r.toNat / 2 ^ (36 * l)) % 2 ^ 36

/-- The row whose lane l is `f l`. -/
def rowOfLanes (f : Nat → Nat) : Row :=
  BitVec.ofNat 4608 ((List.range 128).foldr (fun l a => (f l % 2 ^ 36) * 2 ^ (36 * l) + a) 0)

/-- Element width of a type code: 0 E12, 1 E18, 2 E36, 3 E72 (R252, R300). -/
def elemW (t : Nat) : Nat := if t = 0 then 12 else if t = 1 then 18 else if t = 2 then 36 else 72
/-- Elements per lane, or per lane pair for E72. -/
def perLane (t : Nat) : Nat := if t = 0 then 3 else if t = 1 then 2 else 1
/-- Registers of an operand of group size g (R254). -/
def regCount (t g : Nat) : Nat := if t = 3 then 2 * g else g

/-- Lane (pair) l of member r of the operand at `base`: 36 bits, or 72 for E72. -/
def Vce.getLane (e : Vce) (t base r l : Nat) : Nat :=
  if t = 3 then laneOf (e.reg (base + 2 * r)) l + 2 ^ 36 * laneOf (e.reg (base + 2 * r + 1)) l
  else laneOf (e.reg (base + r)) l

/-- Slot s of a lane value (R252). -/
def slotOf (t v s : Nat) : Nat := (v / 2 ^ (elemW t * s)) % 2 ^ elemW t

/-- The lane value with slots `f s`. -/
def laneOfSlots (t : Nat) (f : Nat → Nat) : Nat :=
  (List.range (perLane t)).foldr (fun s a => (f s % 2 ^ elemW t) * 2 ^ (elemW t * s) + a) 0

/-- Element i of the operand at `base` (R252). -/
def Vce.elem (e : Vce) (t base i : Nat) : Nat :=
  let p := perLane t
  slotOf t (e.getLane t base (i / (128 * p)) (i / p % 128)) (i % p)

/-- Elements of an operand of group size g. -/
def elemCount (t g : Nat) : Nat := 128 * perLane t * g

/-! Activity (R256 to R258) -/

/-- The mask bit of lane l under mx and inv (R257). -/
def Vce.maskBit (e : Vce) (f : VFields) (l : Nat) : Bool :=
  (e.mask f.mx.toNat).getLsbD l != f.inv

/-- Lane l of member r is active (R256). -/
def Vce.active (e : Vce) (f : VFields) (r l : Nat) : Bool :=
  128 * r + l < e.vl && e.maskBit f l

/-- Lane l of member r lies below VL: the rule of an "all lanes" instruction (R307). -/
def Vce.below (e : Vce) (r l : Nat) : Bool := 128 * r + l < e.vl

/-- Writes member r of the operand at `base`: lane l becomes `f l` where `on l`, else it keeps its contents (R258). -/
def Vce.putMember (e : Vce) (t base r : Nat) (on : Nat → Bool) (f : Nat → Nat) : Vce :=
  if t = 3 then
    let lo := rowOfLanes fun l => if on l then f l else laneOf (e.reg (base + 2 * r)) l
    let hi := rowOfLanes fun l => if on l then f l / 2 ^ 36 else laneOf (e.reg (base + 2 * r + 1)) l
    (e.setReg (base + 2 * r) lo).setReg (base + 2 * r + 1) hi
  else
    e.setReg (base + r) (rowOfLanes fun l => if on l then f l else laneOf (e.reg (base + r)) l)

/-- Writes `n` members of one share of an operand; values are read from `src`, the engine before the write. -/
def Vce.putMembers (e : Vce) (t base n : Nat) (on : Nat → Nat → Bool) (f : Nat → Nat → Nat) : Vce :=
  (List.range n).foldl (fun a r => a.putMember t base r (on r) (f r)) e

/-! Share sets (R260 to R262, R303 to R305) -/

/-- Register n belongs to a share set. -/
def Vce.isShared (e : Vce) (n : Nat) : Bool := (e.ent n).k != 0

/-- Number of shares of the operand that a field names: 1 when PUBLIC. -/
def Vce.shareK (e : Vce) (base : Nat) : Nat := if e.isShared base then (e.ent base).k else 1

/-- The distance in registers from share j to share j + 1 of the operand at `base`. -/
def Vce.shareStep (e : Vce) (base : Nat) : Nat := if e.isShared base then (e.ent base).g else 0

/-- Operand placement (R254, R303): aligned, and not beyond V31. -/
def badGroup (base cnt : Nat) : Bool := base % cnt != 0 || base + cnt > 32

/-- A field that names a set must name share 0, member 0, of a set of that many registers, and a PUBLIC operand
holds no register of a set (R304). -/
def Vce.badShare (e : Vce) (base cnt : Nat) : Bool :=
  if e.isShared base then (e.ent base).base != base || (e.ent base).g != cnt
  else (List.range cnt).any fun i => e.isShared (base + i)

/-- The operand is a share set of the kind. -/
def Vce.isKind (e : Vce) (base : Nat) (kd : ShareKind) : Bool := e.isShared base && (e.ent base).kind = kd

/-- A register of the operand carries the INTERNAL mark (R330). -/
def Vce.marked (e : Vce) (base cnt : Nat) : Bool := (List.range cnt).any fun i => (e.ent (base + i)).internal

/-- Marks after a write of `cnt` registers from `base`: marked by a marked source; cleared when written whole
from unmarked sources (R330). -/
def Vce.remark (e : Vce) (base cnt : Nat) (srcMarked whole : Bool) : Vce :=
  (List.range cnt).foldl (fun a i =>
    let x := a.ent (base + i)
    a.setEnt (base + i) { x with internal := srcMarked || (x.internal && !whole) }) e

/-- VCFG as R260 and R261 state it: the set's registers and every set it touches become 0. -/
def Vce.declare (e : Vce) (base g k : Nat) (kd : ShareKind) : Vce :=
  let n := k * g
  let inNew := fun i => base ≤ i && i < base + n
  let hit := fun i => e.isShared i && (List.range n).any fun j =>
    e.isShared (base + j) && (e.ent (base + j)).base = (e.ent i).base
  (List.range 32).foldl (fun a i =>
    if inNew i then
      (a.setReg i 0).setEnt i (if k = 1 then {} else { k := k, base := base, g := g, idx := (i - base) / g, kind := kd })
    else if hit i then (a.setReg i 0).setEnt i {}
    else a) e

/-- The first listed condition that holds, as a fault cause of R339. DEDUCED, log entry 59, unsafe. -/
def firstFault : List (Bool × Nat) → Option Nat
  | [] => none
  | (b, c) :: r => if b then some c else firstFault r

/-! Mask stream (R265, R267) -/

/-- The next n bits of the job's mask stream: cSHAKE256 of the seed with customisation "TRL-MSG". -/
def Vce.draw (e : Vce) (n : Nat) : Nat × Vce :=
  let seed := e.seed.getD []
  let b := (List.range ((e.used + n) / 8 + 1)).map (Config.cshake256 seed [] (ascii "TRL-MSG"))
  ((leVal b / 2 ^ e.used) % 2 ^ n, { e with used := e.used + n })

/-- A gadget whose beats draw 64 bits each has used `64 * beats` bits of the stream since `e` (R266, R327).
DESIGN CHOICE, log entry 96, unsafe. -/
def Vce.spend (e a : Vce) (beats : Nat) : Vce := { a with used := max a.used (e.used + 64 * beats) }

/-- Two equal 64-bit words follow one another among those that the stream bits from `lo` to `hi` lie in, and the word before
them (R269). -/
def Vce.streamRepeats (e : Vce) (lo hi : Nat) : Bool :=
  let b := (List.range (8 * (hi / 64 + 1))).map (Config.cshake256 (e.seed.getD []) [] (ascii "TRL-MSG"))
  let word := fun (i : Nat) => (b.drop (8 * i)).take 8
  decide (lo < hi) && (List.range (hi / 64 + 1)).any fun i => decide (lo / 64 ≤ i) && decide (1 ≤ i) && word i = word (i - 1)

/-- `m` draws of `n` bits each, in order. -/
def Vce.draws (e : Vce) (n : Nat) : Nat → List Nat × Vce
  | 0 => ([], e)
  | m + 1 =>
    let d := e.draw n
    let r := Vce.draws d.2 n m
    (d.1 :: r.1, r.2)

/-- Splits the value `x` into k shares with fresh draws: the last share makes them combine to `x`.
ARITH shares combine modulo `q`, BOOL shares by exclusive or over `w` bits. DESIGN CHOICE, log entry 96, unsafe. -/
def Vce.split (e : Vce) (kd : ShareKind) (q w k x : Nat) : List Nat × Vce :=
  match kd with
  | .bool =>
    let d := e.draws w (k - 1)
    (d.1 ++ [d.1.foldl (fun a b => Nat.xor a b) x], d.2)
  | .arith =>
    let d := e.draws 64 (k - 1)
    let r := d.1.map (· % q)
    (r ++ [(x + k * q - r.foldl (· + ·) 0) % q], d.2)

/-- The value that shares combine to (R263, R329). -/
def combine (kd : ShareKind) (q : Nat) (l : List Nat) : Nat :=
  match kd with
  | .bool => l.foldl Nat.xor 0
  | .arith => l.foldl (· + ·) 0 % q

/-! Montgomery reduction (R317) -/

/-- mont(z) for element width w. -/
def mont (w q qinv z : Nat) : Nat :=
  let m := ((z % 2 ^ w) * (qinv % 2 ^ w)) % 2 ^ w
  let r := (z + m * q) / 2 ^ w
  if r ≥ q then r - q else r

/-- The inverse of odd q modulo 2^n by Newton's iteration. -/
def invPow2 (q : Nat) (n : Nat) : Nat :=
  (List.range 6).foldl (fun x _ => x * (2 ^ n * 2 + 2 - (q * x) % 2 ^ n) % 2 ^ n) (q % 2 ^ n)

/-! The bit string of an operand (R253, R321) -/

/-- The bits of `cnt` registers from `base`, register `base` lowest. -/
def Vce.bitString (e : Vce) (base cnt : Nat) : Nat :=
  (List.range cnt).foldr (fun i a => (e.reg (base + i)).toNat * 2 ^ (4608 * i) + a) 0

/-- Writes `cnt` registers from `base` with the bit string `b`. -/
def Vce.putBits (e : Vce) (base cnt b : Nat) : Vce :=
  (List.range cnt).foldl (fun a i => a.setReg (base + i) (BitVec.ofNat 4608 (b / 2 ^ (4608 * i)))) e

/-- The first `n` bytes of a bit string. -/
def bytesOfBits (b n : Nat) : Bytes := leBytes n b

/-! The sponge (R270, R323, R324) -/

/-- Rate in bytes. -/
def SpongeMode.rate : SpongeMode → Nat
  | .shake128 => 168
  | .shake256 => 136
  | .sha3_256 => 136
  | .sha3_512 => 72

/-- Domain suffix and first padding bit of FIPS 202. -/
def SpongeMode.suffix : SpongeMode → Nat
  | .shake128 => 0x1F
  | .shake256 => 0x1F
  | .sha3_256 => 0x06
  | .sha3_512 => 0x06

/-- SHAKE mode. -/
def SpongeMode.isXof : SpongeMode → Bool
  | .shake128 => true
  | .shake256 => true
  | .sha3_256 => false
  | .sha3_512 => false

/-- Exclusive or of byte b into byte position i of a state. -/
def xorByte (st : BitVec 1600) (i b : Nat) : BitVec 1600 := st ^^^ BitVec.ofNat 1600 (b * 2 ^ (8 * i))

/-- Byte i of a state. -/
def stateByte (st : BitVec 1600) (i : Nat) : Nat := (st.toNat / 2 ^ (8 * i)) % 256

/-- One permutation. A shared core permutes on shares and draws 320 mask stream bits: its copies combine to the permutation
of what they combined to; how the others follow from the draw is a free value (R266, R271). DESIGN CHOICE, log entry 90,
safe. -/
def Vce.permute (e : Vce) : Vce :=
  let sp := { e.sponge with pos := 0, perms := e.sponge.perms + 1 }
  if sp.shared then
    let whole := sp.copies.foldl (· ^^^ ·) 0
    let d := e.draw 320
    let ms := (List.range (sp.copies.length - 1)).map (Config.keccakShare sp.copies d.1)
    { d.2 with sponge := { sp with copies := ms ++ [ms.foldl (· ^^^ ·) (Config.keccakF whole)] } }
  else { e with sponge := { sp with copies := sp.copies.map Config.keccakF } }

/-- Absorbs one byte per copy. -/
def Vce.absorbByte (e : Vce) (bs : List Nat) : Vce :=
  let sp := e.sponge
  let cs := (sp.copies.zip bs).map fun x => xorByte x.1 sp.pos x.2
  let e := { e with sponge := { sp with copies := cs, pos := sp.pos + 1 } }
  if e.sponge.pos ≥ sp.mode.rate then e.permute else e

/-- Applies the padding of the mode to copy 0 and permutes (FIPS 202). -/
def Vce.finish (e : Vce) : Vce :=
  let sp := e.sponge
  let cs := match sp.copies with
    | c :: r => xorByte (xorByte c sp.pos sp.mode.suffix) (sp.mode.rate - 1) 0x80 :: r
    | [] => []
  ({ e with sponge := { sp with copies := cs, final := true } }).permute

/-- Squeezes one byte per copy. -/
def Vce.squeezeByte (e : Vce) : List Nat × Vce :=
  let e := if e.sponge.pos ≥ e.sponge.mode.rate then e.permute else e
  let sp := e.sponge
  (sp.copies.map fun c => stateByte c sp.pos, { e with sponge := { sp with pos := sp.pos + 1 } })

/-- Squeezes n bytes per copy, oldest first. -/
def Vce.squeeze (e : Vce) : Nat → List (List Nat) × Vce
  | 0 => ([], e)
  | n + 1 =>
    let b := e.squeezeByte
    let r := Vce.squeeze b.2 n
    (b.1 :: r.1, r.2)

/-! Frost and job start (R250, R282, R347) -/

/-- The engine state of R250, with rows, kernel context, stream seed and stores as the start gives them. -/
def Vce.jobStart (e : Vce) (ctx : KernelCtx) (seed : Option Bytes) (entry : Nat) : Vce :=
  { rows := e.rows, ctx := ctx, seed := seed, kpc := entry, kaddr := entry,
    s := [] }

end Sys2Proof.Machine
end

