-- ==== Sys2Proof/Machine/Read.lean ====
section
/-! DEFINITION. What a BAR0 read returns: the images of the read-only registers, and the read rules R18 to R25, R501,
R532, R600 and R647. -/

namespace Sys2Proof.Machine

/-- A word from fields given as value, highest and lowest bit. -/
def packWord (l : List (Nat × Nat × Nat)) : Word := w32 (l.foldl (fun a f => a + place f.1 f.2.1 f.2.2) 0)

/-- Bytes 4i to 4i + 3 of a byte string as a word. -/
def wordAt (b : Bytes) (i : Nat) : Word := w32 (leAt b (4 * i) 4)

/-- A key id: the first 16 bytes of SHA3-256 over the public key encoding; 0 without a key (R536). -/
def keyId (k : Bytes) : Bytes := if k = [] then zeros 16 else fit 16 (Config.sha3 2 k)

/-- Code of a power state in PWR_STATUS (R617). -/
def Power.code : Power → Nat
  | .doze => 1 | .sleep => 2 | _ => 0

/-- Code of a time base state (R606). -/
def TimeSt.code : TimeSt → Nat
  | .unset => 0 | .free => 1 | .locking => 2 | .locked => 3 | .holdover => 4

/-- Code of a unit state (R42). -/
def UnitSt.code : UnitSt → Nat
  | .absent => 0 | .active => 1 | .spare => 2 | .quarantined => 3 | .retired => 4

/-- Code of a solstice commit state (R628). -/
def CommitSt.code : CommitSt → Nat
  | .idle => 0 | .staged => 1 | .checked => 2 | .armed => 3

/-- Code of a noise source state (R484). -/
def SrcSt.code : SrcSt → Nat
  | .standby => 0 | .selected => 1 | .bad => 2

/-- Code of a failed access (R59). -/
def HCause.code : HCause → Nat
  | .none => 0 | .tailRange => 1 | .translation => 2 | .urCa => 3 | .timeout => 4 | .poisoned => 5 | .headRange => 6

/-- Engines not gated (R617). -/
def State.awakeEngines (s : State) : Nat :=
  (allEngines.filter fun e => !(s.engine e).gated && decide ((s.engine e).unit ≠ .absent)).length

/-- Occupancy of slice `n`: jobs consumed whose entries have not been issued (R196). -/
def State.occupancy (s : State) (n : Nat) : Nat := (s.sch.jobs.filter fun e => e.2.slice = n).length

/-- Release buffer entries in use (R229, R230). -/
def State.rbUsed (s : State) : Nat :=
  (s.sch.jobs.filter fun e => e.2.rbEntry).length
    + ((mapVals s.slices).map fun x => ((mapVals x.cqs).map fun c => if c.err then c.gather.length else 0).sum).sum

/-- Jobs waiting for randomness in ENTROPY_WAIT or KEYLOAD (R482). -/
def State.waiters (s : State) : Nat :=
  (s.sch.jobs.filter fun e =>
    decide (e.2.stage = .entropyWait) || (e.2.loadWaits && !s.canServe 4)).length

/-- Severest response in force, 0 for none (R554). -/
def State.response (s : State) : Nat := (mapVals s.aon.alarms).foldl (fun a x => max a x.resp) 0

/-- TMP_ALARM (R567). -/
def State.alarmMask (s : State) : Nat := s.aon.alarms.foldl (fun a e => a + 2 ^ e.1) 0

/-- Engine is reserved for protection-class jobs: an ACTIVE one among the RESV_VCE VCEs, or the one HSE or STE, with the
highest logical numbers (R244). In a class that runs short for want of a spare, they are the highest of its ACTIVE units
(R641). -/
def State.reserved (s : State) (e : Nat) : Bool :=
  let c := clsOf e
  let want := match c with
    | .vce => fld (s.reg .schProfile) 10 8
    | .hse | .ste => 1
    | _ => 0
  let x := s.engine e
  s.profile = 1 && x.unit = .active &&
    if s.nvm.short.getLsbD c.num then
      ((enginesOf c).filter fun i => (s.engine i).unit = .active && x.logical < (s.engine i).logical).length < want
    else nominal s.fuses.small c ≤ x.logical + want && decide (0 < want)

/-- Rate correction in eighths of a ppb: TIM_TRIM + F (R605). -/
def State.freq8 (s : State) : Int := 8 * s.trim + s.tim.freq

/-- The statement counter, the tariffs and the log are in service: family 0x60 jobs are accepted (R520). -/
def State.mpReady (s : State) : Bool := s.mpInService && s.up && s.code.loaded.contains 4

/-- Audit entries that record changes (R513). -/
def State.logFull (s : State) : Bool := (s.mp.audit.filter fun a => a.kind ≠ 5).length ≥ 1023

/-- The block is worn and has no replacement: its partition has lost it (R643). -/
def State.lostBlock (s : State) (part block : Nat) : Bool := s.nvm.count (nvmBlock part block) ≥ 1000000

/-- Record place `i` holds no record, and NVM has its block (R452, R643). -/
def State.placeFree (s : State) (i : Nat) : Bool := (s.record? i).isNone && !s.lostBlock 3 (i / 32)

/-- The 64 bytes of a record (R572), or of an extension record (R575). -/
def Rec.bytes (r : Rec) : Bytes :=
  match r.ext with
  | none =>
    leBytes 8 0xA55A5AA5C33C3CC3 ++ leBytes 8 r.seq ++ leBytes 8 r.time ++ leBytes 2 r.code ++ leBytes 2 r.count
      ++ leBytes 1 r.slice ++ leBytes 1 r.engine ++ leBytes 1 (r.lcs % 16)
      ++ leBytes 1 (bitOf r.holdover + 2 * bitOf r.injected + 4 * bitOf r.vendor + 8 * bitOf r.retained
        + 16 * bitOf r.aggregated + 32 * r.exts)
      ++ leBytes 4 r.corr ++ zeros 4 ++ fit 16 r.detail ++ leBytes 8 r.last
  | some (i, vs) =>
    leBytes 8 0xA55A5AA5C33C3CC3 ++ leBytes 8 r.seq ++ leBytes 1 i ++ leBytes 1 vs.length ++ zeros 6
      ++ fit 32 (vs.flatMap fun v => leBytes 4 v.toNat) ++ zeros 8

/-- A monitor's configuration in effect: while the part is held in reset, the copy in AON (R567). -/
def State.monCfg (s : State) (m : Nat) : Word :=
  if s.pwr.inReset then mapGet (monDefault m) s.aon.cfg m else s.reg (.monCfg m)

/-- Its WINDOW. -/
def State.monWindow (s : State) (m : Nat) : Nat := fld (s.monCfg m) 23 16

/-- The events of monitor `m` in its last WINDOW ms (R548). -/
def State.windowEvents (s : State) (m : Nat) : List Nat :=
  (s.mon m).events.filter fun t => s.el < t + s.monWindow m * 1000000

/-- INWIN of monitor `m` (R567). -/
def State.shownWindow (s : State) (m : Nat) : Nat := if m = 15 then sat 255 (s.windowEvents 15).length else (s.mon m).inwin

/-- Readable areas of the debug window under the active grant (R541, R542). -/
def State.windowOpen (s : State) (area : Nat) : Bool :=
  s.dbg.active &&
  match area with
  | 1 | 2 | 3 => bitAt s.dbg.rights 4
  | 4 => bitAt s.dbg.rights 3
  | 5 => bitAt s.dbg.rights 2
  | _ => false

/-- The code of a status (R104). -/
def Status.code : Status → Nat
  | .ok => 0 | .verifyFail => 1 | .tagMismatch => 2 | .replay => 3
  | .refused => 0x100 | .deadlineMissed => 0x101 | .timedOut => 0x102 | .descInvalid => 0x103 | .opcUnsupported => 0x104
  | .keyPolicy => 0x200 | .keyBlobInvalid => 0x201 | .keyState => 0x202 | .keyExpired => 0x203
  | .bufferFault => 0x300 | .gatherFault => 0x301 | .outTooSmall => 0x302
  | .entropyUnavailable => 0x400 | .engineFault => 0x500 | .machineCheck => 0x501 | .sliceQuiesced => 0x600
  | .statefulExhausted => 0x700 | .statefulBusy => 0x701 | .abortedTamper => 0x800 | .kernelFault => 0x900

/-- QID of a job (R96). -/
def Job.qid (x : Job) : Nat := x.slice * 16 + x.sq

/-- The completion entry of a job (R96). -/
def Job.entry (x : Job) : Entry :=
  let tag := x.desc.tag.toNat
  let len := if x.result.status = .ok then x.result.out.length
    else if x.result.status = .outTooSmall then x.result.need else 0
  { sq := x.sq, prot := x.sqProt
    words := [loHalf tag, hiHalf tag,
      packWord [(x.result.status.code, 15, 0), (x.result.detail, 23, 16), (x.engineCode, 30, 24)],
      w32 len, loHalf x.stamp, hiHalf x.stamp, packWord [(x.qid, 31, 16)],
      packWord [(x.desc.flow, 23, 0), (x.attempts, 31, 24)]] }

/-- The halted VCE that STEP advances and area 0x5 shows: the one with the lowest physical index. DEDUCED, log entry 56,
unsafe. -/
def State.haltedVce (s : State) : Option Nat :=
  (List.range 34).find? fun e => (s.engine e).halted && (s.engine e).running.isNone

/-- A 36-bit value as two words, low half first. -/
def laneWords (x : Lane) : List Word := [loHalf x.toNat, hiHalf x.toNat]

/-- What STEP_MICROCODE shows of a halted VCE: U1 to U15, IR, KPC, the micro-stack and the PUBLIC registers (R541). -/
def Vce.shown (v : Vce) : List Word :=
  ((List.range 15).flatMap fun i => laneWords (mapGet 0 v.u (i + 1))) ++ laneWords v.ir ++ [w32 v.kpc]
    ++ v.ustack.map (fun a => w32 a.toNat)
    ++ ((List.range 32).filter fun n => !v.isShared n).flatMap fun n =>
      (List.range 144).map fun k => w32 ((v.reg n).toNat / 2 ^ (32 * k))

/-- Entries of the job table that the SCH keeps in its cache of 512 KiB, or 768 KiB: those used last (R38). DESIGN CHOICE, log
entry 50, safe. DESIGN CHOICE, log entry 50, safe. -/
def State.tableCache (s : State) : List Job :=
  (s.sch.jobs.drop (s.sch.jobs.length - (if s.mpInService then 4096 else 6144))).map Prod.snd

/-- An entry of the trace ring, 16 bytes (R541). DESIGN CHOICE, log entry 50, safe. -/
def TraceEntry.bytes (t : TraceEntry) : Bytes :=
  leBytes 8 t.time ++ leBytes 1 t.slice ++ leBytes 2 t.qid ++ leBytes 1 t.cls ++ leBytes 1 t.logical ++ leBytes 1 t.state ++ zeros 2

/-- What an area of the debug window holds, as words (R541, R542). DESIGN CHOICE, log entry 50, safe. -/
def State.debugWords (s : State) (area : Nat) : List Word :=
  match area with
  | 1 => s.tableCache.flatMap fun x => (List.range 32).map (wordAt (fit 128 (Config.jobBytes x)))
  | 2 => (s.sch.jobs.filter fun e => e.2.rbEntry && decide (e.2.stage = .done)).flatMap fun e => e.2.entry.words
  | 3 => s.evr.ring.flatMap fun r => (List.range 16).map (wordAt r.bytes)
  | 4 => s.dbg.trace.flatMap fun t => (List.range 4).map (wordAt t.bytes)
  | 5 => (s.haltedVce.map fun e => (s.vce e).shown).getD []
  | _ => []

/-- The word of the debug window that DBG_WIN_SEL names. Areas 3 and 4, the staging ring and the trace ring, are rows of 64-byte
records and of 16-byte entries; where an offset of another area lies in its contents, the manual does not state.
DESIGN CHOICE, log entry 50, safe. -/
def State.windowWord (s : State) : Word :=
  let area := fld (s.reg .winSel) 31 28
  let o := fld (s.reg .winSel) 23 0
  if !s.windowOpen area then 0
  else ((s.debugWords area)[if area = 3 ∨ area = 4 then o else Config.windowIndex area o]?).getD 0

/-- The 64-bit counters behind a pair of read-only registers, by offset of NAME_LO (R21). -/
def State.wide (s : State) (off : Nat) : Option Nat :=
  if 0x100000 ≤ off ∧ off < 0x1E0000 then none
  else match off with
  | 0x20008 => some s.now
  | 0x50008 => some (if s.dbg.active then s.dbg.until_ else 0)
  | 0x70030 => some s.rng.blocks
  | 0x80010 => some s.kmg.boot
  | 0xA0008 => some s.evr.next
  | 0xA0010 => some (match s.evr.area with | (_, r) :: _ => r.seq | [] => s.evr.next)
  | 0xB0030 => some (if s.mpInService then s.mp.ctrNext else 0)
  | 0xD0028 => some s.cmc.errAddr
  | 0x108 => some (s.pair .commitAt)
  | 0x20010 => some (s.pair .timNext)
  | 0x30200 => some (s.pair .pkgAddr)
  | 0x40010 => some (s.pair .ownerAddr)
  | 0xA0030 => some (s.pair .rdSeq)
  | 0xA0080 => some (s.pair .clrUpto)
  | 0xB0040 => some (if s.mpInService then s.pair .mpAddr else 0)
  | _ => none

/-- ENGCLK cycles that engine `e` has spent in RUNNING, saving or restoring, those of the present job included (R295). -/
def State.busyOf (s : State) (e : Nat) : Nat :=
  let x := s.engine e
  x.busy + (if x.running.isSome then engCycles (s.el - x.since) else 0)

/-- The image of an engine block register (R290 to R295, R392). -/
def State.engineWord (s : State) (e o : Nat) : Word :=
  let x := s.engine e
  if x.unit = .absent then 0
  else match o with
  | 0x00 =>
    packWord [(x.unit.code, 31, 28), (bitOf x.gated, 27, 27), (bitOf (s.reserved e), 26, 26),
      (bitOf (x.incoming.isSome || (s.vce e).streaming), 25, 25), (bitOf x.running.isSome, 24, 24),
      (bitOf (x.saving || x.restEnd ≠ 0), 23, 23), (x.results.length, 22, 21),
      (if clsOf e = .vce ∧ x.running.isSome then (s.vce e).ctx.k - 1 else 0, 20, 19)]
  | 0x04 => packWord [(x.fcause, 31, 24), (x.fcount, 15, 0)]
  | 0x08 => packWord [(x.corr, 31, 16), (x.uncorr, 15, 0)]
  | 0x10 => packWord [(x.ageBase, 31, 24), (x.ageNow, 23, 16), (x.ageWorst, 15, 8), (x.temp, 7, 0)]
  | 0x20 => loHalf x.jobs | 0x24 => hiHalf x.jobs
  | 0x28 => loHalf (s.busyOf e) | 0x2C => hiHalf (s.busyOf e)
  | _ => 0

/-- The engine and offset of an engine block address (chapter 19). -/
def engineAt (off : Nat) : Option (Nat × Nat) :=
  if 0x100000 ≤ off ∧ off < 0x188000 then some ((off - 0x100000) / 0x4000, (off - 0x100000) % 0x4000)
  else if 0x190000 ≤ off ∧ off < 0x1A2000 then some (34 + (off - 0x190000) / 0x1000, off % 0x1000)
  else if 0x1B0000 ≤ off ∧ off < 0x1BA000 then some (52 + (off - 0x1B0000) / 0x2000, off % 0x2000)
  else if 0x1C0000 ≤ off ∧ off < 0x1C5000 then some (57 + (off - 0x1C0000) / 0x1000, off % 0x1000)
  else if 0x1D0000 ≤ off ∧ off < 0x1D9000 then some (62 + (off - 0x1D0000) / 0x1000, off % 0x1000)
  else none

/-- SYS_ENGMAPe (R42). -/
def State.engmap (s : State) (e : Nat) : Word :=
  let x := s.engine e
  packWord [(x.unit.code, 31, 28), ((clsOf e).num + 1, 27, 24),
    (if x.unit = .active ∨ x.unit = .quarantined then x.logical else 0xFF, 15, 8), (e - (clsOf e).first, 7, 0)]

/-- SYS_CAP (R650). -/
def State.sysCap (s : State) : Word :=
  let k := nominal s.fuses.small
  packWord [(k .vce, 31, 26), (k .hse, 25, 21), (k .cde, 20, 18), (k .cle, 17, 15), (k .ste, 14, 11),
    (s.generalSlices, 10, 4), (bitOf (!s.fuses.small), 3, 3), (bitOf s.mpInService, 2, 2),
    (if s.fuses.small then 1 else 2, 1, 0)]

/-- SYS_ID (R649). -/
def State.sysId (s : State) : Word :=
  packWord [(1, 31, 24), (bitOf s.fuses.im, 16, 16), (if s.fuses.small then 0x3620 else 0x3640, 15, 0)]

/-- LCS_STATE (R526). FROM is the code left by the last transition: the code in the last marker's M word. -/
def State.lcsState (s : State) : Word :=
  let from_ := match s.lcs.markers.getLast? with
    | some k => (k.m.toNat / 16) % 16
    | none => 0
  packWord [(bitOf s.lcs.trans.isSome, 31, 31), (bitOf s.lcs.first, 30, 30), (from_, 11, 8), (s.lcs.code, 3, 0)]

/-- The highest erase count of the blocks in use: not of those that went back to the pool, nor of a lost one (R645). -/
def Nvm.topInUse (v : Nvm) : Nat :=
  ((v.erases.filter fun e => !v.freed.contains e.1 && decide (e.2 < 1000000)).map Prod.snd).foldl max 0

/-- Images of the SYS, PWR, TIM and NVM registers. DEDUCED, log entry 81, unsafe. -/
def State.sysWord (s : State) (off : Nat) : Word :=
  match off with
  | 0x0 => s.sysId
  | 0x4 => s.sysCap
  | 0x20 => wordAt s.fuses.serial 0 | 0x24 => wordAt s.fuses.serial 1
  | 0x28 => wordAt s.fuses.serial 2 | 0x2C => wordAt s.fuses.serial 3
  | 0x110 => packWord [(s.nvm.commit.code, 31, 29), (s.nvm.cres, 27, 24), (s.nvm.staging.length, 9, 0)]
  | 0x120 =>
    packWord [(s.spareUnits .vce, 31, 28), (s.spareUnits .hse, 27, 24), (s.spareUnits .cde, 23, 20),
      (s.spareUnits .cle, 19, 16), (s.spareUnits .ste, 15, 12), (s.nvm.short.toNat, 4, 0)]
  | 0x124 => packWord [(s.nvm.repaired, 31, 16), (((mapVals s.engines).map Engine.marked).sum + (mapVals s.nvm.rows).sum, 15, 0)]
  | 0x10000 =>
    packWord [(bitOf s.pwr.ready, 31, 31), (s.pwr.st.code, 30, 28), (bitOf s.pwr.pfail, 27, 27), (s.pwr.start, 25, 24),
      (s.awakeEngines, 14, 8)]
  | 0x20000 =>
    let hold := (s.el - s.tim.holdBase) / 1000000000
    packWord [(s.tim.st.code, 31, 29), (bitOf s.tim.armed.isSome, 28, 28), (bitOf s.tim.expired, 27, 27),
      (bitOf s.tim.range, 26, 26), (bitOf s.aon.rc, 25, 25), (sat 0xFFFF hold, 15, 0)]
  | 0x2001C => BitVec.ofInt 32 (s.freq8 / 8)
  | 0x20020 => BitVec.ofInt 32 (max (-2147483648) (min 2147483647 s.tim.phase))
  | 0x20028 => packWord [(s.tim.accepted, 31, 16), (s.tim.rejected, 15, 0)]
  | 0x30008 =>
    let busy := match s.nvm.op with
      | some (.store ..) => true
      | some .defaults => true
      | _ => false
    packWord [(bitOf busy, 31, 31), (s.nvm.result, 27, 24), (bitOf s.nvm.noImage, 0, 0)]
  | 0x3000C => w32 s.nvm.gen
  | 0x30010 => packWord [(s.nvm.pool, 24, 16), (s.nvm.topInUse / 1000, 9, 0)]
  | 0x30214 =>
    packWord [(bitOf s.code.busy, 31, 31), (s.code.result, 27, 24), (s.code.type_, 19, 16),
      ((s.code.pending.filter fun e => decide (e.1 ≠ 5) || !s.code.removeAt).foldl (fun a e => a + 2 ^ (e.1 - 1)) 0, 5, 1)]
  | _ =>
    if 0x400 ≤ off ∧ off < 0x400 + 4 * 71 then s.engmap ((off - 0x400) / 4)
    else if 0x30224 ≤ off ∧ off ≤ 0x30234 then
      match mapFind s.code.active ((off - 0x30220) / 4) with
      | some p => w32 p.version
      | none => 0
    else 0

/-- Images of the LCS, DBG, TMP, RNG and KEY registers. -/
def State.secureWord (s : State) (off : Nat) : Word :=
  match off with
  | 0x40000 => s.lcsState
  | 0x4000C => w32 s.lcs.result
  | 0x40020 =>
    packWord [(bitOf s.lcs.ownerBusy, 31, 31), (bitOf (s.lcs.codeKey ≠ []), 30, 30),
      (bitOf (s.lcs.debugKey ≠ []), 29, 29), (s.lcs.ownerRes, 3, 0)]
  | 0x50000 =>
    packWord [(bitOf s.dbg.active, 31, 31), (if s.dbg.active then s.dbg.issuer else 0, 30, 29),
      (bitOf s.dbg.chal.isSome, 28, 28), (s.dbg.result, 27, 24)]
  | 0x50004 => if s.dbg.active then s.dbg.rights else 0
  | 0x51004 => s.windowWord
  | 0x60000 =>
    packWord [(bitOf s.tmp.seq.isSome, 31, 31), (s.response, 30, 28), (bitOf s.tmp.aonLost, 27, 27),
      (bitOf s.tmp.forfeited, 26, 26), (bitOf s.tmp.testing.isSome, 25, 25), (s.tmp.held, 23, 16),
      (s.tmp.overflow, 10, 0)]
  | 0x60004 => w32 s.alarmMask
  | 0x60008 => w32 s.aon.corr
  | 0x60018 => packWord [(s.tmp.clearRes, 31, 28), (s.tmp.testRes, 27, 24), (s.tmp.tmon, 20, 16)]
  | 0x70000 =>
    packWord [(bitOf s.rng.ready, 31, 31), (bitOf s.rng.switching, 30, 30), (bitOf s.rng.noSource, 29, 29),
      (s.rng.sel, 25, 24),
      (s.rng.srcs.foldl (fun a e => if e.2.st = .bad then a + 2 ^ e.1 else a) 0, 19, 16), (s.rng.pool.length, 4, 0)]
  | 0x70004 => w32 s.waiters
  | 0x80000 =>
    packWord [(bitOf s.kmg.ready, 31, 31), (bitOf s.kmg.rootNew, 30, 30),
      (bitOf (!s.rng.ready && s.sch.jobs.any fun e => e.2.loadWaits), 29, 29),
      ((s.kmg.slots.filter fun e => e.2.inUse).length, 14, 0)]
  | 0x80004 => w32 ((mapVals s.kmg.slots).map fun k => k.lines).sum
  | 0x80008 =>
    packWord [((s.kmg.stf.filter fun e => e.2.valid && decide (e.2.close = 0)).length, 28, 16),
      (((List.range 4096).filter s.placeFree).length, 12, 0)]
  | 0x8000C => w32 (s.maxErase 3)
  | _ =>
    if 0x40030 ≤ off ∧ off < 0x40040 then wordAt (keyId s.lcs.codeKey) ((off - 0x40030) / 4)
    else if 0x40040 ≤ off ∧ off < 0x40050 then wordAt (keyId s.lcs.debugKey) ((off - 0x40040) / 4)
    else if 0x50020 ≤ off ∧ off < 0x50040 then wordAt s.dbg.chalReg ((off - 0x50020) / 4)
    else if 0x60200 ≤ off ∧ off < 0x60250 then
      let m := s.mon ((off - 0x60200) / 4)
      packWord [(bitOf m.cond, 31, 31), (bitOf m.broken, 30, 30), (s.shownWindow ((off - 0x60200) / 4), 23, 16),
        (m.trips, 15, 0)]
    else if 0x70020 ≤ off ∧ off < 0x70030 then
      let x := mapGet {} s.rng.srcs ((off - 0x70020) / 4)
      packWord [
        (if x.test.isSome then 3 else x.st.code, 31, 30), (x.cause, 29, 28), (x.fails, 27, 20), (x.maxRun, 17, 12), (x.maxApt, 10, 0)]
    else if 0x80600 ≤ off ∧ off < 0x80800 then
      let n := (off - 0x80600) / 4
      if s.present n then w32 (s.epoch n) else 0
    else 0

/-- Images of the SCH, EVR, MP and CMC registers. -/
def State.serviceWord (s : State) (off : Nat) : Word :=
  match off with
  | 0x90020 => w32 s.sch.jobs.length
  | 0x90024 => w32 s.rbUsed
  | 0xA0000 =>
    packWord [(bitOf s.evr.ready, 31, 31), (bitOf s.evr.flushing, 30, 30), (bitOf s.evr.retFull, 29, 29),
      (bitOf s.evr.held.isSome, 28, 28), (s.evr.ring.length, 23, 16)]
  | 0xA0018 => w32 s.evr.retained.length
  | 0xA001C => packWord [(s.evr.lostRing, 31, 16), (s.evr.torn, 15, 0)]
  | 0xA0038 => packWord [(bitOf s.evr.found, 30, 30), (bitOf s.evr.none_, 29, 29)]
  | 0xA008C => w32 s.evr.cmdRes
  | 0xD0000 =>
    packWord [(bitOf s.cmc.ready, 31, 31), (bitOf s.cmc.ovwDone, 30, 30), (bitOf (s.cmc.popCode ≠ 0), 29, 29),
      (s.cmc.popCode, 23, 16)]
  | 0xD0004 =>
    packWord [(bitOf s.cmc.chA.fitted, 31, 31), (bitOf s.cmc.chA.active, 30, 30), (s.cmc.chA.ranks, 25, 24),
      (s.cmc.chA.gib, 7, 0)]
  | 0xD0008 =>
    packWord [(bitOf s.cmc.chB.fitted, 31, 31), (bitOf s.cmc.chB.active, 30, 30), (s.cmc.chB.ranks, 25, 24),
      (s.cmc.chB.gib, 7, 0)]
  | 0xD0010 => packWord [(s.cmc.usable / 0x400000, 31, 16), (s.cmc.internal / 0x100000, 15, 0)]
  | 0xD0014 =>
    let groups := s.cmc.usable / 15872
    packWord [(sat 0xFFF s.cmc.onDemand.length, 27, 16),
      (if s.cmc.ovwDone then 1000 else if groups = 0 then 0 else s.cmc.done * 1000 / groups, 9, 0)]
  | 0xD0020 => packWord [(s.cmc.chA.corr, 31, 16), (s.cmc.chA.uncorr, 15, 0)]
  | 0xD0024 => packWord [(s.cmc.chB.corr, 31, 16), (s.cmc.chB.uncorr, 15, 0)]
  | 0xD0030 => w32 s.cmc.integ
  | _ =>
    if 0x91000 ≤ off ∧ off < 0x92000 ∧ (off - 0x91000) % 0x20 = 0xC then
      let n := (off - 0x91000) / 0x20
      if s.present n then w32 (s.occupancy n) else 0
    else if 0xA0040 ≤ off ∧ off < 0xA0080 then wordAt s.evr.data ((off - 0xA0040) / 4)
    else if 0xB0000 ≤ off ∧ off < 0xC0000 then
      if !s.mpInService then 0
      else match off with
      | 0xB0000 =>
        packWord [(bitOf s.mpReady, 31, 31), (bitOf s.mp.busy, 30, 30), (bitOf s.logFull, 29, 29),
          (bitOf (!s.code.loaded.contains 4), 28, 28), (bitOf (s.mp.authKey = []), 27, 27),
          (bitOf s.mp.sepFuse, 26, 26), (s.mp.audit.length, 10, 0)]
      | 0xB0004 => w32 s.mp.swVer
      | 0xB0054 => w32 s.mp.result
      | _ => if 0xB0010 ≤ off ∧ off < 0xB0030 then wordAt s.mp.swDigest ((off - 0xB0010) / 4) else 0
    else 0

/-- Images of a slice's set-up page (R72, R75, R78, R237, R489, R490). -/
def State.pageWord (s : State) (n o : Nat) : Word :=
  let x := s.slice n
  if !s.present n then
    (if !((1 ≤ n && n ≤ 64) || n = 127) then 0
    else if o = 0 then packWord [(0xF, 11, 8), (n, 7, 0)] else if o = 0xF008 then 0xF else 0)
  else if o = 0 then packWord [(x.st.code, 11, 8), (n, 7, 0)]
  else if o = 0x88 then packWord [(bitOf x.dbErr, 31, 31), (x.dbCause.code, 30, 28)]
  else if 0x200 ≤ o ∧ o < 0x210 then w32 ((x.flags.toNat / 2 ^ (16 * ((o - 0x200) / 4))) % 2 ^ 16)
  else if 0x1000 ≤ o ∧ o < 0x1400 then
    let q := (o - 0x1000) / 0x40
    match (o - 0x1000) % 0x40 with
    | 0x0C => packWord [(bitOf (s.sq n q).err, 31, 31), ((s.sq n q).cause.code, 30, 28), ((s.sq n q).head, 15, 0)]
    | 0x20 =>
      packWord [(bitOf (s.cq n q).err, 31, 31), ((s.cq n q).cause.code, 30, 28), (bitOf (s.cq n q).phase, 16, 16),
        ((s.cq n q).tail, 15, 0)]
    | _ => 0
  else if o = 0xF008 then w32 x.st.code
  else if o = 0xF00C then
    packWord [(bitOf x.badState, 31, 31), (bitOf x.badConfig, 30, 30), (x.cause, 27, 24),
      (bitOf ((mapVals x.cqs).any fun c => c.err && !c.gather.isEmpty), 16, 16), (x.aborted, 15, 0)]
  else 0

/-- A writable register reads its value in effect (R22), a companion its inverse (R25), a write-only register 0. The
RATE and BURST of a TRL3620 read 0 (R588). A low half reads the half last written (R20). -/
def State.regWord (s : State) (r : Reg) : Option Word :=
  match r with
  | .sysReset | .evrCmd | .mbox _ => some 0
  | .timStatus | .dbStatus _ | .sqStatus _ _ | .cqStatus _ _ | .slcStatus _ => none
  | .inv a => some (~~~ (match regAt a with | some n => s.reg n | none => 0))
  | .evrFlood => some (if s.fuses.small then 0 else s.reg r)
  | .commitAt false | .timNext false | .pkgAddr false | .ownerAddr false | .rdSeq false | .clrUpto false
  | .mpAddr false | .dbBase _ false | .sqBase _ _ false | .cqBase _ _ false =>
    some ((mapFind s.loHeld r.addr).getD (s.reg r))
  | _ => some (s.reg r)

/-- The register at an offset as it stands, before the rules of R532 and R600. -/
def State.rawRead (s : State) (off : Nat) : Word :=
  let writable := match regAt off with
    | some r =>
      if (match r.sliceOf with | some n => s.present n | none => true)
          && !(0xB0000 ≤ off && off < 0xC0000 && !s.mpInService) then s.regWord r
      else some 0
    | none => none
  match writable with
  | some w => if off % 8 = 4 then (mapFind s.loCap (off - 4)).getD w else w
  | none =>
    match s.wide off with
    | some v => loHalf v
    | none =>
      match (if off % 8 = 4 then s.wide (off - 4) else none) with
      | some v => (mapFind s.loCap (off - 4)).getD (hiHalf v)
      | none =>
        match engineAt off with
        | some (e, o) =>
          if o = 0x24 ∨ o = 0x2C then (mapFind s.loCap (off - 4)).getD (s.engineWord e o) else s.engineWord e o
        | none =>
          if 0x1000000 ≤ off then s.pageWord ((off - 0x1000000) / 0x10000) (off % 0x10000)
          else if off < 0x40000 then s.sysWord off
          else if off < 0x90000 then s.secureWord off
          else s.serviceWord off

/-- Offsets that LOST and SCRAP answer (R532, R533). -/
def State.endedReads (s : State) (off : Nat) : Bool :=
  off = 0 || (0x20 ≤ off && off < 0x30) || off = 0x40000 || off = 0x4000C
    || (0xA0000 ≤ off && off < 0xB0000) || (s.lcs.code = 0xC && 0x50000 ≤ off && off < 0x60000)

/-- What a read of an aligned BAR0 word returns. DESIGN CHOICE, log entry 17, unsafe. -/
def State.bar0 (s : State) (off : Nat) : Word :=
  if off = 0x10000 then (if s.ended && s.pwr.ready then 0 else s.rawRead off)
  else if !s.pwr.ready then 0
  else if s.ended && !s.endedReads off then 0
  else s.rawRead off

end Sys2Proof.Machine
end

