-- ==== Sys2Proof/Machine/Events.lean ====
section
/-! DEFINITION. The event recorder's intake: records, snapshots, retained classes, flood control, the staging ring and
the fault aggregator (R569 to R580). -/

namespace Sys2Proof.Machine

/-- Source numbers of units (R569). -/
def srcEngine (e : Nat) : Nat := 32 + e
def srcSlice (n : Nat) : Nat := 256 + n
def srcHdx : Nat := 104
def srcCmc : Nat := 106
def srcDdr (ch : Nat) : Nat := 107 + ch
def srcKey : Nat := 109
def srcRng : Nat := 110
def srcNs (n : Nat) : Nat := 111 + n
def srcSch : Nat := 115
def srcSteward : Nat := 116
def srcNvm : Nat := 117
def srcTim : Nat := 118
def srcHif : Nat := 119
def srcEvr : Nat := 120
def srcLcs : Nat := 121
def srcDbg : Nat := 122
def srcMp : Nat := 123
def srcPwr : Nat := 124
def srcSys : Nat := 125

/-- An event code: class, source and reason (R569). -/
def eventCode (cls src reason : Nat) : Nat := cls * 4096 + (src % 512) * 8 + reason % 8

/-- The class, source and reason of a code. -/
def codeCls (c : Nat) : Nat := c / 4096
def codeSrc (c : Nat) : Nat := (c / 8) % 512
def codeReason (c : Nat) : Nat := c % 8

/-- The record of an event that happens now (R572): station time, life-cycle state, HOLDOVER, the correlation number
for class 0x8, VENDOR for the steward's own. -/
def State.mkRec (s : State) (code slice engine : Nat) (detail : Bytes) : Rec :=
  { time := s.now, code := code, slice := slice, engine := engine, lcs := s.lcs.code
    holdover := s.tim.st ≠ .locked, vendor := codeSrc code = srcSteward
    corr := if codeCls code = 8 then s.aon.corr else 0, detail := fit 16 detail, since := s.el, born := s.el }

/-- A record of a retained class (R577). -/
def Rec.isRetained (r : Rec) : Bool :=
  match codeCls r.code with
  | 7 | 0xC => true
  | 8 => [0, 1, 5, 6, 7].contains (codeReason r.code)
  | 9 => (codeReason r.code = 0 && leAt r.detail 0 1 = 1) || codeReason r.code = 2
  | 0xD => codeReason r.code = 2 || codeReason r.code = 6
  | 0xE => codeReason r.code = 3 || codeReason r.code = 5
  | _ => false

/-- The snapshot sets that an event's code triggers, the two lowest (R574, R575). -/
def State.matchingSets (s : State) (code : Nat) : List Nat :=
  ((List.range 16).filter fun i =>
    bitAt (s.reg (.snapCtrl i)) 31 &&
      (w32 code &&& w32 (fld (s.reg (.snapMatch i)) 31 16))
        = (w32 (fld (s.reg (.snapMatch i)) 15 0) &&& w32 (fld (s.reg (.snapMatch i)) 31 16))).take 2

/-- The extension record of set `i` (R575). -/
def State.snapshot (s : State) (i : Nat) : Rec :=
  { ext := some (i, (List.range (fld (s.reg (.snapCtrl i)) 3 0)).map fun j => s.bar0 ((s.reg (.snapReg i j)).toNat))
    since := s.el }

/-- Numbers consecutive records from `n`. -/
def numberFrom : Nat → List Rec → List Rec
  | _, [] => []
  | n, r :: rs => { r with seq := n } :: numberFrom (n + 1) rs

/-- Places of the ring taken by retained records with their extensions; an extension belongs to the record before it. -/
def retainedPlaces : Bool → List Rec → Nat
  | _, [] => 0
  | cur, r :: rs =>
    let now := if r.ext.isSome then cur else r.isRetained
    bitOf now + retainedPlaces now rs

/-- `n` further records of the kind fit the ring: 128 places, of which 16 are kept for retained classes (R580). -/
def ringFits (ring : List Rec) (retained : Bool) (n : Nat) : Bool :=
  let ret := retainedPlaces false ring
  let gen := ring.length - ret
  if retained then ring.length + n ≤ 128 else gen + (ret - 16) + n ≤ 112

/-- The ring without its newest non-retained record and that record's extensions; none where every record is
retained. -/
def dropNewest (ring : List Rec) : Option (List Rec) :=
  let rec go : List Rec → List Rec → Option (List Rec)
    | [], _ => none
    | r :: rs, later =>
      if r.ext.isSome then go rs (r :: later)
      else if r.isRetained then
        -- keep this record, its extensions and everything later
        match go rs [] with
        | some l => some (l ++ r :: later)
        | none => none
      else some (rs.reverse ++ later.dropWhile fun x => x.ext.isSome)
  go ring.reverse []

/-- Displaces newest non-retained records until `n` fit (R580); gives the ring and the records displaced. -/
def displace : Nat → List Rec → Nat → Option (List Rec × Nat)
  | 0, _, _ => none
  | k + 1, ring, n =>
    if ringFits ring true n then some (ring, 0)
    else match dropNewest ring with
      | none => none
      | some ring' => (displace k ring' n).map fun (r, d) => (r, d + 1)

/-- Counts dropped events (R580). -/
def Evr.drop (v : Evr) (n : Nat) : Evr := { v with lostRing := sat 0xFFFF (v.lostRing + n), dropped := v.dropped + n }

/-- A record with its extensions enters the staging ring, or is dropped (R573, R580). -/
def Evr.enter (v : Evr) (unit : List Rec) (retained : Bool) : Evr :=
  let n := unit.length
  if retained then
    match displace 129 v.ring n with
    | some (ring, d) => { (v.drop d) with ring := ring ++ numberFrom v.next unit, next := v.next + n }
    | none => v.drop 1
  else if ringFits v.ring false n then { v with ring := v.ring ++ numberFrom v.next unit, next := v.next + n }
  else v.drop 1

/-- The record enters with its snapshots (R574, R575). -/
def State.push (s : State) (r : Rec) : State :=
  let sets := s.matchingSets r.code
  let unit := { r with exts := sets.length, since := s.el } :: sets.map s.snapshot
  { s with evr := s.evr.enter unit r.isRetained }

/-! Flood control (R578, R579) -/

/-- Tokens of a bucket brought up to the elapsed time. -/
def Bucket.refill (b : Bucket) (rate burst el : Nat) : Bucket :=
  { b with tokens := min (burst * 1000000000) (b.tokens + rate * (el - b.upTo)), upTo := el }

/-- The bucket is free: full, nothing suppressed, and not shared (R579). -/
def Bucket.free (b : Bucket) (burst : Nat) : Bool :=
  b.tokens ≥ burst * 1000000000 && b.supp = 0 && b.codes.length ≤ 1

/-- The index of the bucket that serves a code: its own, else the lowest free one, else 1,023 (R579).
DEDUCED, log entry 49, unsafe. -/
def bucketOf (bs : SMap Bucket) (code : Nat) : Nat :=
  match bs.find? fun e => e.2.codes.contains code with
  | some e => e.1
  | none =>
    match (List.range 1024).find? fun i => (mapFind bs i).isNone with
    | some i => i
    | none => 1023

/-- The station time of the last occurrence that a record stands for (R572). -/
def Rec.lastTime (r : Rec) : Nat := if r.count > 1 then r.last else r.time

/-- One event of a code passes a bucket: whether it is recorded, and the bucket after. -/
def Bucket.take (b : Bucket) (r : Rec) (el : Nat) : Bool × Bucket :=
  if b.tokens ≥ 1000000000 then (true, { b with tokens := b.tokens - 1000000000 })
  else if b.supp = 0 then
    (false, { b with
      supp := r.count, firstCode := r.code, first := r.time, last := r.lastTime, firstAt := r.born, lastAt := el })
  else (false, { b with supp := b.supp + r.count, last := r.lastTime, lastAt := el })

/-- Flood control of a TRL3640: the record, if the code's bucket holds a token. -/
def State.tokenControl (s : State) (r : Rec) : State :=
  let rate := fld (s.reg .evrFlood) 15 8
  let burst := fld (s.reg .evrFlood) 7 0
  let bs := (mapAll {} s.evr.buckets fun _ b => b.refill rate burst s.el).filter fun e => !e.2.free burst
  let i := bucketOf bs r.code
  let b : Bucket := match mapFind bs i with
    | some b => if b.codes.contains r.code then b else { b with codes := b.codes ++ [r.code] }
    | none => { codes := [r.code], tokens := burst * 1000000000, upTo := s.el }
  let (ok, b') := b.take r s.el
  let s' := { s with evr := { s.evr with buckets := mapSet {} bs i b' } }
  if ok then s'.push r else s'

/-- Adds the occurrences of event `x` to the record with SEQ `q`. -/
def foldInto (ring : List Rec) (q : Nat) (x : Rec) : List Rec :=
  ring.map fun r => if r.seq = q then { r with count := r.count + x.count, last := x.lastTime } else r

/-- Flood control of a TRL3620: an event with the held record's code is folded into it within 1 s; during a
flush none is held (R578, R583).
DEDUCED, log entry 49, unsafe. -/
def State.holdControl (s : State) (r : Rec) : State :=
  let fresh : State :=
    let s' := s.push r
    { s' with evr := { s'.evr with held := if s'.evr.next = s.evr.next ∨ s.evr.flushing then none else some s.evr.next } }
  match s.evr.held with
  | none => fresh
  | some q =>
    match s.evr.ring.find? fun x => x.seq = q with
    | some h =>
      if h.code = r.code ∧ s.el < h.born + 1000000000 ∧ h.count + r.count ≤ 65535 then
        { s with evr := { s.evr with ring := foldInto s.evr.ring q r } }
      else fresh
    | none => fresh

/-- An event enters the recorder: retained classes pass, every other record passes the flood control of the part type
(R577). Events of a part whose recorder is not up yet wait in the ring. -/
def State.intake (s : State) (r : Rec) : State :=
  if r.isRetained then
    let s' := s.push r
    { s' with evr := { s'.evr with held := none } }
  else if s.fuses.small then s.holdControl r
  else s.tokenControl r

/-- An event happens: class, source, reason, slice, engine and detail. DESIGN CHOICE, log entry 46, unsafe. -/
def State.event (s : State) (cls src reason : Nat) (slice : Nat := 0) (engine : Nat := 0xFF) (detail : Bytes := []) :
    State :=
  s.intake (s.mkRec (eventCode cls src reason) slice engine detail)

/-- A configuration event of a block (R635). -/
def State.configEvent (s : State) (src : Nat) (slice : Nat := 0) (detail : Bytes := []) : State :=
  s.event 0xA src 0 slice 0xFF detail

/-- The source number of the block that owns a BAR0 offset, for its configuration events. -/
def blockSrc (off : Nat) : Nat :=
  if 0x1000000 ≤ off then srcSlice ((off - 0x1000000) / 0x10000)
  else match off / 0x10000 with
  | 0x0 => srcSys | 0x1 => srcPwr | 0x2 => srcTim | 0x3 => srcNvm | 0x4 => srcLcs | 0x5 => srcDbg | 0x6 => 15
  | 0x7 => srcRng | 0x8 => srcKey | 0x9 => srcSch | 0xA => srcEvr | 0xB => srcMp | 0xC => srcHif | _ => srcCmc

/-! The fault aggregator (R576) -/

/-- The event of a closed window: the first report with the number of reports and the time of the last. -/
def Window.emitted (w : Window) : Rec :=
  { w.rcd with aggregated := true, last := if w.rcd.count > 1 then w.rcd.last else 0 }

/-- Closes the window of a unit and cause and emits its event. -/
def State.closeWindow (s : State) (unit cause : Nat) : State :=
  match s.evr.windows.find? fun w => w.unit = unit && w.cause = cause with
  | none => s
  | some w =>
    let s' := { s with evr := { s.evr with
      windows := s.evr.windows.filter fun x => !(x.unit = unit && x.cause = cause) } }
    s'.intake w.emitted

/-- A fault report about `unit` with `cause`: it opens a window of 100 µs or is counted in the open one. -/
def State.report (s : State) (unit cause : Nat) (r : Rec) : State :=
  let s := match s.evr.windows.find? fun w => w.unit = unit && w.cause = cause with
    | some w => if s.el ≥ w.opened + 100000 then s.closeWindow unit cause else s
    | none => s
  match s.evr.windows.find? fun w => w.unit = unit && w.cause = cause with
  | none =>
    { s with evr := { s.evr with
      windows := s.evr.windows ++ [{ unit := unit, cause := cause, opened := s.el, rcd := r }] } }
  | some _ =>
    { s with evr := { s.evr with
      windows := s.evr.windows.map fun w =>
        if w.unit = unit && w.cause = cause then
          { w with rcd := { w.rcd with count := sat 65535 (w.rcd.count + 1), last := s.now } }
        else w } }

/-- A unit fault report of an engine, with its cause and further detail bytes (R571 class 0x2 reason 1, R576). -/
def State.reportUnit (s : State) (e cause slice : Nat) (more : Bytes := []) : State :=
  s.report (srcEngine e) cause
    (s.mkRec (eventCode 2 (srcEngine e) 1) slice e (leBytes 2 cause ++ leBytes 2 e ++ more))

end Sys2Proof.Machine
end

