-- ==== Sys2Proof/Machine/Context.lean ====
section
/-! DEFINITION. Context memory as the fabric sees it: reads and their failures, the groups that an access initialises, writes
and what lies in the memory devices (R37, R331, R337, R404 to R412). Data blocks hold 512 bytes, groups 31 data blocks
(R406). The words of the kernel stores (R345). -/

namespace Sys2Proof.Machine

/-- The channel of a data block: 0 DDRA, 1 DDRB (R406). -/
def State.blockChannel (s : State) (b : Nat) : Nat := if s.cmc.chB.active then b / 31 % 2 else 0

/-- A read of data block `b` fails: counted, its address kept, and reported through the aggregator, by the CMC where the
tag check fails and by the channel where the error is uncorrectable (R409, R410, R571, R576). -/
def State.readFails (s : State) (b : Nat) : State :=
  let s := { s with cmc := { s.cmc with integ := sat 0xFFFF (s.cmc.integ + 1), errAddr := b * 512 } }
  let (src, cause) := if s.cmc.badTag.contains b then (srcCmc, 1) else (srcDdr (s.blockChannel b), 2)
  s.report src cause (s.mkRec (eventCode 3 src 1) 0 0xFF (leBytes 2 cause ++ leBytes 2 src ++ zeros 4 ++ leBytes 8 (b * 512)))

/-! Reads -/

/-- `n` bytes of context memory from logical address `a`. DESIGN CHOICE, log entry 66, safe. -/
def State.cmcBytes (s : State) (a n : Nat) : Bytes :=
  let l := s.cmc.cells.filter fun c => decide (a ≤ c.1) && decide (c.1 < a + n)
  (List.range n).map fun i => (mapFind l (a + i)).getD 0

/-- The first data block that the range meets and that fails its check (R409, R410). -/
def State.badBlock (s : State) (a n : Nat) : Option Nat :=
  s.cmc.bad.find? fun b => decide (b * 512 < a + n) && decide (a < b * 512 + 512)

def State.cmcBad (s : State) (a n : Nat) : Bool := (s.badBlock a n).isSome

/-- A read of the range is noted if it fails. DESIGN CHOICE, log entry 29, unsafe. -/
def State.noteRead (s : State) (a n : Nat) : State :=
  match s.badBlock a n with
  | some b => s.readFails b
  | none => s

/-! Groups (R411) -/

/-- Groups of the usable capacity. -/
def State.groups (s : State) : Nat := s.cmc.usable / 15872

/-- Groups of the range that neither the overwrite nor an earlier access has initialised. -/
def State.freshGroups (s : State) (a n : Nat) : List Nat :=
  if s.cmc.ovwDone || n = 0 then []
  else ((List.range ((a + n - 1) / 15872 + 1 - a / 15872)).map (· + a / 15872)).filter fun g =>
    decide (s.cmc.done ≤ g) && !s.cmc.onDemand.contains g

/-- The access waits: the table of groups initialised out of order is full. -/
def State.groupsWait (s : State) (a n : Nat) : Bool :=
  (s.freshGroups a n) ≠ [] && decide (s.cmc.onDemand.length + (s.freshGroups a n).length > 4096)

/-- The data blocks for which `p` holds are rewritten with their tags: their reads pass again (R409, R411). -/
def Cmc.rewritten (c : Cmc) (p : Nat → Bool) : Cmc :=
  { c with bad := c.bad.filter fun b => !p b, badTag := c.badTag.filter fun b => !p b }

/-- The access initialises the groups it needs. DESIGN CHOICE, log entry 66, safe. -/
def State.openGroups (s : State) (a n : Nat) : State :=
  let fresh := s.freshGroups a n
  { s with cmc := { s.cmc with onDemand := s.cmc.onDemand ++ fresh }.rewritten fun b => fresh.contains (b / 31) }

/-- Bytes written to context memory, zeros not listed. -/
def putCells (l : List Cell) (a : Nat) : Bytes → List Cell
  | [] => l
  | b :: r => putCells (mapSet 0 l a b) (a + 1) r

/-- `b` is written at logical address `a`; a write of any size rewrites each data block it meets, and its tag (R409).
DESIGN CHOICE, log entry 29, unsafe. -/
def State.cmcWrite (s : State) (a : Nat) (b : Bytes) : State :=
  let s := s.openGroups a b.length
  { s with cmc := { s.cmc with cells := putCells s.cmc.cells a b }.rewritten fun k =>
      decide (k * 512 < a + b.length) && decide (a < k * 512 + 512) }

/-! The internal region (R407, R409) -/

/-- The first bytes of the general save areas, of the CDE save areas and of the traversal states: the holders of R407
lie in the order of its table. DESIGN CHOICE, log entry 29, unsafe. -/
def State.regionStarts (s : State) : Nat × Nat × Nat :=
  if s.fuses.small then (192 * 2 ^ 20, 208 * 2 ^ 20, 217 * 2 ^ 20) else (320 * 2 ^ 20, 336 * 2 ^ 20, 351 * 2 ^ 20)

/-- Save areas of a kind, and the reserve of that kind (R226). -/
def State.saveAreas (s : State) (cde : Bool) : Nat × Nat :=
  if cde then (if s.fuses.small then (6, 3) else (10, 5)) else (512, if s.fuses.small then 35 else 66)

/-- Where session context `i`, save area `k` of a kind, the scratch area of CDE `e` and traversal state `k` lie: first byte
and length. -/
def contextPlace (i : Nat) : Nat × Nat := (256 * i, 256)
def State.areaPlace (s : State) (cde : Bool) (k : Nat) : Nat × Nat :=
  if cde then (s.regionStarts.2.1 + k * 2 ^ 19, 2 ^ 19) else (s.regionStarts.1 + k * 2 ^ 15, 2 ^ 15)
def State.scratchPlace (s : State) (e : Nat) : Nat × Nat :=
  (s.regionStarts.2.1 + (s.saveAreas true).1 * 2 ^ 19 + ((enginesOf .cde).takeWhile (· < e)).length * 2 ^ 21, 2 ^ 21)
def State.treePlace (s : State) (k : Nat) : Nat × Nat := (s.regionStarts.2.2 + k * 2 ^ 16, 2 ^ 16)

/-- CMX reads a place of the internal region, or writes it: the groups it meets are initialised first, and a write rewrites
its data
blocks (R409, R411). -/
def State.readPlace (s : State) (p : Nat × Nat) : State := s.openGroups p.1 p.2
def State.writePlace (s : State) (p : Nat × Nat) : State :=
  let s := s.openGroups p.1 p.2
  { s with cmc := s.cmc.rewritten fun b => decide (b * 512 < p.1 + p.2) && decide (p.1 < b * 512 + 512) }

/-- The step whose save image lies in save area `k` of a kind cannot be restored (R409). -/
def State.imageFails (s : State) (cde : Bool) (k b : Nat) : State :=
  let here := fun (a : SaveArea) => decide (a.cde = cde) && decide (a.num = k)
  match s.sch.jobs.find? fun (_, x) => x.areas.any here with
  | some (j, _) => s.onJob j fun x => { x with areas := x.areas.map fun a => if here a then { a with bad := some b } else a }
  | none => s

/-- What block `b` of the internal region holds can no longer be read: two session contexts, a save image, or a traversal
state, which is rebuilt (R407, R409). DESIGN CHOICE, log entry 29, unsafe. -/
def State.internalFails (s : State) (b : Nat) : State :=
  let a := b * 512
  let (general, cde, trees) := s.regionStarts
  let lose := fun (s : State) (i : Nat) => s.onSession i fun y =>
    if y.st = .free ∨ s.kmg.sessCache.contains i then y else { y with unread := true }
  if a < general - 64 * 2 ^ 20 then lose (lose s (2 * b)) (2 * b + 1)
  else if general ≤ a ∧ a < cde then s.imageFails false ((a - general) / 2 ^ 15) b
  else if cde ≤ a ∧ a < cde + (s.saveAreas true).1 * 2 ^ 19 then s.imageFails true ((a - cde) / 2 ^ 19) b
  else if trees ≤ a ∧ a < trees + 2 ^ 28 then s.onRecord ((a - trees) / 2 ^ 16) fun r => { r with built := false }
  else s

/-! Errors of the memory (R409, R410) -/

/-- The CMC counts a correction of a channel (R410). -/
def State.countCorrection (s : State) (ch : Nat) : State :=
  let f := fun (c : Channel) => { c with corr := sat 0xFFFF (c.corr + 1) }
  { s with cmc := if ch = 0 then { s.cmc with chA := f s.cmc.chA } else { s.cmc with chB := f s.cmc.chB } }

/-- One correction of a channel: counted and recorded (R410). -/
def State.correction (s : State) (ch : Nat) : State := (s.countCorrection ch).event 3 (srcDdr ch) 0

/-- A read finds data block `b` failing from now on: an uncorrectable error, or with `tag` a tag that does not match alone
(R409, R410). -/
def State.blockFails (s : State) (b : Nat) (tag : Bool) : State :=
  let ch := s.blockChannel b
  let f := fun (c : Channel) => if tag then c else { c with uncorr := sat 0xFFFF (c.uncorr + 1) }
  let c := if ch = 0 then { s.cmc with chA := f s.cmc.chA } else { s.cmc with chB := f s.cmc.chB }
  let with_ := fun (l : List Nat) => if l.contains b then l else l ++ [b]
  let s := { s with cmc := { c with
    bad := with_ s.cmc.bad, badTag := if tag then with_ s.cmc.badTag else s.cmc.badTag.filter (· ≠ b) } }
  (s.readFails b).internalFails b

/-- A word of the kernel stores: loaded from a package, else the vendor ROM image.
DESIGN CHOICE, log entry 24, safe. -/
def State.kernelWord (s : State) (a : Nat) : BitVec 36 :=
  (mapFind s.code.kernel a).getD (if a < 0x2C00 then Config.romKernelWord a else 0)

/-- The contents of word `a` of the kernel stores are known: the vendor ROM image is not published (R299). -/
def State.wordKnown (s : State) (a : Nat) : Bool := (mapFind s.code.kernel a).isSome || a ≥ 0x2C00

/-- Word `a` of the kernel stores is `w`, as far as its contents are known. -/
def State.wordIs (s : State) (a : Nat) (w : BitVec 36) : Bool := !s.wordKnown a || s.kernelWord a = w

/-- The 12 constant rows of a VCE, loaded from the tables in the vendor kernel range (R297, R345). -/
def State.loadConsts (s : State) (e : Nat) : State :=
  if clsOf e ≠ .vce then s
  else
    let at_ := Config.constTable % (0x2C00 - 1536)
    s.onVce e fun v => (List.range 12).foldl (fun (v : Vce) i =>
      let bits := (List.range 128).foldr (fun l a =>
        (s.kernelWord (at_ + 128 * i + l)).toNat * 2 ^ (36 * l) + a) 0
      { v with rows := mapInsert v.rows (372 + i) { bits := BitVec.ofNat 4608 bits } }) v

/-! What the memory devices hold (R37, R406, R408, R409) -/

/-- Multiplication of an XTS tweak by α, the tweak as a little-endian number of 128 bits (IEEE 1619). -/
def xtsDouble (t : Nat) : Nat := Nat.xor (2 * t % 2 ^ 128) (if t < 2 ^ 127 then 0 else 0x87)

/-- XTS of the blocks of a data unit under the pair of keys, from tweak value `t` on. -/
def xtsBlocks (k1 : Bytes) : Nat → Nat → Bytes → Bytes
  | 0, _, _ => []
  | n + 1, t, p =>
    let tb := leBytes 16 t
    xorBytes (fit 16 (Config.aesBlock k1 (xorBytes (p.take 16) tb))) tb ++ xtsBlocks k1 n (xtsDouble t) (p.drop 16)

/-- The ciphertext of data block `b`, whose tweak is its logical block number (R408). -/
def xtsBlock (key : Bytes) (b : Nat) (plain : Bytes) : Bytes :=
  xtsBlocks (key.take 32) (plain.length / 16) (leVal (fit 16 (Config.aesBlock (cut key 32 32) (leBytes 16 b)))) plain

/-- The tag of data block `b` (R409). -/
def blockTag (key : Bytes) (b : Nat) (cipher : Bytes) : Bytes :=
  fit 16 (Config.kmac 1 (cut key 64 32) (leBytes 8 b ++ cipher) 16 (ascii "TRL-CMT"))

/-- The group of a data block as its channel numbers it, and where the block and its tag lie on that channel (R406). -/
def State.channelGroup (s : State) (b : Nat) : Nat := if s.cmc.chB.active then b / 31 / 2 else b / 31
def State.blockPlace (s : State) (b : Nat) : Nat := 16384 * s.channelGroup b + 512 * (b % 31)
def State.tagPlace (s : State) (b : Nat) : Nat := 16384 * s.channelGroup b + 15872 + 16 * (b % 31)

/-- The plaintext of data block `b` of the internal region: what its holder keeps there (R407). DESIGN CHOICE, log entry 29,
unsafe. -/
def State.regionBlock (s : State) (b : Nat) : Bytes :=
  let a := b * 512
  let (general, cde, trees) := s.regionStarts
  let scratch := cde + (s.saveAreas true).1 * 2 ^ 19
  let saved := fun (c : Bool) (k : Nat) => s.sch.jobs.find? fun (_, x) => x.areas.any fun y => y.cde = c && y.num = k
  let image := fun (c : Bool) (k : Nat) => match saved c k with
    | some (j, _) => match mapFind s.cmc.saves j with
      | some v => Config.imageBytes v
      | none => ((mapFind s.cmc.buffers j).map Config.bufferBytes).getD []
    | none => []
  if a < general - 64 * 2 ^ 20 then
    fit 256 (Config.contextBytes (s.session (2 * b))) ++ fit 256 (Config.contextBytes (s.session (2 * b + 1)))
  else if a < general then fit 512 (Config.tableBlock s.sch.jobs ((a - (general - 64 * 2 ^ 20)) / 512))
  else if a < cde then fit 512 ((image false ((a - general) / 2 ^ 15)).drop ((a - general) % 2 ^ 15))
  else if a < scratch then fit 512 ((image true ((a - cde) / 2 ^ 19)).drop ((a - cde) % 2 ^ 19))
  else if a < trees then
    match (enginesOf .cde)[(a - scratch) / 2 ^ 21]?.bind fun e => (s.engine e).running with
    | some (j, _) => fit 512 ((mapGet ([], 0) s.cmc.scratch j).1.drop ((a - scratch) % 2 ^ 21))
    | none => zeros 512
  else match mapFind s.kmg.stf ((a - trees) / 2 ^ 16) with
    | some r => if r.built then fit 512 ((Config.treeBytes r).drop ((a - trees) % 2 ^ 16)) else zeros 512
    | none => zeros 512

/-- What the devices hold of data block `b`, its ciphertext and its tag, once its group is written under the key of this
boot; none before, or where the block no longer passes its check (R37, R408, R409, R411). -/
def State.deviceBlock (s : State) (b : Nat) : Option (Bytes × Bytes) :=
  if !s.cmc.ready || s.cmc.bad.contains b || decide (s.cmc.usable ≤ b * 512) || (s.freshGroups (b * 512) 512) ≠ [] then none
  else
    let c := xtsBlock s.cmc.key b (if b * 512 < s.cmc.internal then s.regionBlock b else s.cmcBytes (b * 512) 512)
    some (c, blockTag s.cmc.key b c)

/-- The tag block of group `g`: the tag of data block j of the group at bytes 16j, and 16 bytes of zeros (R406); the tag of a
block
that fails its check is not known. -/
def State.tagBlock (s : State) (g : Nat) : List (Option Bytes) :=
  (List.range 31).map (fun j => (s.deviceBlock (31 * g + j)).map Prod.snd) ++ [some (zeros 16)]

/-! Words that a kernel scatters (R331, R337) -/

/-- The 8-byte word at address `a` as job `x` sees it: its own scatters, and none of a job whose entry was not issued before
`x` started; none where its read fails (R331, R332, R337). -/
def State.wordSeen (s : State) (x : Job) (a : Nat) : Option Nat :=
  match mapFind x.scat a with
  | some w => some w
  | none =>
    match mapFind x.shadow a with
    | some w => some w
    | none => if s.cmcBad a 8 then none else some (leVal (s.cmcBytes a 8))

/-- A started job of slice `n` goes on with the word `o` that it saw at `a`, whatever is written there (R334, R337). -/
def Job.keepWord (y : Job) (n a o : Nat) : Job :=
  if y.slice = n && y.started && decide (y.stage ≠ .done) && (mapFind y.shadow a).isNone then
    { y with shadow := mapInsert y.shadow a o }
  else y

/-- The word `w` at address `a` that job `x` scattered is in context memory, as its entry is issued; the jobs of its slice
that have started go on with what they saw (R337). -/
def State.commitWord (s : State) (x : Job) (a w : Nat) : State :=
  let jobs := match s.wordSeen {} a with
    | some o => s.sch.jobs.map fun y => (y.1, y.2.keepWord x.slice a o)
    | none => s.sch.jobs
  { s with sch := { s.sch with jobs := jobs } }.cmcWrite a (leBytes 8 w)

/-- The words that job `x` has scattered, as its entry is issued (R337). -/
def State.commitScatter (s : State) (x : Job) : State :=
  x.scat.foldl (fun (s : State) (w : Nat × Nat) => s.commitWord x w.1 w.2) s

end Sys2Proof.Machine
end

