-- ==== Sys2Proof/Machine/Wear.lean ====
section
/-! DEFINITION. Wear of NVM blocks: erase counts, wear levelling, the pool of spare blocks and its levels, and the spare
records (R42, R636 to R638, R640, R643). The partitions are those of `nvmBlocks`. -/

namespace Sys2Proof.Machine

/-- A worn or failed block is retired, recorded, and replaced by a spare block while the pool may serve its partition, which loses
it otherwise: its count stands at the limit. POOL_LOW is recorded at 16 blocks and EXHAUSTED at 0 (R637, R643, R644).
DESIGN CHOICE, log entry 83, unsafe. -/
def State.retireBlock (s : State) (part block : Nat) : State :=
  let left := s.nvm.pool
  let k := nvmBlock part block
  let s := s.event 0xE srcNvm 7
  if left = 0 ∨ (left ≤ 8 ∧ part ≠ 4) then { s with nvm := { s.nvm with erases := mapSet 0 s.nvm.erases (s.nvm.place k) 1000000 } }
  else
    let s := { s with nvm := { s.nvm.takeSpare with
      erases := mapErase s.nvm.erases (s.nvm.place k), blockMap := mapSet k s.nvm.blockMap k s.nvm.nextSpare } }
    let s := if left - 1 = 16 then s.event 0xE srcNvm 4 else s
    if left - 1 = 0 then s.event 0xE srcNvm 5 else s

/-- Wear levelling, R640: the block just erased and the least-erased other block of its partition, which holds unchanging
data, change places where their counts differ by more than 50,000. The data go to the erased place, then the block map
entries are programmed, then the place they left is erased. DESIGN CHOICE, log entry 83, unsafe. -/
def State.level (s : State) (part block : Nat) : State :=
  let k := nvmBlock part block
  let v := s.nvm
  if v.count k ≤ 50000 then s
  else
    match leastBy v.count (((List.range (nvmBlocks s.mpInService part)).map (nvmBlock part)).filter (· ≠ k)) with
    | some i =>
      if v.count i + 50000 < v.count k then
        ({ s with nvm := { v with
          blockMap := mapSet k (mapSet i v.blockMap i (v.place k)) k (v.place i)
          erases := mapSet 0 v.erases (v.place i) (v.count i + 1) } }).event 0xE srcNvm 7
      else s
    | none => s

/-- One block of a partition is erased; at 1,000,000 erases it is retired (R637), before that levelled (R640). A lost
block is not used again. -/
def State.eraseBlock (s : State) (part block : Nat) : State :=
  let k := nvmBlock part block
  let n := s.nvm.count k
  if n ≥ 1000000 then s
  else
    let s := { s with nvm := { s.nvm with erases := mapSet 0 s.nvm.erases (s.nvm.place k) (n + 1) } }
    if n + 1 = 1000000 then s.retireBlock part block else s.level part block

/-- The blocks of a list are erased in order. -/
def State.eraseBlocks (s : State) (part : Nat) (blocks : List Nat) : State :=
  blocks.foldl (fun s b => s.eraseBlock part b) s

/-- Stateful key records that `gone` names are erased, and with them the blocks that held them, 32 records each
(R449, R451, R452). DESIGN CHOICE, log entry 76, unsafe. -/
def State.dropRecords (s : State) (gone : Nat → StfRecord → Bool) : State :=
  let blocks := (List.range 128).filter fun b => s.kmg.stf.any fun e => decide (e.1 / 32 = b) && gone e.1 e.2
  ({ s with kmg := { s.kmg with stf := mapKeep s.kmg.stf fun i r => !gone i r } }).eraseBlocks 3 blocks

/-- The live contents of the root records partition, of its records those in `keep`, are copied into a spare block, and the
block map entry is switched: the old block is unreferenced (R417, R529). With no spare left the block is erased in its place.
DESIGN CHOICE, log entry 76, unsafe. -/
def State.copyRoots (s : State) (keep : SMap Bytes) : State :=
  let k := nvmBlock 4 0
  if s.nvm.pool = 0 then ({ s with kmg := { s.kmg with roots := keep } }).eraseBlock 4 0
  else
    { s with
      kmg := { s.kmg with roots := keep }
      nvm := { s.nvm.takeSpare with
        blockMap := mapSet k s.nvm.blockMap k s.nvm.nextSpare, unref := some (s.nvm.place k, s.kmg.roots) } }

/-- The unreferenced root block is erased and goes back to the pool; at 1,000,000 erases it is retired (R529, R535, R637).
DESIGN CHOICE, log entry 76, unsafe. -/
def State.eraseUnref (s : State) : State :=
  match s.nvm.unref with
  | none => s
  | some (p, _) =>
    let n := mapGet 0 s.nvm.erases p + 1
    let s := { s with nvm := { s.nvm with unref := none } }
    if n ≥ 1000000 then ({ s with nvm := { s.nvm with erases := mapErase s.nvm.erases p } }).event 0xE srcNvm 7
    else { s with nvm := { s.nvm with erases := mapSet 0 s.nvm.erases p n, freed := s.nvm.freed ++ [p] } }

/-- Every root record is erased in the manner of step 4 of R529, where there is one, and an unreferenced root block with them
(R532, R553). -/
def State.eraseRoots (s : State) : State :=
  let s := s.eraseUnref
  if s.kmg.roots = [] then s else (s.copyRoots []).eraseUnref

/-! Package slots (R383, R386, R387) -/

/-- Slot size of a package type in bytes (R383). -/
def pkgSlot (type_ : Nat) : Nat :=
  1024 * match type_ with
    | 1 => 80 | 2 => 48 | 4 => 256 | _ => 96

/-- First block of the two slots of a type, which follow each other in the order of R383. DESIGN CHOICE, log entry 76,
unsafe. -/
def slotFirst (type_ : Nat) : Nat := ((List.range type_).map fun t => if t = 0 then 0 else 2 * (pkgSlot t / 4096)).sum

/-- The blocks of slot `side` of a type. -/
def slotBlocks (type_ side : Nat) : List Nat :=
  let n := pkgSlot type_ / 4096
  (List.range n).map fun i => slotFirst type_ + n * side + i

/-- The side of the active slot, and of the pending one. -/
def State.activeSide (s : State) (type_ : Nat) : Nat := mapGet 0 s.code.side type_
def State.pendingSide (s : State) (type_ : Nat) : Nat := 1 - s.activeSide type_

/-- The pending package of a type is erased. -/
def State.erasePending (s : State) (type_ : Nat) : State :=
  if (mapFind s.code.pending type_).isNone then s
  else
    ({ s with code := { s.code with pending := mapErase s.code.pending type_ } }).eraseBlocks 5
      (slotBlocks type_ (s.pendingSide type_))

/-- The active package of a type is erased. -/
def State.eraseActive (s : State) (type_ : Nat) : State :=
  if (mapFind s.code.active type_).isNone then s
  else
    ({ s with code := { s.code with active := mapErase s.code.active type_ } }).eraseBlocks 5
      (slotBlocks type_ (s.activeSide type_))

/-- Both packages of a type are erased. -/
def State.erasePackages (s : State) (type_ : Nat) : State := (s.eraseActive type_).erasePending type_

/-- The pending package of a type becomes active, and the one it replaces is erased (R387). -/
def State.switchPackage (s : State) (type_ : Nat) : State :=
  match mapFind s.code.pending type_ with
  | none => s
  | some p =>
    let side := s.pendingSide type_
    let s := s.eraseActive type_
    { s with code := { s.code with
      active := mapInsert s.code.active type_ p, pending := mapErase s.code.pending type_
      side := mapSet 0 s.code.side type_ side } }

/-! Spare records (R42, R638) -/

/-- The engine map as the spare records show it: a quarantined unit is an ACTIVE one under test. -/
def State.mapNow (s : State) : List (UnitSt × Nat) :=
  allEngines.map fun e =>
    let x := s.engine e
    (if x.unit = .quarantined then .active else x.unit, x.logical)

/-- The steward programs the engine map into the spare records, valid mark last (R638). A retirement that waits for its
spare is not in it. DEDUCED, log entry 84, unsafe. -/
def State.recordMap (s : State) : State :=
  ({ s with nvm := { s.nvm with spareRecs := some s.mapNow } }).eraseBlock 8 0

/-- State and logical number of physical engine `e` at a start: from the spare records, or from the map fused at test
where none can be read (R42). -/
def State.unitAtStart (s : State) (bad : Bool) (e : Nat) : UnitSt × Nat :=
  match (if bad then none else s.nvm.spareRecs) with
  | some l => l.getD e (.absent, 0xFF)
  | none => fusedUnit s.fuses.small e

/-- The steward loads SYS_ENGMAP (R42). -/
def State.loadMap (s : State) (bad : Bool) : State :=
  allEngines.foldl (fun (s : State) e => s.onEngine e fun x => { x with
    unit := (s.unitAtStart bad e).1, logical := (s.unitAtStart bad e).2 }) s

end Sys2Proof.Machine
end

