-- ==== Sys2Proof/Machine/Jobs.lean ====
section
/-! DEFINITION. What every job passes through: its state, the engines it holds, its completion, the release of its entry
and the writing of completion queues (R97 to R104, R197 to R206, R227 to R233). -/

namespace Sys2Proof.Machine

/-- The state of R197 of an admitted job, read from its stage and its steps. -/
def Job.state (x : Job) : JobState :=
  match x.stage with
  | .held => .held | .keyload => .keyload | .entropyWait => .entropyWait | .done => .done
  | .active =>
    if x.steps.any fun p => p.st = .running then .running
    else if x.steps.any fun p => p.st = .suspended then .suspended
    else if x.steps.any fun p => p.st = .staged then .staged
    else .ready

/-- Changes step `k` of a job. -/
def Job.onStep (x : Job) (k : Nat) (f : PStep → PStep) : Job := { x with steps := modifyAt x.steps k f }

/-- The engine on which a step of job `j` is running. -/
def State.runningOn (s : State) (j : Nat) : Option Nat :=
  allEngines.find? fun e => ((s.engine e).running.map (·.1)) = some j

/-- ENGINE of R97 for a job that completes now. -/
def State.engineValue (s : State) (j : Nat) (x : Job) : Nat :=
  match s.runningOn j with
  | some e => engineCode (clsOf e) (s.engine e).logical
  | none => if x.started then 0x7E else 0x7F

/-- The job running on engine `e` leaves RUNNING: its slice is charged (R213), the counters of R295 advance, and the
engine is idle from now. -/
def State.leaveRunning (s : State) (e : Nat) : State :=
  match (s.engine e).running with
  | none => s
  | some (j, _) =>
    let x := s.engine e
    let t := s.el - x.since
    let s := s.onEngine e fun x => { x with
      running := none, restEnd := 0, saving := false, stopReq := false, jobs := x.jobs + 1, busy := x.busy + engCycles t, idleAt := s.el }
    match s.job? j with
    | some jb => s.onSlice jb.slice fun y => { y with usage := mapUpd 0 y.usage (clsOf e).num (· + t) }
    | none => s

/-- The job staged on engine `e` leaves its slot, whose rows are frosted (R206, R49); its step is READY again. -/
def State.unstage (s : State) (e : Nat) : State :=
  match (s.engine e).incoming with
  | none => s
  | some (j, k) =>
    let a := 160 * (s.engine e).area
    let s := s.onEngine e fun x => { x with incoming := none, loaded := false }
    let s := if clsOf e = .vce then
        s.onVce e fun v => { v with rows := mapKeep v.rows fun n _ => n < a || a + 160 ≤ n }
      else s.onEngine e fun x => { x with next := {} }
    s.onJob j fun x => x.onStep k fun p =>
      { p with st := if p.restore then .suspended else .ready, engine := 0 }

/-- The lend that an HSE carries out for VCE `e` ends: the wait is abandoned, and a resumed job waits again (R372, R397). -/
def State.endLends (s : State) (e : Nat) : State :=
  (enginesOf .hse).foldl (fun (s : State) h =>
    if ((s.engine h).lend.map (·.1)) = some e then s.onEngine h fun x => { x with lend := none, lendIn := none } else s) s

/-- Frost of a whole engine (R281, R395): of a VCE, its vector state and local memory; of another unit, its working buffer and
key registers. -/
def State.frostEngine (s : State) (e : Nat) : State :=
  let s := s.onEngine e fun x => { x with restEnd := 0 }
  match clsOf e with
  | .vce => ({ s with vces := mapErase s.vces e }.onEngine e fun x => { x with build := none }).endLends e
  | _ => s.onEngine e fun x => { x with cur := {}, next := {}, lend := none, lendIn := none }

/-- The unit is QUARANTINED (R287, R377, R541, R551, R644). -/
def State.quarantine (s : State) (e : Nat) : State :=
  (s.onEngine e fun x => { x with unit := .quarantined }).event 0xE (srcEngine e) 1 0 e

/-- A quarantined unit is ACTIVE again (R644). -/
def State.returned (s : State) (e : Nat) : State :=
  (s.onEngine e fun x => { x with unit := .active, halted := false }).event 0xE (srcEngine e) 2 0 e

/-- A row of a shared array is marked: it is replaced at the next start (R639). -/
def State.markShared (s : State) (src : Nat) : State :=
  { s with nvm := { s.nvm with rows := mapUpd 0 s.nvm.rows src (· + 1) } }

/-- A running job of a VCE leaves (R282 step 2 and step 4): its vector state, the spill rows, its input area and the
rows of its stream are frosted; with `slot`, its result slot too. -/
def Vce.left (v : Vce) (slot : Bool) : Vce :=
  { rows := mapKeep v.rows fun n _ => !((320 ≤ n && n < 340) || (v.ctx.area ≤ n && n < v.ctx.area + 160) || n ≥ 1000
      || (slot && v.ctx.slot ≤ n && n < v.ctx.slot + 16)) }

/-- What the running job leaves in engine `e` is frosted: on an HSE, CDE, CLE or STE its half of the buffer with its key
registers (R682). -/
def State.frostJob (s : State) (e : Nat) (slot : Bool) : State :=
  match clsOf e with
  | .vce => (s.onVce e fun v => v.left slot).endLends e
  | _ => s.onEngine e fun x => { x with cur := {} }

/-- The result slot that job `j` holds on engine `e` is frosted and free (R280, R282 step 5). -/
def State.freeResult (s : State) (e j : Nat) : State :=
  match (s.engine e).results.find? fun r => decide (r.1 = j) with
  | none => s
  | some (_, k) =>
    let s := s.onEngine e fun x => { x with results := x.results.filter fun r => decide (r.1 ≠ j) }
    if clsOf e = .vce then
      s.onVce e fun v => { v with rows := mapKeep v.rows fun n _ => n < 340 + 16 * k || 356 + 16 * k ≤ n }
    else s

/-- The job running on engine `e` leaves it, its rows frosted. -/
def State.dropRunning (s : State) (e : Nat) : State := (s.leaveRunning e).frostJob e true

/-- Job `j` leaves the engines that hold it. Of a plan, the step that fails on an engine, `fails`, leaves it, and the other
running ones run on to their next safe points (R202). -/
def State.offEngines (s : State) (j : Nat) (fails : Option Nat := none) : State :=
  let plan := match s.job? j with | some x => decide (x.steps.length > 1) | none => false
  allEngines.foldl (fun s e =>
    let s := if ((s.engine e).incoming.map (·.1)) = some j then s.unstage e else s
    let s := if ((s.engine e).running.map (·.1)) = some j ∧ ((fails = none ∧ !plan) ∨ fails = some e) then s.dropRunning e else s
    s.freeResult e j) s

/-- What waits for job `j` lapses: its request for fresh entropy and its save image (R226, R476). -/
def State.lapse (s : State) (j : Nat) : State :=
  { s with
    rng := { s.rng with
      waiting := s.rng.waiting.filter fun r => match r with | .job i _ => decide (i ≠ j) | .root => true
      granted := s.rng.granted.filter (·.1 ≠ j) }
    cmc := { s.cmc with
      saves := mapErase s.cmc.saves j, buffers := mapErase s.cmc.buffers j, scratch := mapErase s.cmc.scratch j } }

/-- An earlier ordered job of the same flow is in the job table (R227). -/
def State.flowAhead (s : State) (j : Nat) (x : Job) : Bool :=
  x.desc.ordered && s.sch.jobs.any fun (i, y) =>
    decide (i < j) && y.desc.ordered && decide (y.slice = x.slice) && decide (y.desc.flow = x.desc.flow)

/-- An earlier job that reached DONE without an entry takes the next that frees (R229). -/
def State.rbOwed (s : State) (j : Nat) : Bool :=
  s.sch.jobs.any fun (i, y) => decide (i ≠ j) && decide (y.stage = .done) && !y.rbEntry && s.flowAhead i y

/-- The ordered job takes a release buffer entry if it needs one and one is free for it (R229). -/
def State.takeRb (s : State) (j : Nat) : State :=
  match s.job? j with
  | none => s
  | some x =>
    if x.rbEntry || !s.flowAhead j x then s
    else if s.rbUsed < 65536 ∧ !s.rbOwed j then s.putJob j { x with rbEntry := true }
    else s.event 1 srcSch 4 x.slice 0xFF (leBytes 1 x.slice)

/-- Job `j` completes with the result: it is DONE and stamped with station time (R96, R97, R198), and its entry waits for the
frost of what it leaves on engines (R49). `fails`: the engine on which it fails; a job that is done leaves that one too
(R202). -/
def State.finish (s : State) (j : Nat) (r : Result) (fails : Option Nat := none) : State :=
  match s.job? j with
  | none => s
  | some x =>
    if x.stage = .done then
      match fails with
      | some e => s.dropRunning e
      | none => s
    else
      let code := match fails with
        | some e => engineCode (clsOf e) (s.engine e).logical
        | none => s.engineValue j x
      let ran := (s.runningOn j).isSome
      let r := if r.status = .abortedTamper then { r with detail := max r.detail s.response } else r
      let s := (s.offEngines j fails).lapse j
      let s := s.onJob j fun x => { x with
        stage := .done, result := r, stamp := s.now, engineCode := code, frosted := !ran, computed := none
        areas := [], abort := none, stopReq := false, scratch := false, passed := [], drawn := false, rand := []
        seeds := [], blind := [], rawMask := [], needScratch := false, waitCommit := false, readAt := none
        steps := x.steps.map fun p => { p with st := .finished } }
      s.takeRb j

/-- A status without output. -/
def fail (st : Status) (detail : Nat := 0) : Result := { status := st, detail := detail }

/-! MSI-X (R53, R103, R654) -/

/-- The message of vector `v` is sent, or its pending bit set while it is masked. -/
def State.message (s : State) (v : Nat) : State :=
  let m := s.msix v
  if m.mask then { s with hif := { s.hif with pba := mapSet false s.hif.pba v true } }
  else s.emit (.message v (m.lo.toNat / 4 * 4 + 2 ^ 32 * m.hi.toNat) m.data)

/-- The state of slice `n` changes: with SLC_MVEC.EN the manager's vector is sent (R490).
DEDUCED, log entry 70, unsafe. -/
def State.signalManager (s : State) (n : Nat) : State :=
  if bitAt (s.reg (.mvec n)) 31 then s.message (fld (s.reg (.mvec n)) 10 0) else s

/-! Completion queues -/

/-- W6 with SQHEAD and W2 with PHASE put in (R96, R100). -/
def Entry.words' (x : Entry) (head : Nat) (phase : Bool) : List Word :=
  (List.range 8).map fun i =>
    let w := (x.words[i]?).getD 0
    if i = 6 then setField w 15 0 head else if i = 2 then setField w 31 31 (bitOf phase) else w

/-- After a write: the message of the CQ's vector when the moderation condition holds (R103). -/
def State.signal (s : State) (n q : Nat) (now : Bool) : State :=
  let cfg := s.reg (.cqCfg n q)
  let md := s.reg (.cqMod n q)
  let c := s.cq n q
  if !bitAt cfg 30 || c.unsig = 0 then s
  else if now || c.unsig ≥ fld md 23 16 || fld md 23 16 ≤ 1 then
    (s.onCq n q fun c => { c with unsig := 0 }).message (fld cfg 26 16)
  else s

/-- Writes entries into CQ `q` from TAIL on, each group within one aligned block of 128 bytes; after each write its message
goes where the write completes the condition (R100, R101, R103). -/
def State.writeEntries : Nat → State → Nat → Nat → List Entry → State
  | 0, s, _, _, _ => s
  | fuel + 1, s, n, q, es =>
    match es with
    | [] => s
    | _ =>
      let c := s.cq n q
      let size := s.cqSize n q
      let k := min es.length (min (4 - c.tail % 4) (size - c.tail))
      let base := s.pair (.cqBase n q)
      let now := (es.take k).any Entry.prot
      let grp := (es.take k).map fun x => x.words' (s.sq n x.sq).head c.phase
      let s := s.request (s.pasidOf n) (base + 32 * c.tail) (32 * k) (.cqWrite n q (s.pasidOf n) (base + 32 * c.tail) grp)
      let wrap := decide (c.tail + k ≥ size)
      let s := s.onCq n q fun c => { c with
        tail := if wrap then 0 else c.tail + k, phase := if wrap then !c.phase else c.phase, owed := c.owed - k
        unrel := c.unrel + k, sent := c.sent ++ es.take k
        oldest := if c.unsig = 0 then s.el else c.oldest, unsig := c.unsig + k }
      (s.signal n q now).writeEntries fuel n q (es.drop k)

/-- Writes everything gathered for a CQ that is not stopped. -/
def State.flushCq (s : State) (n q : Nat) : State :=
  let c := s.cq n q
  if c.err || c.gather.isEmpty then s
  else
    let s := s.onCq n q fun c => { c with gather := [] }
    s.writeEntries c.gather.length n q c.gather

/-- An entry is ready for CQ `q` (R101): it joins the group, and the group is written when it is full, when it ends at
the end of a block, so that the next entry falls in another, when gathering is off, or when its SQ is of protection
class. DEDUCED, log entry 67, unsafe. -/
def State.gatherEntry (s : State) (n q : Nat) (x : Entry) : State :=
  let c := s.cq n q
  let s := s.onCq n q fun c => { c with
    gather := c.gather ++ [x], since := if c.gather.isEmpty then s.el else c.since }
  let last := (c.tail + (s.cq n q).gather.length) % s.cqSize n q
  if x.prot || fld (s.reg .hifCoal) 10 0 = 0 || (s.cq n q).gather.length ≥ 4 || last % 4 = 0 then s.flushCq n q else s

/-- The mask of a group of 16 flags in the 64 flags of a slice (R88). -/
def flagMask (group : Nat) (m : BitVec 16) : BitVec 64 := BitVec.ofNat 64 (m.toNat * 2 ^ (16 * group))

/-- One holder of a slot lets go; a slot freed meanwhile is frosted with its last holder (R436). -/
def State.letGo (s : State) (i : Nat) : State :=
  s.onSlot i fun k =>
    if k.zombie ∧ k.holders ≤ 1 then { gen := k.gen } else { k with holders := k.holders - 1 }

/-- The job's entry can be issued: DONE, frosted, an entry of its own where it needs one, its flow's turn (R49, R227). -/
def State.releasable (s : State) (j : Nat) (x : Job) : Bool :=
  decide (x.stage = .done) && x.frosted && !s.flowAhead j x

/-- Issues the completion entry of job `j`: the entry goes to its CQ, flags are requested, its slot is let go, its
release buffer entry and its place in the job table are free (R198, R227, R233, R436). -/
def State.issue (s : State) (j : Nat) : State :=
  match s.job? j with
  | none => s
  | some x =>
    if !s.releasable j x then s
    else
      let reqs : List FlagReq :=
        (if x.desc.opc = 0x5010 ∧ x.desc.setev then
          [{ set := false, mask := flagMask x.desc.evgroup x.desc.evset }]
        else if x.desc.setev then [{ set := true, mask := flagMask x.desc.evgroup x.desc.evset }] else [])
      let s := s.onSlice x.slice fun y => { y with flagReqs := y.flagReqs ++ reqs }
      let s := match x.key with
        | some i => s.letGo i
        | none => s
      let s := ({ s with sch := { s.sch with jobs := mapErase s.sch.jobs j } }).commitScatter x
      s.gatherEntry x.slice x.cq x.entry

/-! Retirement (R289, R636 to R642) -/

/-- A change of every job, in order of admission. -/
def State.eachJob (s : State) (f : State → Nat → State) : State := (s.sch.jobs.map (·.1)).foldl f s

/-- No spare of the class is left: SYS_SPARE.SHORT (R641). -/
def State.classShort (s : State) (c : Cls) : State :=
  { s with nvm := { s.nvm with short := s.nvm.short ||| BitVec.ofNat 5 (2 ^ c.num) } }

/-- Jobs that need class `c` complete ENGINE_FAULT once it has no ACTIVE unit (R642).
DEDUCED, log entry 70, unsafe. -/
def State.classGone (s : State) (c : Cls) : State :=
  if s.activeUnits c > 0 ∨ (enginesOf c).any (fun e => (s.engine e).unit = .quarantined) then s
  else s.eachJob fun s j =>
    match s.job? j with
    | some x =>
      if x.stage ≠ .done ∧ x.steps.any fun p => decide (p.cls = some c) && decide (p.st ≠ .finished) then
        s.finish j (fail .engineFault)
      else s
    | none => s

/-- The unit is RETIRED by a criterion of R637; with no spare of its class left, its logical number stays unused
(R289, R641). -/
def State.retire (s : State) (e criterion : Nat) : State :=
  let c := clsOf e
  let s := (s.unstage e).frostEngine e
  let s := s.onEngine e fun x => { x with
    unit := .retired, gated := true, thawing := false, retiring := 0, results := [] }
  let s := s.event 0xE (srcEngine e) 3 0 e (leBytes 1 criterion)
  if s.spareUnits c > 0 then s
  else
    let s := (s.onEngine e fun x => { x with logical := 0xFF }).recordMap.event 0xE (srcEngine e) 5 0 e
    (s.classShort c).classGone c

/-- Units whose retirement was decided while they held a job or a result, and which have drained (R289).
DEDUCED, log entry 80, unsafe. -/
def State.retireDrained (s : State) : State :=
  allEngines.foldl (fun (s : State) (e : Nat) =>
    let x := s.engine e
    if x.retiring ≠ 0 && decide (x.unit = .active) && x.running.isNone && x.build.isNone && x.results.isEmpty then
      s.retire e x.retiring
    else s) s

end Sys2Proof.Machine
end

