-- ==== Sys2Proof/Machine/OpTable.lean ====
section
/-! DEFINITION. The operations of every family: sizes, plans, buffers, blocks, rights (R106, R107, R115, R141, R142,
R146, R150, R154, R161, R167, R172, R175, R182, R191, R192, R438, R517, R348), and algorithm identifiers (R420). -/

namespace Sys2Proof.Machine

/-! Sizes -/

/-- ML-KEM: ek, dk, c. -/
def mlkemSize (set : Nat) : Option (Nat × Nat × Nat) :=
  match set with
  | 2 => some (800, 1632, 768) | 3 => some (1184, 2400, 1088) | 4 => some (1568, 3168, 1568) | _ => none

/-- ML-DSA: public key, private key, signature. -/
def mldsaSize (set : Nat) : Option (Nat × Nat × Nat) :=
  match set with
  | 4 => some (1312, 2560, 2420) | 6 => some (1952, 4032, 3309) | 8 => some (2592, 4896, 4627) | _ => none

/-- SLH-DSA: n and the signature length (R131). -/
def slhSize (set : Nat) : Option (Nat × Nat) :=
  match set / 2 with
  | 0 => some (16, 7856) | 1 => some (16, 17088) | 2 => some (24, 16224) | 3 => some (24, 35664)
  | 4 => some (32, 29792) | 5 => some (32, 49856) | _ => none

/-- HQC: public key, private key, ciphertext (R141). -/
def hqcSize (set : Nat) : Option (Nat × Nat × Nat) :=
  match set with
  | 1 => some (2249, 2305, 4433) | 3 => some (4522, 4586, 8978) | 5 => some (7245, 7317, 14421) | _ => none

/-- Bytes drawn by HQC encapsulation (R116). -/
def hqcDraw (set : Nat) : Nat := if set = 1 then 32 else if set = 3 then 40 else 48

/-- Classic McEliece: public key, private key, ciphertext (R142). -/
def mceSize (set : Nat) : Option (Nat × Nat × Nat) :=
  match set / 2 with
  | 0 => some (261120, 6492, 96) | 1 => some (524160, 13608, 156) | 2 => some (1044992, 13932, 208)
  | 3 => some (1047319, 13948, 194) | 4 => some (1357824, 14120, 208) | _ => none

/-- A hybrid KEM set: ML-KEM set, curve, and the lengths of classical public key, private key and secret (R146). -/
structure HybridKem where
  kem   : Nat
  curve : Nat
  ek    : Nat
  dk    : Nat
  ct    : Nat
  pk    : Nat
  sk    : Nat
  ss    : Nat
  draw  : Nat
deriving DecidableEq, Repr

def hybridKem (set : Nat) : Option HybridKem :=
  match set with
  | 1 => some { kem := 3, curve := 5, ek := 1184, dk := 2400, ct := 1088, pk := 32, sk := 32, ss := 32, draw := 32 }
  | 2 => some { kem := 4, curve := 2, ek := 1568, dk := 3168, ct := 1568, pk := 97, sk := 48, ss := 48, draw := 56 }
  | _ => none

/-- A hybrid signature set (R150, R151). -/
structure HybridSig where
  dsa   : Nat
  curve : Nat
  pkM   : Nat
  skM   : Nat
  sigM  : Nat
  pkC   : Nat
  skC   : Nat
  sigC  : Nat
  draw  : Nat
deriving DecidableEq, Repr

def hybridSig (set : Nat) : Option HybridSig :=
  match set with
  | 1 => some { dsa := 4, curve := 1, pkM := 1312, skM := 2560, sigM := 2420, pkC := 65, skC := 32, sigC := 64
                draw := 40 }
  | 2 => some { dsa := 6, curve := 4, pkM := 1952, skM := 4032, sigM := 3309, pkC := 32, skC := 32, sigC := 64
                draw := 32 }
  | _ => none

/-- Elliptic curves: private key, public key, signature, shared secret, bytes drawn for a key (R161, R166). -/
structure Curve where
  sk   : Nat
  pk   : Nat
  sig  : Nat := 0
  ss   : Nat := 0
  draw : Nat
deriving DecidableEq, Repr

def curve (c : Nat) : Option Curve :=
  match c with
  | 1 => some { sk := 32, pk := 65, sig := 64, ss := 32, draw := 40 }
  | 2 => some { sk := 48, pk := 97, sig := 96, ss := 48, draw := 56 }
  | 3 => some { sk := 66, pk := 133, sig := 132, ss := 66, draw := 74 }
  | 4 => some { sk := 32, pk := 32, sig := 64, draw := 32 }
  | 5 => some { sk := 32, pk := 32, ss := 32, draw := 32 }
  | 6 => some { sk := 56, pk := 56, ss := 56, draw := 56 }
  | _ => none

/-- k of an RSA size in bytes (R167). -/
def rsaK (set : Nat) : Option Nat :=
  match set with
  | 1 => some 256 | 2 => some 384 | 3 => some 512 | _ => none

/-- Length of an RSA private key body (R167). -/
def rsaBodyLen (k : Nat) : Nat := k + 4 + 5 * (k / 2)

/-- Digest length of a SHA-2 or SHA-3 variant of R154, coded as HMAC codes it. -/
def hashLen (v : Nat) : Option Nat :=
  match v with
  | 0 => some 28 | 1 => some 32 | 2 => some 48 | 3 => some 64 | 4 => some 28 | 5 => some 32
  | 9 => some 28 | 10 => some 32 | 11 => some 48 | 12 => some 64 | _ => none

/-- Block size of such a variant. -/
def hashBlock (v : Nat) : Nat :=
  match v with
  | 0 => 64 | 1 => 64 | 9 => 144 | 10 => 136 | 11 => 104 | 12 => 72 | _ => 128

/-- The digest of such a variant. -/
def hashOf (v : Nat) (m : Bytes) : Bytes :=
  fit ((hashLen v).getD 0) (if v < 8 then Config.sha2 v m else Config.sha3 (v - 8) m)

/-- Digest bytes of a PHALG code (R125). -/
def phLen (ph : Nat) : Nat :=
  match ph with
  | 1 => 32 | 2 => 48 | 3 => 64 | 4 => 32 | 5 => 48 | 6 => 64 | 7 => 32 | 8 => 64 | _ => 0

/-- The hash variant of a HASH code 1 to 6 of R165. -/
def hashOfCode (h : Nat) : Nat :=
  match h with
  | 1 => 1 | 2 => 2 | 3 => 3 | 4 => 10 | 5 => 11 | _ => 12

/-! Stateful parameter sets (R134, R135, R139); the typecodes are those SP 800-208 assigns -/

/-- LMS typecode: hash (0 SHA-256, 1 SHAKE256), n, height. -/
def lmsType (t : Nat) : Option (Nat × Nat × Nat) :=
  if 5 ≤ t ∧ t < 25 then some (if t < 15 then 0 else 1, if (t - 5) / 5 % 2 = 0 then 32 else 24, 5 * ((t - 5) % 5) + 5)
  else none

/-- LM-OTS typecode: hash, n. -/
def otsType (t : Nat) : Option (Nat × Nat) :=
  if 1 ≤ t ∧ t < 17 then some (if t < 9 then 0 else 1, if (t - 1) / 4 % 2 = 0 then 32 else 24) else none

/-- Its Winternitz parameter in bits: 1, 2, 4 or 8. -/
def otsW (t : Nat) : Nat := 2 ^ ((t - 1) % 4)

/-- Winternitz chains of a one-time signature: digits of the digest and of its checksum. -/
def otsChains (n w : Nat) : Nat :=
  let u := ceilDiv (8 * n) w
  u + ceilDiv (Nat.log2 ((2 ^ w - 1) * u) + 1) w

/-- n, total height and layers of an XMSS (`set` 0) or XMSS^MT (`set` 1) OID that SP 800-208 approves (R134): SHA2 and
SHAKE256 with 256 or 192 bits. PRESUMED, log entry 88, unsafe. -/
def xmssParams (set oid : Nat) : Option (Nat × Nat × Nat) :=
  let pick := fun (l : List (Nat × Nat)) (n i : Nat) => (l[i]?).map fun p => (n, p.1, p.2)
  if set = 0 then
    let l := [(10, 1), (16, 1), (20, 1)]
    if 0x01 ≤ oid ∧ oid ≤ 0x03 then pick l 32 (oid - 0x01)
    else if 0x0D ≤ oid ∧ oid ≤ 0x0F then pick l 24 (oid - 0x0D)
    else if 0x10 ≤ oid ∧ oid ≤ 0x12 then pick l 32 (oid - 0x10)
    else if 0x13 ≤ oid ∧ oid ≤ 0x15 then pick l 24 (oid - 0x13)
    else none
  else
    let l := [(20, 2), (20, 4), (40, 2), (40, 4), (40, 8), (60, 3), (60, 6), (60, 12)]
    if 0x01 ≤ oid ∧ oid ≤ 0x08 then pick l 32 (oid - 0x01)
    else if 0x21 ≤ oid ∧ oid ≤ 0x28 then pick l 24 (oid - 0x21)
    else if 0x29 ≤ oid ∧ oid ≤ 0x30 then pick l 32 (oid - 0x29)
    else if 0x31 ≤ oid ∧ oid ≤ 0x38 then pick l 24 (oid - 0x31)
    else none

/-- The levels of field A of an LMS/HSS key: n and the heights. -/
def lmsLevels : Nat → Bytes → Option (List (Nat × Nat × Nat))
  | 0, _ => some []
  | k + 1, b =>
    match lmsType (beVal (b.take 4)), otsType (beVal (cut b 4 4)), lmsLevels k (b.drop 8) with
    | some (h, n, ht), some (h', n'), some rest => if h = h' ∧ n = n' then some ((h, n, ht) :: rest) else none
    | _, _, _ => none

/-- n and the tree heights of a stateful key's parameters: family 4, or family 5 with the set of its OPC. -/
def stfTrees (fam set : Nat) (a : Bytes) : Option (Nat × List Nat) :=
  if fam = 4 then
    let l := leAt a 0 1
    if l = 0 ∨ l > 8 ∨ a.length ≠ 4 + 8 * l ∨ leAt a 1 3 ≠ 0 then none
    else match lmsLevels l (a.drop 4) with
    | some ((h, n, ht) :: rest) =>
      if rest.all fun x => x.1 = h && x.2.1 = n then some (n, ht :: rest.map fun x => x.2.2) else none
    | _ => none
  else if a.length ≠ 4 then none
  else match xmssParams set (beVal a) with
  | some (n, h, d) => some (n, List.replicate d (h / d))
  | none => none

/-- BODY_LEN of a stateful key (R139). -/
def stfBodyLen (n : Nat) (hs : List Nat) : Nat :=
  32 + (hs.map fun h => 3 * n + 16 + n * (2 ^ (h / 2 + 1) - 1)).sum

/-- TOTAL (R136). -/
def stfTotal (hs : List Nat) : Nat := 2 ^ hs.sum

/-- The 32 bytes of body header: the levels and their typecodes, or the OID, of field A. DESIGN CHOICE, log entry 94, safe. -/
def stfHeader (fam : Nat) (a : Bytes) : Bytes :=
  fit 32 (if fam = 4 then a.take 1 ++ fit 16 ((List.range (2 * leAt a 0 1)).flatMap fun i => cut a (7 + 4 * i) 1)
    else zeros 17 ++ a)

/-- Field A of the key generation, from the body header. -/
def stfField (fam : Nat) (body : Bytes) : Bytes :=
  if fam = 4 then
    let l := leAt body 0 1
    leBytes 4 l ++ (List.range (2 * l)).flatMap fun i => zeros 3 ++ cut body (1 + i) 1
  else cut body 17 4

/-- The public key in its RFC 8554 or RFC 8391 encoding: the typecodes or the OID, then `root`, identifier or seed and root
(R135). -/
def stfPublic (fam : Nat) (a : Bytes) (n : Nat) (root : Bytes) : Bytes :=
  if fam = 4 then beBytes 4 (leAt a 0 1) ++ cut a 4 8 ++ fit (16 + n) root else a ++ fit (2 * n) root

/-- The LMS signature that `b` begins with: its LMS and LM-OTS typecodes, hash and n, and its length (R140). -/
def lmsSig (b : Bytes) : Option (Nat × Nat × Nat × Nat × Nat) :=
  let ot := beVal (cut b 4 4)
  match otsType ot with
  | none => none
  | some (hash, n) =>
    let ots := 4 + n + otsChains n (otsW ot) * n
    let lt := beVal (cut b (4 + ots) 4)
    match lmsType lt with
    | some (hash', n', h) => if hash = hash' ∧ n = n' then some (lt, ot, hash, n, 8 + ots + h * n) else none
    | none => none

/-- Length of the signatures of `k` further levels and the one before them, from their typecodes, the first under the
typecodes `lt` and `ot` of its public key: none where they disagree (R134, R140). -/
def hssLen : Nat → Nat → Nat → Bytes → Option Nat
  | 0, lt, ot, b =>
    match lmsSig b with
    | some (lt', ot', _, _, len) => if lt = lt' ∧ ot = ot' then some len else none
    | none => none
  | k + 1, lt, ot, b =>
    match lmsSig b with
    | some (lt', ot', hash, n, len) =>
      let pk := b.drop len
      let lt2 := beVal (pk.take 4)
      if lt ≠ lt' ∨ ot ≠ ot' ∨ (lmsType lt2).map (fun t => (t.1, t.2.1)) ≠ some (hash, n) then none
      else (hssLen k lt2 (beVal (cut pk 4 4)) (pk.drop (24 + n))).map (· + len + 24 + n)
    | none => none

/-- Length of an XMSS or XMSS^MT signature from the parameters of its OID (R140). -/
def xmssSigLen (set : Nat) (p : Nat × Nat × Nat) : Nat :=
  let (n, h, d) := p
  (if set = 0 then 4 else ceilDiv h 8) + n + (d * otsChains n 4 + h) * n

/-- Length of a signature under the public key `pk`, which begins `b`: none where the typecodes disagree with the key
(R140). -/
def stfSigIn (fam set : Nat) (pk b : Bytes) : Option Nat :=
  if fam = 4 then
    let l := beVal (pk.take 4)
    if l = 0 ∨ l > 8 ∨ beVal (b.take 4) + 1 ≠ l then none
    else (hssLen (l - 1) (beVal (cut pk 4 4)) (beVal (cut pk 8 4)) (b.drop 4)).map (· + 4)
  else (xmssParams set (beVal (pk.take 4))).map (xmssSigLen set)

/-- Length of a signature with the parameters of field A. -/
def stfSigLen (fam set : Nat) (a : Bytes) : Nat :=
  if fam = 4 then
    let l := leAt a 0 1
    4 + ((List.range l).map fun i =>
      match lmsType (beVal (cut a (4 + 8 * i) 4)), otsType (beVal (cut a (8 + 8 * i) 4)) with
      | some (_, n, h), some _ =>
        12 + n + otsChains n (otsW (beVal (cut a (8 + 8 * i) 4))) * n + h * n + (if i = 0 then 0 else 24 + n)
      | _, _ => 0).sum
  else ((xmssParams set (beVal a)).map (xmssSigLen set)).getD 0

/-- Cycles for each leaf of a tree, where the manual states them: LMS over SHA-256 with n = 32, in proportion to the chain
hash calls, and XMSS-SHA2 with n = 32 (R153). -/
def leafCost (fam : Nat) (lt ot : Nat) : Option Nat :=
  if fam = 4 then
    (if 5 ≤ lt ∧ lt < 10 ∧ 1 ≤ ot ∧ ot ≤ 4 then
      let w := otsW ot
      some (248000 * (otsChains 32 w * (2 ^ w - 1)) / (34 * 255))
    else none)
  else if 1 ≤ lt ∧ lt ≤ 8 then some 134000 else none

/-- Cycles of the build of the traversal state of a key with field A: 2 × 2^(h − u) leaves of each tree (R139, R153). -/
def buildCost (fam set : Nat) (a : Bytes) : Option Nat :=
  let leaves := fun (h : Nat) => 2 * 2 ^ (h - h / 2)
  if fam = 4 then
    (List.range (leAt a 0 1)).foldl (fun (t : Option Nat) i =>
      match t, lmsType (beVal (cut a (4 + 8 * i) 4)), leafCost 4 (beVal (cut a (4 + 8 * i) 4)) (beVal (cut a (8 + 8 * i) 4)) with
      | some t, some (_, _, h), some c => some (t + leaves h * c)
      | _, _, _ => none) (some 0)
  else match xmssParams set (beVal a), leafCost 5 (beVal a) 0 with
  | some (_, h, d), some c => some (d * leaves (h / d) * c)
  | _, _ => none

/-! Elliptic-curve points and scalars (R146, R161, R164) -/

/-- The public key of a private key: 0x04, X and Y on a NIST curve, `n` bytes in all. -/
def eccPub (c n : Nat) (sk : Bytes) : Bytes :=
  if 1 ≤ c ∧ c ≤ 3 then 4 :: fit (n - 1) (Config.eccPk c sk) else fit n (Config.eccPk c sk)

/-- A valid public key: on a NIST curve in its uncompressed form. -/
def eccPubOk (c : Nat) (pk : Bytes) : Bool := (!(decide (1 ≤ c) && decide (c ≤ 3)) || pk.head? = some 4) && Config.eccPkOk c pk

/-- The order of a NIST curve, as FIPS 186-5 gives it. -/
def curveOrder (c : Nat) : Nat :=
  match c with
  | 1 => 0xFFFFFFFF00000000FFFFFFFFFFFFFFFFBCE6FAADA7179E84F3B9CAC2FC632551
  | 2 => 0xFFFFFFFFFFFFFFFFFFFFFFFFFFFFFFFFFFFFFFFFFFFFFFFFC7634D81F4372DDF581A0DB248B0A77AECEC196ACCC52973
  | _ => 0x01FFFFFFFFFFFFFFFFFFFFFFFFFFFFFFFFFFFFFFFFFFFFFFFFFFFFFFFFFFFFFFFFFFFA51868783BF2F966B7FCC0148F709A5D03BB5C9B8899C47AEBB6FB71E91386409

/-- Verification of an ECDSA signature r ‖ s of a digest: r and s lie in 1 to n − 1 (R164). -/
def ecdsaOk (c : Nat) (pk : Bytes) (hash : Nat) (digest sig : Bytes) : Bool :=
  let r := beVal (sig.take (sig.length / 2))
  let t := beVal (sig.drop (sig.length / 2))
  decide (1 ≤ r) && decide (r < curveOrder c) && decide (1 ≤ t) && decide (t < curveOrder c)
    && Config.ecdsaVerify c pk hash digest sig

/-- Byte `i` of the CTR key stream: block i ÷ 16, its counter the whole 16-byte block as a big-endian number, modulo 2^128
(R172). -/
def ctrByte (key iv : Bytes) (i : Nat) : Byte :=
  ((fit 16 (Config.aesBlock key (beBytes 16 ((beVal iv + i / 16) % 2 ^ 128))))[i % 16]?).getD 0

/-! The table of operations -/

/-- KEYREF of an operation. -/
inductive KeyUse where
  | none | required | optional
deriving DecidableEq, Repr

/-- The parameter block of an operation. -/
inductive BlockUse where
  | none | optional | required
deriving DecidableEq, Repr

/-- Its layout: key output R110, sign options R125 and R165, symmetric R171, MAC R174, KDF R176, session create R182,
key management R439, and that of customer calls R350. -/
inductive BlockKind where
  | keyOut | sign | classicSign | sym | mac | kdf | create | keyMgmt | any
deriving DecidableEq, Repr

/-- Length of the fixed part after the header. -/
def BlockKind.fixed : BlockKind → Nat
  | .keyOut => 24 | .sign => 8 | .classicSign => 8 | .sym => 24 | .mac => 8 | .kdf => 32 | .create => 56 | .keyMgmt => 40
  | .any => 0

/-- Usage rights (R422), as masks. -/
def rENC : Nat := 1
def rDEC : Nat := 2
def rSIGN : Nat := 4
def rVERIFY : Nat := 8
def rAGREE : Nat := 16
def rENCRYPT : Nat := 32
def rDECRYPT : Nat := 64
def rMACG : Nat := 128
def rMACV : Nat := 256
def rWRAP : Nat := 512
def rUNWRAP : Nat := 1024
def rDERIVE : Nat := 2048
def rKERNEL : Nat := 4096

/-- What the tables of the operation chapters say of an operation. -/
structure OpInfo where
  /-- Its plan: class of each step and the steps each depends on. -/
  plan    : List (Option Cls × List Nat)
  key     : KeyUse := .none
  /-- The key carries one of these rights; 0 asks none. -/
  rights  : Nat := 0
  block   : BlockUse := .none
  kind    : BlockKind := .any
  /-- W12 and W13 hold a session handle and AADLEN (R180). -/
  handle  : Bool := false
  inMin   : Nat := 0
  /-- Greatest IN_LEN; 0: no input. -/
  inMax   : Nat := 0
  inMult  : Nat := 1
  /-- OUT_CAP and OUT_ADDR must be 0. -/
  noOut   : Bool := false
  /-- Length of the public part of the output (R113), or of the whole output where no DEST applies. -/
  base    : Nat := 0
  /-- Length of the key or secret that DEST places (R113, R114); 0: none, or known from the block. -/
  secret  : Nat := 0
  /-- Runs on a VCE at the job's masking order (R118). -/
  masked  : Bool := false
  /-- Draws blinding values of a CLE, or the seed of a CDE: before a decapsulation, and for the products of HQC (R156,
R400). -/
  blinded : Bool := false
deriving DecidableEq, Repr

def anyLen : Nat := 2 ^ 32 - 1

/-- One step on one class. -/
def oneStep (c : Cls) : List (Option Cls × List Nat) := [(some c, [])]
/-- Carried out by the scheduler, KEY or the steward. -/
def noEngine : List (Option Cls × List Nat) := [(none, [])]
/-- Two steps, the second after the first. -/
def chain (a b : Cls) : List (Option Cls × List Nat) := [(some a, []), (some b, [0])]
/-- Two steps side by side. -/
def pairOf (a b : Cls) : List (Option Cls × List Nat) := [(some a, []), (some b, [])]
/-- The plan of a hybrid KEM with its combiner on the VCE of the first step (R147). -/
def combined : List (Option Cls × List Nat) := [(some .vce, []), (some .cle, []), (some .vce, [0, 1])]

/-- A KEM family with public key, private key, ciphertext and secret lengths (R113, R115). -/
def kemInfo (op pk sk ct ss : Nat) (gen enc dec : List (Option Cls × List Nat)) (masked blinded : Bool) :
    Option OpInfo :=
  match op with
  | 0 => some { plan := gen, block := .required, kind := .keyOut, base := pk, secret := sk, masked, blinded }
  | 1 => some { plan := dec, key := .required, rights := rDEC, block := .optional, kind := .keyOut, inMin := ct, inMax := ct
                secret := ss, masked, blinded }
  | 2 => some { plan := enc, key := .required, rights := rENC, block := .optional, kind := .keyOut, base := ct, secret := ss
                masked, blinded }
  | 3 => some { plan := enc, block := .optional, kind := .keyOut, inMin := pk, inMax := pk, base := ct, secret := ss, masked
                blinded }
  | _ => none

/-- A signature family (R127). -/
def sigInfo (op pk sk sig : Nat) (gen sign verify : List (Option Cls × List Nat)) (kind : BlockKind)
    (masked blinded : Bool) : Option OpInfo :=
  match op with
  | 0 => some { plan := gen, block := .required, kind := .keyOut, base := pk, secret := sk, masked, blinded }
  | 1 => some { plan := sign, key := .required, rights := rSIGN, block := .optional, kind, inMax := anyLen, base := sig
                masked, blinded }
  | 2 => some { plan := verify, key := .required, rights := rVERIFY, block := .optional, kind, inMin := sig, inMax := anyLen
                noOut := true }
  | 3 => some { plan := verify, block := .optional, kind, inMin := pk + sig, inMax := anyLen, noOut := true }
  | _ => none

/-- Families 0x01 to 0x07, 0x0A and 0x0B (R106). -/
def pqInfo (fam op set : Nat) : Option OpInfo :=
  match fam with
  | 1 => (mlkemSize set).bind fun (ek, dk, c) =>
    kemInfo op ek dk c 32 (oneStep .vce) (oneStep .vce) (oneStep .vce) true false
  | 2 => (mldsaSize set).bind fun (pk, sk, sg) =>
    sigInfo op pk sk sg (oneStep .vce) (oneStep .vce) (oneStep .vce) .sign true false
  | 3 => (slhSize set).bind fun (n, sg) =>
    sigInfo op (2 * n) (4 * n) sg (oneStep .hse) (oneStep .hse) (oneStep .hse) .sign false false
  | 4 => if set = 0 then sigInfo op 0 0 0 (oneStep .vce) (chain .hse .vce) (chain .hse .vce) .sign false false else none
  | 5 => if set ≤ 1 then sigInfo op 0 0 0 (oneStep .vce) (chain .hse .vce) (chain .hse .vce) .sign false false else none
  | 6 => (hqcSize set).bind fun (pk, sk, c) =>
    kemInfo op pk sk c 64 (chain .cde .hse) (chain .cde .hse) (chain .cde .hse) false true
  | 7 => (mceSize set).bind fun (pk, sk, c) =>
    kemInfo op pk sk c 32 (oneStep .cde) (oneStep .cde) (oneStep .cde) false (op = 1)
  | 0xA => (hybridKem set).bind fun h =>
    let ct := h.ct + h.pk
    let raw := 2 * (32 + h.ss)
    match op with
    | 5 => some { plan := pairOf .vce .cle, key := .required, rights := rDEC, inMin := ct, inMax := ct, base := raw
                  masked := true, blinded := true }
    | 6 => some { plan := pairOf .vce .cle, key := .required, rights := rENC, base := ct + raw, masked := true
                  blinded := true }
    | 7 => some { plan := pairOf .vce .cle, inMin := h.ek + h.pk, inMax := h.ek + h.pk, base := ct + raw, masked := true
                  blinded := true }
    | _ => kemInfo op (h.ek + h.pk) (h.dk + h.sk) ct 32 (pairOf .vce .cle) combined combined true true
  | 0xB => (hybridSig set).bind fun h =>
    sigInfo op (h.pkM + h.pkC) (h.skM + h.skC) (h.sigM + h.sigC) (pairOf .vce .cle) (pairOf .vce .cle)
      (pairOf .vce .cle) .sign true true
  | _ => none

/-- Families 0x08 and 0x09 (R162, R169, R170). -/
def classicInfo (fam op set : Nat) : Option OpInfo :=
  match fam with
  | 8 => (curve set).bind fun c =>
    if op = 4 then
      if set = 4 then none
      else some { plan := oneStep .cle, key := .required, rights := rAGREE, block := .optional, kind := .keyOut
                  inMin := c.pk, inMax := c.pk, secret := c.ss, blinded := true }
    else if op = 0 ∨ set ≤ 4 then
      sigInfo op c.pk c.sk c.sig (oneStep .cle) (oneStep .cle) (oneStep .cle) .classicSign false true
    else none
  | 9 => (rsaK set).bind fun k =>
    match op with
    | 0 => some { plan := oneStep .cle, block := .required, kind := .keyOut, base := k + 4, secret := rsaBodyLen k
                  blinded := true }
    | 1 | 2 => some { plan := oneStep .cle, key := .required, rights := rSIGN, block := .optional, kind := .classicSign
                      inMax := anyLen, base := k, blinded := true }
    | 3 | 4 => some { plan := oneStep .cle, key := .required, rights := rVERIFY, block := .optional, kind := .classicSign
                      inMin := k, inMax := anyLen, noOut := true }
    | 5 | 6 => some { plan := oneStep .cle, block := .optional, kind := .classicSign, inMin := 2 * k + 4, inMax := anyLen
                      noOut := true }
    | 7 => some { plan := oneStep .cle, key := .required, rights := rDECRYPT, block := .optional, kind := .classicSign
                  inMin := k, inMax := k, blinded := true }
    | _ => none
  | _ => none

/-- Families 0x10 and 0x11 (R171, R172). DESIGN CHOICE, log entry 87, unsafe. -/
def cipherInfo (fam op set : Nat) : Option OpInfo :=
  let base : OpInfo := { plan := oneStep .ste, key := .required, kind := .sym, block := .required, inMax := anyLen }
  if fam = 0x10 ∧ set ≠ 1 ∧ set ≠ 3 then none
  else if fam = 0x11 ∧ (set ≠ 0 ∨ op > 1) then none
  else match op with
  | 0 => some { base with rights := rENCRYPT }
  | 1 => some { base with rights := rDECRYPT }
  | 2 => some { base with rights := rMACG }
  | 3 => some { base with rights := rMACV, noOut := true }
  | 4 => some { base with rights := rMACG, block := .optional }
  | 5 => some { base with rights := rMACV, block := .optional, noOut := true }
  | 6 => some { base with rights := rENCRYPT + rDECRYPT }
  | 7 => some { base with rights := rWRAP, block := .none, inMin := 16, inMax := 65536, inMult := 8 }
  | 8 => some { base with rights := rUNWRAP, block := .none, inMin := 24, inMax := 65544, inMult := 8 }
  | 9 => some { base with rights := rWRAP, block := .none, inMin := 1, inMax := 65536 }
  | 10 => some { base with rights := rUNWRAP, block := .none, inMin := 16, inMax := 65544, inMult := 8 }
  | _ => none

/-- Families 0x12 and 0x13 (R174 to R178). -/
def hashInfo (fam op v : Nat) : Option OpInfo :=
  let mac : OpInfo := { plan := oneStep .hse, key := .required, block := .optional, kind := .mac, inMax := anyLen }
  if fam = 0x12 then
    match op with
    | 1 => if v ≤ 5 then some { plan := oneStep .hse, inMax := anyLen, base := (hashLen v).getD 0 } else none
    | 2 => if 1 ≤ v ∧ v ≤ 4 then some { plan := oneStep .hse, inMax := anyLen, base := (hashLen (v + 8)).getD 0 } else none
    | 3 => if v ≤ 1 then some { plan := oneStep .hse, inMax := anyLen }
      else if v ≤ 3 then some { plan := oneStep .hse, block := .optional, kind := .mac, inMax := anyLen } else none
    | 4 => if (hashLen v).isSome then some { mac with rights := rMACG } else none
    | 5 => if (hashLen v).isSome then some { mac with rights := rMACV, noOut := true } else none
    | 6 => if v = 1 ∨ v = 2 then some { mac with rights := rMACG } else none
    | 7 => if v = 1 ∨ v = 2 then some { mac with rights := rMACV, noOut := true } else none
    | _ => none
  else if op < 8 ∧ (if op = 4 ∨ op = 7 then v = 1 ∨ v = 2 else (hashLen v).isSome) then
    some { plan := oneStep .hse, key := .optional, rights := rDERIVE, block := .required, kind := .kdf, inMax := anyLen }
  else none

/-- Families 0x20, 0x30, 0x40, 0x50, 0x60 and 0x70 (R182, R191, R192, R348, R438, R517). The engine of the session tag
operations follows from the session (R183), those of the readings from the meter key (R519). -/
def serviceInfo (fam op : Nat) (low : Nat) : Option OpInfo :=
  let km : OpInfo := { plan := noEngine, block := .required, kind := .keyMgmt }
  let sess : OpInfo := { plan := noEngine, handle := true }
  if fam = 0x70 then
    (if low < 0x40 then
      some { plan := oneStep .vce, key := .optional, block := .optional, kind := .any, inMax := anyLen }
    else none)
  else if low % 16 ≠ 0 then none
  else match fam, op with
  | 0x20, 0 => some { plan := noEngine, key := .required, block := .required, kind := .create, base := 4 }
  | 0x20, 1 => some { sess with noOut := true }
  | 0x20, 2 => some { sess with base := 256 }
  | 0x20, 3 => some { sess with plan := oneStep .ste, inMax := anyLen }
  | 0x20, 4 => some { sess with plan := oneStep .ste, inMax := anyLen }
  | 0x20, 5 => some { sess with plan := oneStep .hse, inMax := anyLen }
  | 0x20, 6 => some { sess with plan := oneStep .hse, inMax := anyLen, noOut := true }
  | 0x20, 7 => some { sess with key := .required, inMin := 12, inMax := 12, noOut := true }
  | 0x30, 0 => some km
  | 0x30, 1 => some { km with inMax := anyLen }
  | 0x30, 2 => some { km with key := .required, rights := rWRAP }
  | 0x30, 3 => some { km with key := .required, rights := rUNWRAP, inMin := 16, inMax := anyLen, inMult := 8 }
  | 0x30, 4 => some { km with key := .required, rights := rDERIVE }
  | 0x30, 5 => some { km with key := .required }
  | 0x30, 6 => some { plan := noEngine, key := .required, noOut := true }
  | 0x30, 7 => some { plan := noEngine, key := .required, base := 8 }
  | 0x30, 8 => some { plan := noEngine, key := .required, noOut := true }
  | 0x30, 9 => some { km with inMin := 1, inMax := anyLen, noOut := true }
  | 0x30, 10 => some { plan := noEngine, inMin := 8, inMax := 128, inMult := 8 }
  | 0x40, 0 => some { plan := noEngine, inMax := 256 }
  | 0x40, 1 => some { plan := noEngine, inMax := 256 }
  | 0x40, 2 => some { plan := noEngine, inMax := 256, noOut := true }
  | 0x50, 0 => some { plan := noEngine, noOut := true }
  | 0x50, 1 => some { plan := noEngine, noOut := true }
  | 0x60, 0 => some { plan := oneStep .cle, key := .required, rights := rVERIFY, inMin := 112, inMax := 2468, noOut := true }
  | 0x60, 1 => some { plan := chain .cle .vce, key := .required, rights := rVERIFY, inMin := 112, inMax := anyLen
                      base := 3437, masked := true }
  | 0x60, 2 => some { plan := oneStep .vce, base := 5325, masked := true }
  | 0x60, 3 => some { plan := noEngine }
  | _, _ => none

/-- The operation that an OPC names, whatever the slice offers. -/
def opInfo (opc : Nat) : Option OpInfo :=
  let fam := opc / 256
  let op := opc / 16 % 16
  let set := opc % 16
  if fam < 8 ∨ fam = 0xA ∨ fam = 0xB then pqInfo fam op set
  else if fam < 0xA then classicInfo fam op set
  else if fam = 0x10 ∨ fam = 0x11 then cipherInfo fam op set
  else if fam = 0x12 ∨ fam = 0x13 then hashInfo fam op set
  else serviceInfo fam op (opc % 256)

/-- Fields of an OPC. -/
def Desc.fam (d : Desc) : Nat := d.opc.toNat / 256
def Desc.op (d : Desc) : Nat := d.opc.toNat / 16 % 16
def Desc.set (d : Desc) : Nat := d.opc.toNat % 16

/-- The operation of a descriptor; a plain one-step plan where the table lists none. -/
def Desc.info (d : Desc) : OpInfo := (opInfo d.opc.toNat).getD { plan := noEngine }

/-! Algorithm identifiers (R420 to R422, R441) -/

def algFam (a : Nat) : Nat := a / 256
def algKind (a : Nat) : Nat := a / 16 % 16
def algSet (a : Nat) : Nat := a % 16

/-- Private and public encoding lengths of an asymmetric family and set; stateful keys apart. -/
def asymLen (fam set : Nat) : Option (Nat × Nat) :=
  match fam with
  | 1 => (mlkemSize set).map fun (ek, dk, _) => (dk, ek)
  | 2 => (mldsaSize set).map fun (pk, sk, _) => (sk, pk)
  | 3 => (slhSize set).map fun (n, _) => (4 * n, 2 * n)
  | 6 => (hqcSize set).map fun (pk, sk, _) => (sk, pk)
  | 7 => (mceSize set).map fun (pk, sk, _) => (sk, pk)
  | 8 => (curve set).map fun c => (c.sk, c.pk)
  | 9 => (rsaK set).map fun k => (rsaBodyLen k, k + 4)
  | 0xA => (hybridKem set).map fun h => (h.dk + h.sk, h.ek + h.pk)
  | 0xB => (hybridSig set).map fun h => (h.skM + h.skC, h.pkM + h.pkC)
  | _ => none

/-- A stateful private key. -/
def algStateful (a : Nat) : Bool := a = 0x0400 || a = 0x0500 || a = 0x0501

/-- R420 defines the identifier. -/
def algDefined (a : Nat) : Bool :=
  match algKind a with
  | 0 => algStateful a || (asymLen (algFam a) (algSet a)).isSome
  | 1 => (asymLen (algFam a) (algSet a)).isSome
  | 2 => a = 0x1021 || a = 0x1023 || a = 0x1120 || a = 0x1320
  | 4 => algFam a = 0x12 && (hashLen (algSet a)).isSome
  | 6 => a = 0x1261 || a = 0x1262
  | _ => false

/-- A body of length `n` fits the identifier (R441); the length of a stateful body is checked against its record. -/
def algBodyOk (a n : Nat) : Bool :=
  match algKind a with
  | 0 => algStateful a || (asymLen (algFam a) (algSet a)).map (·.1) = some n
  | 1 => (asymLen (algFam a) (algSet a)).map (·.2) = some n
  | 2 => if a = 0x1021 then n = 16 else if a = 0x1023 || a = 0x1120 then n = 32 else 16 ≤ n && n ≤ 64
  | _ => 1 ≤ n && n ≤ 4096

/-- Rights a key of the algorithm with a body of `n` bytes can use (R111, R421, R422). -/
def algRights (a n : Nat) : Nat :=
  let base :=
    match algFam a, algKind a with
    | 1, 0 | 6, 0 | 0xA, 0 => rENC + rDEC
    | 1, 1 | 6, 1 | 7, 1 | 0xA, 1 => rENC
    | 7, 0 => rDEC
    | 2, 0 | 3, 0 | 4, 0 | 5, 0 | 0xB, 0 => rSIGN + rVERIFY
    | 2, 1 | 3, 1 | 0xB, 1 | 9, 1 => rVERIFY
    | 8, 0 => if algSet a ≤ 3 then rSIGN + rVERIFY + rAGREE else if algSet a = 4 then rSIGN + rVERIFY else rAGREE
    | 8, 1 => if algSet a ≤ 4 then rVERIFY else 0
    | 9, 0 => rSIGN + rVERIFY + rDECRYPT
    | 0x10, _ => rENCRYPT + rDECRYPT + rMACG + rMACV + rWRAP + rUNWRAP + rDERIVE
    | 0x11, _ => rENCRYPT + rDECRYPT + rDERIVE
    | 0x13, _ =>
      (if n = 16 ∨ n = 32 then rENCRYPT + rDECRYPT + rWRAP + rUNWRAP else 0) + rMACG + rMACV + rDERIVE
    | _, _ => rMACG + rMACV + rDERIVE
  if algStateful a || (algFam a = 7 && algKind a = 1) then base else base + rKERNEL

/-- The rights of `u` all lie in `v`. -/
def rightsIn (u v : Nat) : Bool := (BitVec.ofNat 32 u &&& ~~~BitVec.ofNat 32 v) = 0

/-- The key of algorithm `a` with a body of `n` bytes is an AES key of `bits` set 1 or 3 (R421). -/
def aesFits (a n set : Nat) : Bool :=
  a = 0x1020 + set || (a = 0x1320 && n = (if set = 1 then 16 else 32))

/-- The algorithm of a key fits the operation (R108, R155, R177, R421). -/
def algFits (opc a n : Nat) : Bool :=
  let fam := opc / 256
  let op := opc / 16 % 16
  let set := opc % 16
  let same := algFam a = fam && algSet a = set
  if fam < 8 ∨ fam = 0xA ∨ fam = 0xB then
    -- decapsulation and signing take a private key only
    same && (algKind a = 0 || (algKind a = 1 && (op = 2 || op = 6) && fam ≠ 4 && fam ≠ 5))
      && !(fam = 7 && op = 2 && algKind a = 0)
  else if fam = 8 then same && (algKind a = 0 || (algKind a = 1 && op = 2))
  else if fam = 9 then same && (algKind a = 0 || (algKind a = 1 && (op = 3 || op = 4)))
  else if fam = 0x10 then aesFits a n set
  else if fam = 0x11 then a = 0x1120 || (a = 0x1320 && n = 32)
  else if fam = 0x12 then a = 0x1320 || a = (if op ≤ 5 then 0x1240 else 0x1260) + set
  else if fam = 0x13 then
    a = 0x1320 || (op ≠ 5 && a = (if op = 4 || op = 7 then 0x1260 else 0x1240) + set)
  else if fam = 0x30 then
    match op with
    | 2 | 3 => aesFits a n 1 || aesFits a n 3
    | 4 => algKind a = 2 || algKind a = 4 || algKind a = 6
    | _ => true
  else if fam = 0x60 then a = 0x0811 || a = 0x0814 || a = 0x0214
  else true

/-- The operation computes the public key from a private encoding that does not contain it (R426). -/
def needsPub (opc a : Nat) : Bool :=
  let fam := opc / 256
  let op := opc / 16 % 16
  algKind a = 0 &&
    (((fam = 2 || fam = 8 || fam = 0xB) && op = 2) || (fam = 0xA && (op = 2 || op = 6)))

end Sys2Proof.Machine
end

