-- ==== Sys2Proof/Machine/Blocks.lean ====
section
/-! DEFINITION. Descriptors, parameter blocks and scatter lists as read from host memory, the checks of R89 on them, and
the lengths of outputs (R88 to R95, R99, R110 to R115, R125, R138, R151, R165, R166, R170 to R183, R439 to R441). -/

namespace Sys2Proof.Machine

/-! The descriptor (R88) -/

/-- Word `i` of a descriptor. -/
def dword (l : List Word) (i : Nat) : Word := (l[i]?).getD 0

/-- Words `i` and `i + 1` as 64 bits (R12). -/
def dpair (l : List Word) (i : Nat) : Dword := BitVec.ofNat 64 ((dword l i).toNat + 2 ^ 32 * (dword l (i + 1)).toNat)

/-- The fields of a descriptor. -/
def parseDesc (l : List Word) : Desc :=
  let w := dword l 0
  { opc := BitVec.ofNat 16 w.toNat, prio := fld w 18 16, maskord := fld w 20 19, ordered := bitAt w 21
    fence := bitAt w 22, sgl := bitAt w 23, prot := bitAt w 24, notBefore := bitAt w 25, deadline := bitAt w 26
    waitev := bitAt w 27, setev := bitAt w 28, waitany := bitAt w 29, evgroup := fld w 31 30
    flow := fld (dword l 1) 23 0, flowRsv := fld (dword l 1) 31 24, tag := dpair l 2, keyref := dpair l 4
    inAddr := dpair l 6, outAddr := dpair l 8, inLen := (dword l 10).toNat, outCap := (dword l 11).toNat
    auxAddr := dpair l 12, evwait := BitVec.ofNat 16 (dword l 14).toNat
    evset := BitVec.ofNat 16 ((dword l 14).toNat / 2 ^ 16), time := (dword l 15).toNat }

/-- The forms of KEYREF (R90). -/
inductive KeyForm where
  | none
  | handle (h : Nat)
  | window (off : Nat)
  | host (addr : Nat)
deriving DecidableEq, Repr

def keyForm (k : Dword) : KeyForm :=
  if k.getLsbD 63 then .handle (k.toNat % 2 ^ 32)
  else if k.getLsbD 62 then .window (k.toNat % 2 ^ 62)
  else if k = 0 then .none
  else .host (k.toNat % 2 ^ 62)

/-- W12 as a session handle and W13 as AADLEN (R180). -/
def Desc.session (d : Desc) : Nat := d.auxAddr.toNat % 2 ^ 32
def Desc.aadLen (d : Desc) : Nat := d.auxAddr.toNat / 2 ^ 32

/-! The checks of a descriptor's words (R89, R115), in order: the DETAIL of the first that fails -/

/-- KEYREF is in a form the operation takes (R107, R438). -/
def Desc.keyrefOk (d : Desc) (i : OpInfo) : Bool :=
  let opc := d.opc.toNat
  (match i.key with
  | .none => d.keyref = 0
  | .required => d.keyref ≠ 0
  | .optional => true)
  && (match keyForm d.keyref with
  | .handle _ => opc ≠ 0x3050 && opc ≠ 0x3070
  | .none => true
  | _ => opc ≠ 0x3080)

/-- Reserved bits of the descriptor (R88, R90, R180). -/
def Desc.reservedDetail (d : Desc) (i : OpInfo) : Option Nat :=
  if d.flowRsv ≠ 0 then some 1
  else if d.keyref.getLsbD 63 ∧ (d.keyref.toNat / 2 ^ 32) % 2 ^ 31 ≠ 0 then some 5
  else if i.handle ∧ d.aadLen ≠ 0 ∧ d.opc ≠ 0x2030 ∧ d.opc ≠ 0x2040 then some 13
  else none

/-- Flags, times and protection (R89, R91, R192). -/
def Desc.flagsOk (d : Desc) (sqProt : Bool) : Bool :=
  !(d.notBefore && d.deadline) && (d.waitev == decide (d.evwait ≠ 0)) && (d.setev == decide (d.evset ≠ 0))
    && (!d.waitany || d.waitev) && (d.time = 0 || d.notBefore || d.deadline) && (!d.prot || sqProt)
    && (d.opc ≠ 0x5010 || d.setev)

/-- Key, block and buffer fields against the limits of the operation (R95, R107, R115, R175, R177, R191, R192). A key of a
customer call is required exactly where its entry says USES_KEY, which `i` reflects. AUX_ADDR not 0 is refused for every
operation without a parameter block. DESIGN CHOICE, log entry 86, unsafe. -/
def Desc.limitDetail (d : Desc) (i : OpInfo) : Option Nat :=
  if !d.keyrefOk i then some 4
  else if !i.handle && ((i.block = .required && d.auxAddr = 0) || (i.block = .none && d.auxAddr ≠ 0)) then some 12
  else if i.inMax = 0 && d.inAddr ≠ 0 then some 6
  else if outside i.inMin i.inMax d.inLen || d.inLen % i.inMult ≠ 0 then some 10
  else if i.kind = .kdf && ((d.keyref = 0) == (d.inLen = 0)) then some 10
  else if (i.noOut || (d.outCap = 0 && !d.sgl)) && d.outAddr ≠ 0 then some 8
  else if i.noOut && d.outCap ≠ 0 then some 11
  else if d.fam = 0x12 && d.op = 3 && outside 1 16777216 d.outCap then some 11
  else if d.fam = 0x40 && d.op ≤ 1 && outside 1 65536 d.outCap then some 11
  else none

/-- The first check of the descriptor's own words that fails. -/
def Desc.wordDetail (d : Desc) (i : OpInfo) (sqProt : Bool) : Option Nat :=
  match d.reservedDetail i with
  | some n => some n
  | none => if !d.flagsOk sqProt then some 0 else d.limitDetail i

/-! The parameter block (R93) -/

/-- LEN_A and LEN_B. -/
def lenA (b : Bytes) : Nat := leAt b 4 2
def lenB (b : Bytes) : Nat := leAt b 6 2
/-- The variable fields, after a fixed part of `f` bytes. -/
def fieldA (f : Nat) (b : Bytes) : Bytes := cut b (8 + f) (lenA b)
def fieldB (f : Nat) (b : Bytes) : Bytes := cut b (8 + f + roundUp (lenA b) 8) (lenB b)

/-- The operation's block may have the first and the second variable field. -/
def Desc.varFields (d : Desc) (i : OpInfo) : Bool × Bool :=
  match i.kind with
  | .keyOut | .sign | .classicSign | .keyMgmt => (true, false)
  | .sym | .create => (false, false)
  | .mac => (d.op = 3, d.op = 3 || d.op = 6 || d.op = 7)
  | .kdf => (d.op ≠ 1, d.op ≠ 5)
  | .any => (true, true)

/-- The header obeys R93. -/
def Desc.headerOk (d : Desc) (i : OpInfo) (b : Bytes) : Bool :=
  let t := leAt b 0 2
  let (va, vb) := d.varFields i
  d.auxAddr.toNat % 8 = 0 && 8 ≤ b.length && t % 8 = 0 && 8 ≤ t && t ≤ 4096 && leAt b 2 1 = 1 && leAt b 3 1 = 0
    && 8 + i.kind.fixed + roundUp (lenA b) 8 + roundUp (lenB b) 8 ≤ t && (va || lenA b = 0) && (vb || lenB b = 0)

/-- Bytes `lo` to below `hi` are 0. -/
def zeroAt (b : Bytes) (lo hi : Nat) : Bool := (cut b lo (hi - lo)).all (· = 0)

/-! Key-output fields (R110) -/

def usageOf (b : Bytes) : Nat := leAt b 8 4
def policyOf (b : Bytes) : Nat := leAt b 12 4
def expiryOf (b : Bytes) : Nat := leAt b 16 8
/-- 0 HOST, 1 SLOT, 2 BLOB, 3 SLOT_AND_BLOB. -/
def destOf (b : Bytes) : Nat := leAt b 24 1
def seeded (b : Bytes) : Bool := leAt b 25 1 % 2 = 1

/-- Policy flags (R423), as masks. -/
def pSEAL : Nat := 1
def pIMPORTED : Nat := 2
def pEXPORTABLE : Nat := 4
def pPROT : Nat := 8
def pSTATEFUL : Nat := 16

/-- A mask bit of a number. -/
def has (v m : Nat) : Bool := v / m % 2 = 1

/-- Reserved values and bits of the key-output fields, IMPORTED and STATEFUL (R110, R422, R423). -/
def keyFieldsOk (b : Bytes) : Bool :=
  destOf b ≤ 3 && leAt b 25 1 ≤ 1 && zeroAt b 26 32 && usageOf b < 2 ^ 13 && policyOf b < 32
    && !has (policyOf b) pIMPORTED && !has (policyOf b) pSTATEFUL

/-- The new key may have its rights and flags (R111, R423). -/
def newKeyOk (slice alg n : Nat) (stateful : Bool) (b : Bytes) : Bool :=
  rightsIn (usageOf b) (algRights alg n) && !(has (policyOf b) pEXPORTABLE && (stateful || slice = 127))

/-- The block breaks no rule, is invalid with a DETAIL, or asks what the key may not be. -/
inductive BlockRes where
  | ok
  | invalid (detail : Nat)
  | policy
deriving DecidableEq, Repr

def BlockRes.isInvalid : BlockRes → Bool
  | .invalid _ => true
  | _ => false

/-- The first of the conditions that holds gives the result. -/
def firstOf : List (Bool × BlockRes) → BlockRes
  | [] => .ok
  | (c, r) :: rest => if c then r else firstOf rest

/-- `bad` gives DETAIL 0x10, `short` DETAIL 0x0A, `pol` KEY_POLICY. -/
def invalidIf (c : Bool) : Bool × BlockRes := (c, .invalid 0x10)
def shortIf (c : Bool) : Bool × BlockRes := (c, .invalid 0x0A)
def policyIf (c : Bool) : Bool × BlockRes := (c, .policy)

/-- Seed length of a seeded key generation (R112). -/
def seedLen (fam set : Nat) : Nat :=
  if fam = 1 then 64 else if fam = 2 then 32 else 3 * ((slhSize set).getD (0, 0)).1

/-- The key-output block (R110 to R114, R135). -/
def Desc.keyOutRes (d : Desc) (i : OpInfo) (slice : Nat) (b : Bytes) : BlockRes :=
  let gen := d.op = 0
  let stf := gen && (d.fam = 4 || d.fam = 5)
  let alg := if gen then d.fam * 256 + d.set else 0x1320
  firstOf [
    invalidIf (!keyFieldsOk b),
    invalidIf (gen && destOf b = 0),
    invalidIf (stf && destOf b ≤ 1),
    invalidIf (seeded b && (!gen || d.fam = 0 || d.fam > 3 || lenA b ≠ seedLen d.fam d.set)),
    invalidIf (!seeded b && !stf && lenA b ≠ 0),
    invalidIf (stf && (stfTrees d.fam d.set (fieldA 24 b)).isNone),
    policyIf (destOf b ≠ 0 && !newKeyOk slice alg i.secret stf b)]

/-- Bytes of the input before the message (R127, R162, R169). -/
def Desc.msgLen (d : Desc) (i : OpInfo) : Nat := if i.rights = rSIGN then d.inLen else d.inLen - i.inMin

/-- The sign-options block (R125, R126, R138, R151). -/
def Desc.signRes (d : Desc) (i : OpInfo) (b : Bytes) : BlockRes :=
  let ph := leAt b 8 1
  firstOf [
    invalidIf (ph > 8 || !zeroAt b 10 16 || lenA b > 255 || (i.rights = rSIGN && leAt b 9 1 > 1)),
    invalidIf ((d.fam = 4 || d.fam = 5) && (ph ≠ 0 || lenA b ≠ 0)),
    invalidIf (d.fam = 0xB && (ph ≠ 0 || lenA b > 248)),
    shortIf (ph ≠ 0 && d.msgLen i ≠ phLen ph)]

/-- The hash variant of the classical sign options (R165): the HASH code, or its default. Ed25519 with HASH 0 is pure
and uses none. -/
def Desc.classicHash (d : Desc) (b : Bytes) : Nat :=
  let h := leAt b 8 1
  if h ≠ 0 then hashOfCode h
  else if d.fam = 8 then (if d.set = 2 then 2 else if d.set = 3 ∨ d.set = 4 then 3 else 1) else 1

def Desc.classicHashLen (d : Desc) (b : Bytes) : Nat := (hashLen (d.classicHash b)).getD 0

/-- The classical sign-options block (R165, R166, R170). DETERMINISTIC outside ECDSA signing, SALTLEN outside PSS and DIGEST in
OAEP are ignored. DESIGN CHOICE, log entry 87, unsafe. -/
def Desc.classicRes (d : Desc) (i : OpInfo) (b : Bytes) : BlockRes :=
  let h := leAt b 8 1
  let mode := leAt b 9 1
  let ed := d.fam = 8 && d.set = 4
  let oaep := d.fam = 9 && d.op = 7
  let pss := d.fam = 9 && (d.op = 2 || d.op = 4 || d.op = 6)
  let dl := d.classicHashLen b
  firstOf [
    invalidIf (h > 6 || mode > 3 || !zeroAt b 11 16),
    invalidIf (ed && (!(h = 0 || h = 3) || (h = 0 && (mode ≥ 2 || lenA b ≠ 0)) || lenA b > 255)),
    invalidIf (!ed && !oaep && lenA b ≠ 0),
    invalidIf (oaep && lenA b > 4064),
    invalidIf (pss && dl < leAt b 10 1 && leAt b 10 1 ≠ 0xFF),
    shortIf (mode ≥ 2 && !oaep && d.msgLen i ≠ dl)]

/-- Tag length of the symmetric block, 16 where it gives 0 (R171). -/
def symTag (b : Bytes) : Nat := if leAt b 24 1 = 0 then 16 else leAt b 24 1

/-- DRAW_NONCE (R171). -/
def drawNonce (b : Bytes) : Bool := leAt b 25 1 % 2 = 1

/-- The symmetric block (R171, R172). -/
def Desc.symRes (d : Desc) (b : Bytes) : BlockRes :=
  let aead := d.fam = 0x11 || d.op ≤ 1
  let gmac := d.fam = 0x10 && (d.op = 2 || d.op = 3)
  let cm := d.fam = 0x10 && (d.op = 4 || d.op = 5)
  let tl := symTag b
  let aad := leAt b 28 4
  let tag := if d.op = 1 ∨ d.op = 3 ∨ d.op = 5 then tl else 0
  firstOf [
    invalidIf (!zeroAt b 26 28 || leAt b 25 1 > 1),
    invalidIf (drawNonce b && (!(d.op = 0 || (d.fam = 0x10 && d.op = 2)) || !zeroAt b 8 20)),
    invalidIf (((aead || gmac) && !zeroAt b 20 24) || (cm && !zeroAt b 8 24)),
    invalidIf (if d.fam = 0x10 ∧ d.op = 6 then leAt b 24 1 ≠ 0
      else if d.fam = 0x11 then tl ≠ 16 else tl > 16 || tl < (if cm then 8 else 12)),
    invalidIf (!aead && aad ≠ 0),
    shortIf (d.inLen < aad + tag)]

/-- Tag length of an HMAC or KMAC operation (R174). -/
def Desc.macTag (d : Desc) (b : Bytes) : Nat :=
  let t := leAt b 8 1
  if t ≠ 0 then t
  else if d.op ≤ 5 then (hashLen d.set).getD 0 else if d.set = 1 then 32 else 64

/-- The MAC block (R174, R175). DESIGN CHOICE, log entry 87, unsafe. -/
def Desc.macRes (d : Desc) (b : Bytes) : BlockRes :=
  let t := leAt b 8 1
  firstOf [
    invalidIf (!zeroAt b 9 16),
    invalidIf (t ≠ 0 && (if d.op = 3 then true
      else if d.op ≤ 5 then outside 10 ((hashLen d.set).getD 0) t else t < 4)),
    shortIf ((d.op = 5 || d.op = 7) && d.inLen < d.macTag b)]

/-- The four bytes "TRL-" (R179). -/
def trlPrefix (b : Bytes) : Bool := b.take 4 = [0x54, 0x52, 0x4C, 0x2D]

/-- OUTLEN of a KDF (R176). -/
def kdfLen (b : Bytes) : Nat := leAt b 32 4

/-- The KDF block (R176, R179). -/
def Desc.kdfRes (d : Desc) (slice : Nat) (b : Bytes) : BlockRes :=
  firstOf [
    invalidIf (!keyFieldsOk b || seeded b || !zeroAt b 36 40),
    invalidIf (if destOf b = 0 then outside 1 4096 (kdfLen b) else outside 16 64 (kdfLen b)),
    policyIf (trlPrefix (if d.op ≤ 1 then fieldB 32 b else fieldA 32 b)),
    policyIf (destOf b ≠ 0 && !newKeyOk slice 0x1320 (kdfLen b) false b)]

/-- The variants of a session (R183): tag bytes, sealing, HMAC. -/
structure Variant where
  tag  : Nat
  sealing : Bool := false
  hmac : Bool := false
deriving DecidableEq, Repr

def variantOf (v : Nat) : Option Variant :=
  match v with
  | 1 => some { tag := 10, hmac := true } | 2 => some { tag := 16, hmac := true } | 3 => some { tag := 32, hmac := true }
  | 4 => some { tag := 8 } | 5 => some { tag := 16 }
  | 0x10 => some { tag := 16, sealing := true } | 0x11 => some { tag := 16, sealing := true }
  | _ => none

/-- The create block (R182, R183). -/
def createRes (b : Bytes) : BlockRes :=
  firstOf [invalidIf (leAt b 9 1 > 1 || !zeroAt b 10 12 || leAt b 12 4 ≥ 2 ^ 20 || !zeroAt b 44 48
    || (variantOf (leAt b 8 1)).isNone)]

/-- ALG and KEYLEN of a key-management block (R439). -/
def kmAlg (b : Bytes) : Nat := leAt b 32 2
def kmLen (b : Bytes) : Nat := leAt b 34 2
/-- SUBJECT or TARGET. -/
def kmSubject (b : Bytes) : Dword := BitVec.ofNat 64 (leAt b 40 8)

/-- KEYLEN fits the ALG (R440). -/
def keyLenOk (alg n : Nat) : Bool :=
  if alg = 0x1021 then n = 16
  else if alg = 0x1023 ∨ alg = 0x1120 then n = 32
  else if algKind alg = 4 then 16 ≤ n && n ≤ hashBlock (algSet alg)
  else 16 ≤ n && n ≤ 64

/-- Body length of the key that IMPORT or UNWRAP makes, where it is known: the fixed length of the ALG, else the
input's (R441, R442). -/
def Desc.importLen (d : Desc) (alg : Nat) : Option Nat :=
  match asymLen (algFam alg) (algSet alg) with
  | some (sk, pk) => if algKind alg = 0 then some sk else if algKind alg = 1 then some pk else none
  | none =>
    if alg = 0x1021 then some 16 else if alg = 0x1023 ∨ alg = 0x1120 then some 32
    else if d.op = 1 then some d.inLen else none

/-- The key-management block (R439 to R441, R423). -/
def Desc.kmRes (d : Desc) (slice : Nat) (b : Bytes) : BlockRes :=
  let out := d.op ≠ 2 && d.op ≠ 9
  let hasAlg := d.op = 0 || d.op = 1 || d.op = 3 || d.op = 4
  let gen := d.op = 0 || d.op = 4
  let alg := kmAlg b
  firstOf [
    invalidIf (!keyFieldsOk b || seeded b || !zeroAt b 36 40 || lenA b > 255),
    invalidIf (!out && !zeroAt b 8 32),
    invalidIf ((!hasAlg && alg ≠ 0) || (!gen && kmLen b ≠ 0) || (out && kmSubject b ≠ 0) || (d.op ≠ 4 && lenA b ≠ 0)),
    invalidIf (out && destOf b = 0),
    invalidIf (d.op = 5 && destOf b ≠ 2),
    invalidIf (d.op = 9 && (kmSubject b).toNat % 16 ≠ 0),
    invalidIf (d.op = 2 && (kmSubject b = 0 || ((kmSubject b).getLsbD 63 && (kmSubject b).toNat / 2 ^ 32 % 2 ^ 31 ≠ 0))),
    invalidIf (hasAlg && !algDefined alg),
    policyIf (gen && algKind alg < 2),
    invalidIf (gen && !keyLenOk alg (kmLen b)),
    policyIf (d.op = 5 && has (policyOf b) pEXPORTABLE && slice = 127),
    policyIf (hasAlg && !gen && algStateful alg),
    policyIf (hasAlg && !gen && algFam alg = 7 && algKind alg = 1 && destOf b ≠ 2),
    policyIf (hasAlg && (gen || (d.importLen alg).isSome)
      && !newKeyOk slice alg (if gen then kmLen b else (d.importLen alg).getD 0) false b)]

/-- What a block holds, after its header: the rules of the operation's layout. An absent optional block reads as
zeros. -/
def Desc.blockRes (d : Desc) (i : OpInfo) (slice : Nat) (b : Bytes) : BlockRes :=
  match i.kind with
  | .keyOut => d.keyOutRes i slice b
  | .sign => d.signRes i b
  | .classicSign => d.classicRes i b
  | .sym => if i.block = .none then .ok else d.symRes b
  | .mac => d.macRes b
  | .kdf => d.kdfRes slice b
  | .create => createRes b
  | .keyMgmt => d.kmRes slice b
  | .any => .ok

/-! Scatter lists (R94, R95) -/

/-- The entries of a list up to LAST; none where an entry breaks a rule or LAST does not come within `n` entries. -/
def segments : Nat → Bytes → Option (List (Nat × Nat))
  | 0, _ => none
  | n + 1, b =>
    let fl := leAt b 12 4
    if b.length < 16 ∨ leAt b 8 4 = 0 ∨ fl > 1 then none
    else if fl = 1 then some [(leAt b 0 8, leAt b 8 4)]
    else (segments n (b.drop 16)).map fun r => (leAt b 0 8, leAt b 8 4) :: r

/-- The segments of a buffer of `len` bytes at `addr`; none where its list is invalid. No list is read for length 0.
DEDUCED, log entry 69, unsafe. -/
def bufferSegs (sgl : Bool) (addr : Dword) (len : Nat) (list : Bytes) : Option (List (Nat × Nat)) :=
  if len = 0 then some []
  else if !sgl then some [(addr.toNat, len)]
  else match segments 256 list with
  | some l => if addr.toNat % 16 = 0 ∧ (l.map (·.2)).sum = len then some l else none
  | none => none

/-- The segments of the output buffer; none where its list is invalid, or where there is one and OUT_CAP is 0 (R95). -/
def Desc.outSegs (d : Desc) (list : Bytes) : Option (List (Nat × Nat)) :=
  if d.sgl && d.outCap = 0 && d.outAddr ≠ 0 then none else bufferSegs d.sgl d.outAddr d.outCap list

/-! Lengths of outputs (R99, R113, R115, R172, R176, R182) -/

/-- Length of what DEST places in the output for a key or secret of `n` bytes (R113). -/
def destLen (dest n : Nat) : Nat :=
  match dest with
  | 0 => n
  | 1 => 8
  | 2 => 80 + n
  | _ => 80 + n + 8

/-- Body length of the new key of a stateful key generation (R139). -/
def Desc.stfBody (d : Desc) (b : Bytes) : Nat :=
  match stfTrees d.fam d.set (fieldA 24 b) with
  | some (n, hs) => stfBodyLen n hs
  | none => 0

/-- Length of the public key encoding of a stateful key: 4 bytes, and the 4-byte OID for XMSS, around the root and
identifier (RFC 8554, RFC 8391). DESIGN CHOICE, log entry 87, unsafe. -/
def Desc.stfPub (d : Desc) (b : Bytes) : Nat :=
  match stfTrees d.fam d.set (fieldA 24 b) with
  | some (n, _) => if d.fam = 4 then 4 + 24 + n else 4 + 2 * n
  | none => 0

/-- The output length known before the start without the key; none where it is not known. -/
def Desc.outLen (d : Desc) (i : OpInfo) (b : Bytes) : Option Nat :=
  match i.kind with
  | .keyOut =>
    if d.op = 0 ∧ (d.fam = 4 ∨ d.fam = 5) then some (d.stfPub b + destLen (destOf b) (d.stfBody b))
    else some (i.base + destLen (destOf b) i.secret)
  | .sign | .classicSign =>
    if d.fam = 9 ∧ d.op = 7 then some (((rsaK d.set).getD 0) - 2 * d.classicHashLen b - 2)
    else if i.rights = rSIGN ∧ (d.fam = 4 ∨ d.fam = 5) then none
    else some i.base
  | .sym =>
    if i.noOut then some 0
    else
      let aad := leAt b 28 4
      let n := if drawNonce b then 12 else 0
      match d.op with
      | 0 => some (n + (d.inLen - aad) + symTag b)
      | 1 => some (d.inLen - aad - symTag b)
      | 2 => some (n + symTag b)
      | 4 => some (symTag b)
      | 6 => some d.inLen
      | 7 => some (d.inLen + 8)
      | 8 => some (d.inLen - 8)
      | 9 => some (roundUp d.inLen 8 + 8)
      | _ => none
  | .mac => if i.noOut then some 0 else if d.op = 3 then some d.outCap else some (d.macTag b)
  | .kdf => some (destLen (destOf b) (kdfLen b))
  | .create => some 4
  | .keyMgmt =>
    if i.noOut then some 0
    else match d.op with
    | 0 | 4 => some (destLen (destOf b) (kmLen b))
    | 1 | 3 => if destOf b = 1 then some 8 else (d.importLen (kmAlg b)).map fun n => destLen (destOf b) n
    | _ => none
  | .any =>
    if i.noOut then some 0
    else match d.fam with
    | 0x12 => some (if d.op = 3 then d.outCap else i.base)
    | 0x20 =>
      if d.op = 2 then some 256
      else if d.op = 3 ∧ d.aadLen ≤ d.inLen then some (8 + (d.inLen - d.aadLen) + 16)
      else if d.op = 4 ∧ 24 + d.aadLen ≤ d.inLen then some (d.inLen - 8 - d.aadLen - 16) else none
    | 0x30 => if d.op = 10 then some d.inLen else some i.base
    | 0x40 => if d.op ≤ 1 then some d.outCap else some 0
    | 0x60 => if d.op = 3 then none else some i.base
    | 0x70 => none
    | _ => some i.base

end Sys2Proof.Machine
end

