-- ==== Sys2Proof/Machine/Access.lean ====
section
/-! DEFINITION. The gate every BAR0 write passes (R18, R500, R501, R520, R532, R596, R600), the event of a bad access,
and waking from SLEEP. -/

namespace Sys2Proof.Machine

/-- A BAR0 access that is discarded or answered with 0 (R571 class 0x4 reason 0): 0 size or alignment, 1 absent slice,
2 LOST or SCRAP. -/
def State.badAccess (s : State) (off why : Nat) : State :=
  s.event 4 srcHif 0 0 0xFF (leBytes 4 off ++ leBytes 1 why)

/-- The part returns from SLEEP to RUN or DOZE (R591, R596): clocks run, engines stay gated, instances that fell due are
reseeded (R478), and the exit is recorded. -/
def State.wakeUp (s : State) : State :=
  if s.pwr.st = .sleep then
    (({ s with pwr := { s.pwr with st := .run, dozeAt := s.el } }).reseedAll).event 0xB srcPwr 1 0 0xFF (leBytes 1 0)
  else s

/-- Engine `e` is powered and clocked from now on: a thaw has ended, and a part in DOZE is in RUN (R591). -/
def State.ungate (s : State) (e : Nat) : State :=
  let s := (s.loadConsts e).onEngine e fun x => { x with gated := false, thawing := false, idleAt := s.el }
  if s.pwr.st = .doze then { s with pwr := { s.pwr with st := .run } } else s

/-- Writes that LOST and SCRAP take (R532, R533). -/
def State.endedWrites (s : State) (off : Nat) : Bool :=
  off = 0xA0030 || off = 0xA0034 || off = 0x40004 || off = 0x40008
    || (s.lcs.code = 0xC && 0x50000 ≤ off && off < 0x60000)

/-- The slice to which a BAR0 offset belongs: its set-up page, or its registers in SCH and KEY (R501). -/
def sliceOfOffset (off : Nat) : Option Nat :=
  if 0x1000000 ≤ off ∧ off < 0x4000000 then some ((off - 0x1000000) / 0x10000)
  else if 0x91000 ≤ off ∧ off < 0x92000 then some ((off - 0x91000) / 0x20)
  else if 0x80400 ≤ off ∧ off < 0x80800 then some (((off - 0x80400) / 4) % 128)
  else none

/-- Carries out `f` for a write at `off` that the part takes; otherwise discards the write as its rule says. Either way the write
wakes the part (R596).
DEDUCED, log entry 73, unsafe. -/
def State.gate (s : State) (off : Nat) (f : State → State) : State :=
  if !s.pwr.ready then s
  else if s.ended && !s.endedWrites off then s.wakeUp.badAccess off 2
  else if (match sliceOfOffset off with | some n => (1 ≤ n && n ≤ 64 || n = 127) && !s.present n | none => false) then
    s.wakeUp.badAccess off 1
  else if 0xB0000 ≤ off ∧ off < 0xC0000 ∧ !s.mpInService then s.wakeUp
  else f s.wakeUp

end Sys2Proof.Machine
end

