-- ==== Sys2Proof/Machine/Journal.lean ====
section
/-! DEFINITION. The event recorder's journal: commit groups, flushing, lookup, snapshot sets and authorised clearing
(R570 to R589), and the commands of that chapter. -/

namespace Sys2Proof.Machine

/-- Blocks of 64 records of the overwritable area (R582). -/
def State.journalBlocks (s : State) : Nat := nvmBlocks s.mpInService 1

/-- One record is programmed: into the retained area while it has room, else into the overwritable area, whose oldest
block is erased so that two erased blocks lie ahead (R577, R582). -/
def Evr.program (v : Evr) (blocks : Nat) (retained : Bool) (r : Rec) : Evr :=
  if retained ∧ v.retained.length < retainedCap then { v with retained := v.retained ++ [r] }
  else
    let b := v.written / 64
    let area := if v.written % 64 = 0 then mapKeep v.area fun p _ => 64 * (b + 3) ≤ p + 64 * blocks else v.area
    { v with area := mapInsert area v.written { r with retained := retained }, written := v.written + 1 }

/-- The length of the group that starts the ring: up to 8 records of one area within one page of 512 bytes, and not the
record held under R578 (R581). -/
def Evr.groupLength (v : Evr) : Nat :=
  let limit := fun (ret : Bool) => if ret ∧ v.retained.length < retainedCap then 8 - v.retained.length % 8 else 8 - v.written % 8
  let kinds := (v.ring.foldl (fun (acc : List Bool × Bool) r =>
    let k := if r.ext.isSome then acc.2 else r.isRetained
    (acc.1 ++ [k], k)) ([], v.lastKept)).1
  let free := (v.ring.takeWhile fun r => v.held ≠ some r.seq).length
  match kinds with
  | [] => 0
  | k :: _ => min (min free (limit k)) (kinds.takeWhile (· = k)).length

/-- Programs the first `n` records of the ring in order; an extension goes where the record before it went, in this group
or an earlier one (R575, R577). -/
def Evr.commit : Nat → Evr → Nat → Evr
  | 0, v, _ => v
  | n + 1, v, blocks =>
    match v.ring with
    | [] => v
    | r :: rest =>
      let k := if r.ext.isSome then v.lastKept else r.isRetained
      Evr.commit n ({ v with ring := rest, lastKept := k }.program blocks k r) blocks

/-- After a commit: RET_FULL and RING_LOST are recorded when they are due (R580, R582). -/
def State.afterCommit (s : State) : State :=
  let s := if !s.evr.retFull && s.evr.retained.length ≥ retainedCap then
      ({ s with evr := { s.evr with retFull := true } }).event 0xD srcEvr 6
    else s
  if s.evr.dropped > 0 && ringFits s.evr.ring false 1 then
    let n := s.evr.dropped
    ({ s with evr := { s.evr with dropped := 0 } }).event 0xD srcEvr 3 0 0xFF (leBytes 2 n)
  else s

/-- Counts the block erases that programming has caused since the area held `before` positions written (R582). -/
def State.wearJournal (s : State) (before : Nat) : State :=
  let starts := (List.range (s.evr.written - before)).map (before + ·) |>.filter fun p => p % 64 = 0
  s.eraseBlocks 1 ((starts.map (· / 64 + 2)).filterMap fun b =>
    if b ≥ s.journalBlocks then some (b % s.journalBlocks) else none)

/-- Programs the first `n` records of the ring. -/
def State.programRing (s : State) (n : Nat) : State :=
  (({ s with evr := Evr.commit n s.evr s.journalBlocks }).wearJournal s.evr.written).afterCommit

/-- Commits the whole ring, held record included. -/
def State.commitAll (s : State) : State :=
  ({ s with evr := { s.evr with held := none } }).programRing s.evr.ring.length

/-- The SUMMARY record of a bucket's suppression (R579), which takes no token. -/
def State.summaryOf (s : State) (b : Bucket) : State :=
  let r := s.mkRec (eventCode 0xD srcEvr 1) 0 0xFF
    (leBytes 2 b.firstCode ++ zeros 2 ++ leBytes 4 b.supp ++ leBytes 8 b.first)
  s.push { r with last := b.last }

/-- Writes the SUMMARY of bucket `i` and restarts its count. -/
def State.endSuppression (s : State) (i : Nat) : State :=
  match mapFind s.evr.buckets i with
  | none => s
  | some b =>
    if b.supp = 0 then s
    else
      let s := s.summaryOf b
      { s with evr := { s.evr with buckets := mapInsert s.evr.buckets i { b with supp := 0 } } }

/-- The SUMMARY records of a flush or a reset are written (R583, R589). -/
def State.endSuppressions (s : State) : State := (s.evr.buckets.map (·.1)).foldl (fun s i => s.endSuppression i) s

/-- Held records are released and SUMMARY records written, then the ring is committed (R583, R589). -/
def State.flushRing (s : State) : State := s.endSuppressions.commitAll

/-! The commands -/

/-- The partition and the block in it of block `b` of NVM, counted through the partitions in order. DESIGN CHOICE, log entry
83, unsafe. DESIGN CHOICE, log entry 83, unsafe. -/
def State.blockAt (s : State) (b : Nat) : Option (Nat × Nat) :=
  let first := fun (p : Nat) => ((List.range p).map (nvmBlocks s.mpInService)).sum
  ((List.range 9).find? fun p => decide (first p ≤ b) && decide (b < first (p + 1))).map fun p => (p, b - first p)

/-- What an event counts where it arises: an error of an engine corrected (R274, R395), one of context memory (R410), a row
marked for its corrected errors
(R637, R639), a block of NVM whose correction used more than half the code's capacity, which is retired (R637).
DESIGN CHOICE, log entry 78, safe. -/
def State.countRowEvent (s : State) (code : Nat) (detail : Bytes) : State :=
  if codeCls code = 3 ∧ codeReason code = 4 then
    match (if 2 * leAt detail 4 1 > Config.bchBits then s.blockAt (leAt detail 0 4) else none) with
    | some (p, b) => s.retireBlock p b
    | none => s
  else if codeSrc code < 32 ∨ 103 ≤ codeSrc code then
    if codeCls code = 3 ∧ codeReason code = 5 then s.markShared (codeSrc code)
    else if codeCls code = 3 ∧ codeReason code = 0 then s.countCorrection (codeSrc code - srcDdr 0)
    else s
  else if codeCls code = 2 ∧ codeReason code = 3 then
    s.onEngine (codeSrc code - 32) fun x => { x with corr := sat 0xFFFF (x.corr + 1) }
  else if codeCls code = 3 ∧ codeReason code = 5 then
    s.onEngine (codeSrc code - 32) fun x => { x with marked := x.marked + 1 }
  else s

/-- The code is one that the part records: its class, source and reason are listed (R570, R571, R616, R635, R644). -/
def listedEvent (c : Nat) : Bool :=
  let u := codeSrc c
  let r := codeReason c
  let engine := 32 ≤ u && u ≤ 102
  let slice := (257 ≤ u && u ≤ 320) || u = 383
  let ns := 111 ≤ u && u ≤ 114
  let ddr := u = 107 || u = 108
  match codeCls c with
  | 1 => if r ≤ 3 then slice else u = srcSch
  | 2 => r ≤ 3 && (engine || (r = 1 && (u = 104 || u = 105)))
  | 3 =>
    (match r with
    | 0 => ddr
    | 1 => ddr || u = srcCmc
    | 2 | 3 => u = srcCmc
    | 4 => u = srcNvm
    | 5 => engine || (104 ≤ u && u ≤ 125)
    | _ => false)
  | 4 => if r = 2 then slice else r ≤ 3 && u = srcHif
  | 5 => if r = 7 then slice else if r = 2 || r = 5 || r = 6 then u = srcRng else ns
  | 6 => if r = 2 || r = 3 then slice else r ≤ 4 && u = srcKey
  | 7 => r ≤ 5 && u = srcLcs
  | 8 => if r = 4 then u = 15 else if r = 6 then u = 18 else u ≤ 19
  | 9 => if r = 4 then u = srcEvr else r ≤ 3 && u = srcDbg
  | 0xA =>
    if r = 0 then u ≤ 19 || (104 ≤ u && u ≤ 125) || slice
    else if r = 1 || r = 2 || r = 7 then u = srcNvm else u = srcSys
  | 0xB => if r ≤ 2 || r = 7 then u = srcPwr else u = srcTim
  | 0xC => r ≤ 3 && u = srcMp
  | 0xD => u = srcEvr
  | 0xE => engine || (u = srcNvm && (r = 4 || r = 5 || r = 7))
  | _ => false

/-- Faults whose reports pass the aggregator: of units, and of the reads of context memory (R571, R576). -/
def reported (code : Nat) : Bool :=
  (codeCls code = 2 && codeReason code = 1) || (codeCls code = 3 && codeReason code = 1)

/-- A report about a unit fault, or about a read of context memory that fails, of a source that no other command brings: the
read names the logical address, whose data block fails from now on (R409, R410, R571, R576).
DESIGN CHOICE, log entry 60, safe. -/
def State.reportEvent (s : State) (code slice engine : Nat) (detail : Bytes) : State :=
  let src := codeSrc code
  if codeCls code = 3 then
    let b := leAt detail 8 8 / 512
    if s.cmc.ready && decide (b * 512 < s.cmc.usable) then s.blockFails b (decide (src = srcCmc)) else s
  else
    let first := if 32 ≤ src ∧ src < 103 then src - 32 else src
    s.report src (leAt detail 0 1) (s.mkRec code slice engine (fit 2 detail ++ leBytes 2 first ++ detail.drop 4))

/-- A block of NVM fails verification twice, and is retired: NVM_BLOCK names it in DETAIL bytes 0 to 3 (R637, R644).
DESIGN CHOICE, log entry 83, unsafe. -/
def State.verifyFails (s : State) (detail : Bytes) : State :=
  match s.blockAt (leAt detail 0 4) with
  | some (p, b) => s.retireBlock p b
  | none => s

/-- EVENT_RECORD, R573: an event of a source that no other command brings; the part records no code that is not listed
(R571). -/
def execEventRecord (code : BitVec 16) (slice engine : Nat) (detail : Bytes) (s : State) :
    Host.Outcome State Fault Refusal :=
  .next (
    if !listedEvent code.toNat then s
    else if reported code.toNat then s.reportEvent code.toNat slice engine detail
    else if code.toNat = eventCode 0xE srcNvm 7 then s.verifyFails detail
    else (s.intake (s.mkRec code.toNat slice engine detail)).countRowEvent code.toNat detail)

/-- AGGREGATOR_WINDOW_CLOSE, R576: 100 µs after the window of a unit and cause opened. -/
def execAggregatorWindowClose (unit cause : Nat) (s : State) : Host.Outcome State Fault Refusal :=
  .next (match s.evr.windows.find? fun w => w.unit = unit && w.cause = cause with
    | some w => if s.el ≥ w.opened + 100000 then s.closeWindow unit cause else s
    | none => s)

/-- HELD_RECORD_RELEASE, R578: the held record of a TRL3620 may be committed 1 s after its TIME. -/
def execHeldRecordRelease (s : State) : Host.Outcome State Fault Refusal :=
  .next (match s.evr.held with
    | some q =>
      match s.evr.ring.find? fun r => r.seq = q with
      | some r => if s.el ≥ r.born + 1000000000 then { s with evr := { s.evr with held := none } } else s
      | none => s
    | none => s)

/-- SUMMARY, R579: suppression of a code ends 1 s after its last suppressed occurrence or 60 s after its first. -/
def execSummary (code : Nat) (s : State) : Host.Outcome State Fault Refusal :=
  .next (match s.evr.buckets.find? fun e => e.2.codes.contains code with
    | some (i, b) =>
      if b.supp > 0 && (s.el ≥ b.lastAt + 1000000000 || s.el ≥ b.firstAt + 60000000000) then s.endSuppression i
      else s
    | none => s)

/-- The most records that are staged for one area (R581): once the retained area is full there is one area only (R582). -/
def Evr.stagedOfOne (v : Evr) : Nat :=
  let k := retainedPlaces false v.ring
  if v.retained.length ≥ retainedCap then v.ring.length else max k (v.ring.length - k)

/-- COMMIT_GROUP, R581: the steward programs the group at the head of the ring. `ok` false: the program failed after
spare blocks were used, which is recorded and leaves the records staged. -/
def execCommitGroup (ok : Bool) (s : State) : Host.Outcome State Fault Refusal :=
  let n := s.evr.groupLength
  let old := match s.evr.ring with
    | r :: _ => s.el ≥ r.since + 10000000
    | [] => false
  .next (
    if !s.awake || !s.evr.ready || n = 0 || !(s.evr.stagedOfOne ≥ 8 || old || s.evr.flushing)
        || (match s.lcs.trans with | some t => t.step ≥ 3 | none => false) then s
    else if ok then s.programRing n
    else s.event 0xD srcEvr 4)

/-- SNAP_SET_WRITE, R574, R575: a register of a snapshot set takes a value and the change is recorded. -/
def State.snapWrite (s : State) (r : Reg) (v : Word) : State :=
  match r with
  | .snapCtrl i | .snapMatch i | .snapReg i _ =>
    if s.reservedFor r (v &&& r.mask) then s.configEvent srcEvr
    else (s.setReg r (v &&& r.mask)).event 0xD srcEvr 7 0 0xFF (leBytes 1 i)
  | _ => s

def execSnapSetWrite (off : Nat) (v : Word) (s : State) : Host.Outcome State Fault Refusal :=
  .next (match regAt off with
    | some r => s.gate off fun s => s.snapWrite r v
    | none => s)

/-- Every record that can be read: overwritable area, retained area and ring. -/
def Evr.all (v : Evr) : List Rec := mapVals v.area ++ v.retained ++ v.ring

/-- The record is reserved to READ_JOURNAL_ALL (R585): its VENDOR flag, or that of the record it extends. -/
def Evr.isVendor (v : Evr) (r : Rec) : Bool :=
  if r.ext.isSome then v.all.any fun b => b.ext.isNone && b.vendor && b.seq < r.seq && r.seq ≤ b.seq + b.exts
  else r.vendor

/-- JOURNAL_LOOKUP, R584: loads the record with the lowest SEQ at or above the value written. -/
def State.lookup (s : State) (hi : Word) : State :=
  let lo := (mapFind s.loHeld 0xA0030).getD (s.reg (.rdSeq false))
  let v := lo.toNat + 2 ^ 32 * hi.toNat
  match leastBy Rec.seq (s.evr.all.filter fun r => v ≤ r.seq) with
  | some r =>
    let open_ := s.dbg.active && bitAt s.dbg.rights 0
    let b := if s.evr.isVendor r && !open_ then (if r.ext.isSome then zeros 64 else r.bytes.take 32 ++ zeros 32) else r.bytes
    let s := { s with evr := { s.evr with data := b, found := true, none_ := false } }
    let s := s.setPair .rdSeq r.seq
    { s with loHeld := mapErase s.loHeld 0xA0030 }
  | none =>
    ({ s with evr := { s.evr with found := false, none_ := true } }).setPair .rdSeq v

def execJournalLookup (hi : Word) (s : State) : Host.Outcome State Fault Refusal :=
  .next (s.gate 0xA0034 fun s => s.lookup hi)

/-- A clear erases every block of the overwritable area whose records all have SEQ at most `upto`, the block of the
write point apart, and records CLEARED (R587). `how`: 1 grant, 2 token. -/
def State.clearJournal (s : State) (upto how : Nat) : State :=
  let cur := s.evr.written / 64
  let high := fun b => mapVals (mapKeep s.evr.area fun p _ => decide (p / 64 = b))
  let gone := s.evr.area.filter fun (p, _) => decide (p / 64 < cur) && (high (p / 64)).all fun r => r.seq ≤ upto
  let top := gone.foldl (fun a e => max a e.2.seq) 0
  let s := { s with evr := { s.evr with
    area := mapKeep s.evr.area fun p r => !gone.contains (p, r), cmdRes := 1 } }
  let s := s.eraseBlocks 1 ((List.range s.journalBlocks).filter fun b => gone.any fun e => decide (e.1 / 64 % s.journalBlocks = b))
  s.event 0xD srcEvr 2 0 0xFF (leBytes 4 gone.length ++ leBytes 8 top ++ leBytes 1 how)

/-- A refused clear: RESULT is set and recorded in class 0x9 (R571, R587). -/
def State.refuseClear (s : State) (res : Nat) : State :=
  ({ s with evr := { s.evr with cmdRes := res } }).event 9 srcEvr 4 0 0xFF (leBytes 1 res)

/-- A flush or an accepted transition is in progress; a clear ends with the command that begins it.
DESIGN CHOICE, log entry 79, unsafe. -/
def State.clearBusy (s : State) : Bool := s.evr.flushing || s.lcs.trans.isSome

/-- CLEAR_GRANT, R586, R587. -/
def State.clearByGrant (s : State) : State :=
  if s.clearBusy then s.refuseClear 5
  else if !(s.dbg.active && bitAt s.dbg.rights 8) then s.refuseClear 2
  else s.clearJournal (s.pair .clrUpto) 1

def execClearGrant (s : State) : Host.Outcome State Fault Refusal :=
  .next (s.gate 0xA0088 fun s => s.clearByGrant)

/-- `n` bytes of DBG_MBOX (R545). -/
def State.mboxBytes (s : State) (n : Nat) : Bytes := (List.range n).map fun i => mapGet 0 s.dbg.mbox i

/-- The message M′ of pure ML-DSA and SLH-DSA: 0, the length of the context, the context, the message (FIPS 204). -/
def pureMessage (ctx msg : Bytes) : Bytes := [0] ++ leBytes 1 ctx.length ++ ctx ++ msg

/-- CLEAR_TOKEN, R586, R587: the token lies in DBG_MBOX; its check consumes the challenge.
DESIGN CHOICE, log entry 79, unsafe. -/
def State.clearByToken (s : State) (len : Nat) : State :=
  let t := s.mboxBytes 3389
  let chal := s.dbg.chal
  let ok :=
    decide (len = 3389) && decide (leAt t 0 4 = 0x434C5254) && decide (leAt t 4 2 = 1) && decide (leAt t 6 2 = 3389)
      && decide (cut t 8 16 = s.fuses.serial) && decide (chal.map (·.1) = some (cut t 24 32))
      && decide (s.lcs.debugKey ≠ []) && decide (cut t 64 16 = keyId s.lcs.debugKey)
      && (s.lcs.code = 5 || s.lcs.code = 6)
  if s.clearBusy then s.refuseClear 5
  else
    let s := { s with dbg := { s.dbg with chal := none } }
    if !ok then s.refuseClear 3
    else if !Config.mldsaVerify 6 s.lcs.debugKey (pureMessage (ascii "TRL-CLR") (cut t 0 80)) (cut t 80 3309) then
      s.refuseClear 4
    else s.clearJournal (leAt t 56 8) 2

def execClearToken (len : Nat) (s : State) : Host.Outcome State Fault Refusal :=
  .next (s.gate 0xA0088 fun s => s.clearByToken len)

end Sys2Proof.Machine
end

