-- ==== Sys2Proof/Machine/Reset.lean ====
section
/-! DEFINITION. The reset of the part with power present (R51, R105, R248, R298, R390, R457, R485, R543, R568, R589,
R615, R619) and the commands that cause it. The start that follows is COLD_START. -/

namespace Sys2Proof.Machine

/-- The admission and dispatch of SCH are stopped: a transition is accepted (R529), an alarm of response HALT or more
severe is active (R550), or the part has no context memory (R405). DEDUCED, log entry 18, safe. -/
def State.schStopped (s : State) : Bool := s.lcs.trans.isSome || s.response ≥ 3 || s.cmc.popCode = 1

/-- What an engine keeps through a reset: its place in the map, its aging base, and the steward's counts in NVM
(R42, R379, R637). A quarantined unit is ACTIVE again, as the spare records name it, but for one that an alarm contains,
which stays so until it is cleared (R551). DEDUCED, log entry 48, unsafe. -/
def Engine.kept (x : Engine) : Engine :=
  { unit := if x.unit = .quarantined ∧ !x.contained then .active else x.unit, logical := x.logical, ageBase := x.ageBase
    contained := x.contained
    checks := x.checks, faults := x.faults, marked := x.marked }

/-- A record's volatile part is lost; its log stays (R137, R451). -/
def StfRecord.kept (r : StfRecord) : StfRecord :=
  { r with next := 0, pending := false, target := 0, heldBack := false, built := false, firstOf := none }

/-- Everything that SRAM and registers hold is frosted or set to its reset value; NVM, the AON domain, the time base,
JTAG and SMBus are kept. DEDUCED, log entry 81, unsafe. -/
def State.clearVolatile (s : State) : State :=
  { s with
    regs := match mapFind s.regs Reg.timTrim.addr with
      | some v => [(Reg.timTrim.addr, v)]
      | none => []
    loHeld := [], loCap := [], held := [], accepted := [], slices := [], sch := {}, vces := []
    kmg := { s.kmg with
      ready := false, rootNew := false, creation := 0, slots := [], clock := 0, sessions := [], sessBase := []
      sessCache := []
      stf := s.kmg.stf.map fun e => (e.1, e.2.kept) }
    engines := mapAll {} s.engines fun _ x => x.kept
    cmc := {}, rng := {}
    code := { active := s.code.active, pending := s.code.pending, side := s.code.side, highest := s.code.highest
              removeAt := s.code.removeAt }
    mp := { s.mp with busy := false, op := none, result := 0, ctrBusy := false, ramTariffs := [], ramAudit := [] }
    evr := { next := s.evr.next, area := s.evr.area, written := s.evr.written, retained := s.evr.retained
             retFull := s.evr.retFull, tornNvm := s.evr.tornNvm }
    tmp := { roundAt := s.tmp.roundAt }
    lcs := { s.lcs with trans := none, result := 0, ownerBusy := false, ownerRes := 0 }
    dbg := {}
    tim := { s.tim with expired := false, range := false, phase := 0, accepted := 0, rejected := 0, holdBase := s.tim.elapsed }
    nvm := { s.nvm with op := none, result := 0, staging := [], commit := .idle, cres := 0, storeAfter := false }
    hif := {} }

/-- The internal scan chains close: an instruction that selects them acts as BYPASS again (R543, R672).
DEDUCED, log entry 43, unsafe. -/
def Jtag.closed (t : Jtag) : Jtag := if [0x00, 0x01, 0x02, 0x04, 0x05].contains t.ir then t else { t with ir := 0x3F }

/-- A grant ends: halted engines are released, the trace ring stops and is frosted, the internal scan chains close, and the end
is recorded with its cause, numbered as in R543. DESIGN CHOICE, log entry 46, unsafe. -/
def State.endGrant (s : State) (cause : Nat) : State :=
  if !s.dbg.active then s
  else
    let held := allEngines.filter fun e => (s.engine e).halted
    let s := held.foldl (fun (s : State) e => ((s.frostEngine e).loadConsts e).returned e) s
    let s := { s with dbg := { s.dbg with
      active := false, rights := 0, until_ := 0, issuer := 0, traceOn := false, trace := [], kat := none }, jtag := s.jtag.closed }
    s.event 9 srcDbg 2 0 0xFF (leBytes 1 cause)

/-- A reset with power present, START kind `kind`: an active grant ends (R543), the staging ring is committed (R583), then SRAM
is frosted. -/
def State.restart (s : State) (kind : Nat) : State :=
  let s := (s.endGrant 7).flushRing
  let s := s.clearVolatile
  { s with pwr := { s.pwr with st := .run, inReset := true, ready := false, start := kind, d3hot := false } }

/-! Loss of power (R51, R591, R664) -/

/-- An accepted transition whose word M is programmed keeps its records staged (R530). -/
def State.keepsRing (s : State) : Bool := match s.lcs.trans with | some t => decide (t.step ≥ 3) | none => false

/-- While PFAIL_N is low each new event has been committed at once as a group of its own, but the last `n` records, which were
being programmed (R583). -/
def State.pfailCommitted (s : State) (n : Nat) : State :=
  if s.evr.flushing && !s.keepsRing then s.programRing (s.evr.ring.length - n) else s

/-- Everything that needs the main rails is lost; NVM and the AON domain are kept. `torn` staged records were being
programmed when power failed and lie in NVM without their valid mark (R581, R664).
DESIGN CHOICE, log entry 41, unsafe. -/
def State.losePower (s : State) (torn : Nat) : State :=
  let n := min (min torn 8) s.evr.ring.length
  let s := s.pfailCommitted n
  let alive := s.pins.vbat || s.pins.vaon
  let s := { s.clearVolatile with regs := [] }
  { s with
    evr := { s.evr with tornNvm := s.evr.tornNvm + n, next := s.evr.next }
    tim := { elapsed := s.tim.elapsed }
    pwr := { st := if alive then .winter else .off, opSec := s.pwr.opSec, opNs := s.pwr.opNs }
    aon := { s.aon with tripped := [] }
    jtag := {}, smb := { addr := s.smb.addr }
    pins := { s.pins with rails := false, perstN := false } }

/-- The reset happens only to a part that has power and is not held in reset already. -/
def State.powered (s : State) : Bool := !s.pwr.inReset && (s.awake || s.pwr.st = .sleep)

/-- PERST_N_ASSERT, R105: queue state and jobs in flight are lost. -/
def execPerstNAssert (s : State) : Host.Outcome State Fault Refusal :=
  .next (
    let s := { s with pins := { s.pins with perstN := false } }
    if s.powered then s.restart 2 else s)

/-- LINK_DOWN, R55: recorded, then the reset that PERST_N causes. -/
def execLinkDown (s : State) : Host.Outcome State Fault Refusal :=
  .next (if s.powered then (s.event 4 srcHif 1).restart 2 else s)

/-- SYS_RESET, R652: the value 0x5253_4554 resets the part as PERST_N does, with START 0x3. Another value, or an
accepted transition (R530), discards the write with a configuration event. -/
def State.sysReset (s : State) (v : Word) : State :=
  if v = 0x52534554 ∧ s.lcs.trans.isNone then s.restart 3 else s.configEvent srcSys

def execSysReset (v : Word) (s : State) : Host.Outcome State Fault Refusal :=
  .next (s.gate 0x10 fun s => s.sysReset v)

end Sys2Proof.Machine
end

