-- ==== Sys2Proof/Machine/LifeCycle.lean ====
section
/-! DEFINITION. Life-cycle states and owner keys (R523 to R536): state words, markers, the transition sequence, and the
commands of that block. -/

namespace Sys2Proof.Machine

/-- The command word accepted for a shadowed register, and the state without it; the register reads 0 in the fields of
a command that has been carried out. DEDUCED, log entry 16, safe. -/
def State.takeCommand (s : State) (r : Reg) : Option (Word × State) :=
  match mapFind s.accepted r.addr with
  | some w => some (w, { s with accepted := mapErase s.accepted r.addr })
  | none => none

/-- The state words (R524). -/
def stateWord (code : Nat) : Option Dword :=
  match code with
  | 3 => some 0xCCCCCCCC33333333 | 5 => some 0xAAAAAAAA55555555 | 6 => some 0x9999999966666666
  | 9 => some 0x6666666699999999 | 0xC => some 0x33333333CCCCCCCC
  | _ => none

/-- The state of a state word. -/
def wordState (w : Dword) : Option Nat := [3, 5, 6, 9, 0xC].find? fun c => stateWord c = some w

/-- The M word of a marker: from `f` to `t` (R524). -/
def markerWord (f t : Nat) : Dword := BitVec.ofNat 64 (0x4C434D4B00000000 + 16 * (f % 16) + t % 16)

/-- The M word reads exactly its value. -/
def Marker.exact (k : Marker) : Bool := decide (k.m.toNat / 256 = 0x4C434D4B000000)

/-- The determination of the state at a start (R525). -/
def Lcs.determine (l : Lcs) : Nat :=
  let open_ := match (l.markers.filter Marker.exact).getLast? with
    | some k => decide (k.c ≠ some (~~~k.m))
    | none => false
  if open_ then 0xF
  else match l.words.getLast? with
    | some w => (wordState w).getD 0xF
    | none => 0xF

/-- The permitted transitions (R527). -/
def permitted (f t : Nat) : Bool :=
  match f with
  | 3 => t = 5 || t = 0xC
  | 5 => t = 6 || t = 0xC
  | 6 => t = 9 || t = 0xC
  | 9 => t = 0xC
  | 0xF => t = 0xC
  | _ => false

/-- A refused request: RESULT is set and recorded (R528). -/
def State.refuseRequest (s : State) (res f t : Nat) : State :=
  ({ s with lcs := { s.lcs with result := res } }).event 7 srcLcs 0 0 0xFF (leBytes 1 res ++ leBytes 1 f ++ leBytes 1 t)

/-- An accepted transition that is abandoned (R529, R530): admission, dispatch and commits go on. -/
def State.refuseTransition (s : State) (res f t : Nat) : State :=
  (({ s with lcs := { s.lcs with trans := none } }).releaseCommits).refuseRequest res f t

/-- A commit of KEY that has started is still being programmed (R529). -/
def State.commitRuns (s : State) : Bool := s.kmg.stf.any fun e => e.2.pending && !e.2.heldBack && e.2.firstOf.isNone

/-- A STORE or DEFAULTS is in progress. -/
def State.storing (s : State) : Bool :=
  match s.nvm.op with
  | some (.store ..) => true
  | some .defaults => true
  | _ => false

/-- NVM_PKG_STATUS.BUSY or MP_STATUS.BUSY is 1, or a settings store is in progress (R528). -/
def State.nvmBusy (s : State) : Bool := s.code.busy || s.mp.busy || s.storing

/-- The checks of R528 in their order: 0 accepts. -/
def State.transitionCheck (s : State) (f t : Nat) : Nat :=
  if f ≠ s.lcs.code then 1
  else if !permitted f t then 2
  else if s.pwr.pfail then 3
  else if s.aon.alarms ≠ [] then 4
  else if s.nvmBusy || s.lcs.trans.isSome then 5
  else 0

/-- Step 1 of R529: BUSY, admission and dispatch stop, an active grant ends. -/
def State.acceptTransition (s : State) (f t : Nat) : State :=
  ({ s with lcs := { s.lcs with trans := some { from_ := f, into := t } } }).endGrant 5

/-- The next step of an accepted transition (R529, R530). Commits already started finish before the second. `ok` false: word M
could not be programmed; nor can it where the life-cycle area has no word or pair left (R524). -/
def State.transitionStep (s : State) (ok : Bool) : State :=
  match s.lcs.trans with
  | none => s
  | some t =>
    let at_ := fun (s : State) n => { s with lcs := { s.lcs with trans := some { t with step := n } } }
    if t.step = 1 ∧ s.commitRuns then s
    else if t.step = 1 then
      let s := (s.event 7 srcLcs 1 0 0xFF (leBytes 1 t.from_ ++ leBytes 1 t.into)).commitAll
      if s.pwr.pfail then s.refuseTransition 3 t.from_ t.into
      else if s.aon.alarms ≠ [] then s.refuseTransition 4 t.from_ t.into
      else at_ s 2
    else if t.step = 2 then
      if !ok || s.lcs.markers.length ≥ 8 || s.lcs.words.length ≥ 8 then s.refuseTransition 6 t.from_ t.into
      else at_ { s with lcs := { s.lcs with markers := s.lcs.markers ++ [{ m := markerWord t.from_ t.into }] } } 3
    else if t.step = 3 then
      -- LOST has no root, and skips the step (R532); the copy comes first, then the old block is erased
      if t.from_ = 0xF then at_ s 4
      else if s.nvm.unref.isSome ∧ (mapFind s.kmg.roots t.from_).isNone then at_ s.eraseUnref 4
      else if s.nvm.pool = 0 then at_ (s.copyRoots (mapErase s.kmg.roots t.from_)) 4
      else s.eraseUnref.copyRoots (mapErase s.kmg.roots t.from_)
    else if t.step = 4 then
      match stateWord t.into with
      | some w => at_ { s with lcs := { s.lcs with words := s.lcs.words ++ [w] } } 5
      | none => s
    else if t.step = 5 then
      let marks := modifyAt s.lcs.markers (s.lcs.markers.length - 1) fun k => { k with c := some (~~~k.m) }
      at_ { s with lcs := { s.lcs with markers := marks } } 6
    else
      let s := if s.response = 5 then
          ({ s with aon := { s.aon with latch := false } }).eraseRoots
        else s
      s.restart 2

/-- `n` further steps of an accepted transition. -/
def State.transitionRun : Nat → State → Bool → State
  | 0, s, _ => s
  | n + 1, s, ok => (s.transitionStep ok).transitionRun n ok

/-- TRANSITION, R528, R529: the accepted request is checked and, if it is accepted, `steps` steps of the sequence are
carried out; with no request waiting, an accepted transition goes on by that many steps.
DESIGN CHOICE, log entry 53, safe. -/
def execTransition (steps : Nat) (ok : Bool) (s : State) : Host.Outcome State Fault Refusal :=
  .next (match s.takeCommand .lcsTransition with
    | some (w, s) =>
      let f := fld w 7 4
      let t := fld w 3 0
      let res := s.transitionCheck f t
      if res ≠ 0 then s.refuseRequest res f t
      else (s.acceptTransition f t).transitionRun (steps - 1) ok
    | none => s.transitionRun steps ok)

/-- The end of an install of an owner key (R536): RESULT, and on success the key with its event. -/
def State.ownerInstall (s : State) (debug : Bool) (data : Option Bytes) (ok : Bool) : State :=
  let set := fun (s : State) res => { s with lcs := { s.lcs with ownerBusy := false, ownerRes := res } }
  if s.lcs.code ≠ 5 then set s 1
  else match data with
  | none => set s 3
  | some k =>
    if k.length ≠ 1952 || !Config.keyFormOk 0x0216 k then set s 2
    else if !ok then set s 4
    else
      let s := set s 0
      let s := if debug then { s with lcs := { s.lcs with debugKey := k } }
        else { s with lcs := { s.lcs with codeKey := k } }
      s.event 7 srcLcs (if debug then 4 else 3) 0 0xFF (keyId k)

/-- A long NVM operation that starts ends in its command: it is asked to and no power failure holds new operations back
(R583), or another operation of the steward is still running. -/
def State.endsNow (s : State) (now : Bool) : Bool := (now && !s.pwr.pfail) || s.nvm.op.isSome

/-- Starts an install; `now` also ends it. -/
def State.ownerCommand (s : State) (cmd : Nat) (data : Option Bytes) (ok now : Bool) : State :=
  match s.takeCommand .ownerCmd with
  | some (w, s') =>
    if fld w 31 28 ≠ cmd then s
    else
    let s' := if s'.lcs.code = 5 then s'.stewardRead (s'.pair .ownerAddr) 1952 else s'
    if s'.endsNow now then s'.ownerInstall (cmd = 2) data ok
    else { s' with lcs := { s'.lcs with ownerBusy := true }, nvm := { s'.nvm with op := some (.ownerKey (cmd = 2) data ok) } }
  | none => s

/-- INSTALL_CODE_KEY, R536: `data` is what HDX reads at LCS_OWNER_ADDR, none where the read fails. -/
def execInstallCodeKey (data : Option Bytes) (ok now : Bool) (s : State) : Host.Outcome State Fault Refusal :=
  .next (s.ownerCommand 1 data ok now)

/-- INSTALL_DEBUG_KEY, R536. -/
def execInstallDebugKey (data : Option Bytes) (ok now : Bool) (s : State) : Host.Outcome State Fault Refusal :=
  .next (s.ownerCommand 2 data ok now)

end Sys2Proof.Machine
end

