-- ==== Sys2Proof/Machine/Debug.lean ====
section
/-! DEFINITION. Debug grants (R537 to R545): challenges, the checks of PRESENT, and the actions a grant opens. -/

namespace Sys2Proof.Machine

/-- A command word of DBG_CMD with the command `cmd`. -/
def State.dbgCommand (s : State) (cmd : Nat) : Option (Word × State) :=
  match s.takeCommand .dbgCmd with
  | some (w, s') => if fld w 31 28 = cmd then some (w, s') else none
  | none => none

/-- NEW_CHALLENGE, R539, from the steward's instance (R466). Before the harvest is complete, and while that instance cannot
serve, the challenge stays 0 and invalid. -/
def State.newChallenge (s : State) : State :=
  if s.canServe 5 then
    let (b, s) := s.generate 5 32
    { s with dbg := { s.dbg with chal := some (b, s.el), chalReg := b } }
  else { s with dbg := { s.dbg with chal := none, chalReg := [] } }

def execNewChallenge (s : State) : Host.Outcome State Fault Refusal :=
  .next (match s.dbgCommand 1 with
    | some (_, s) => s.newChallenge
    | none => s)

/-- The fields of a grant (R538). -/
structure Grant where
  serial    : Bytes
  challenge : Bytes
  from_     : Nat
  until_    : Nat
  rights    : Word
  issuer    : Bytes
  sig       : Bytes
deriving DecidableEq, Repr

/-- Reads a grant whose format is right: header, items in order with their lengths, padding (R538). -/
def parseGrant (b : Bytes) : Option Grant :=
  let item := fun o ty len => decide (leAt b o 2 = ty) && decide (leAt b (o + 2) 2 = len)
  let sl := leAt b 118 2
  if leAt b 0 4 = 0x44475254 ∧ leAt b 4 2 = 1 ∧ leAt b 6 2 = b.length ∧ b.length ≤ 8192
      ∧ item 8 1 16 ∧ item 28 2 32 ∧ item 64 3 8 ∧ item 76 4 8 ∧ item 88 5 4 ∧ item 96 6 16
      ∧ leAt b 116 2 = 0xFF ∧ b.length = 120 + roundUp sl 4 ∧ (b.drop (120 + sl)).all (· = 0) then
    some { serial := cut b 12 16, challenge := cut b 32 32, from_ := leAt b 68 8, until_ := leAt b 80 8
           rights := w32 (leAt b 92 4), issuer := cut b 100 16, sig := cut b 120 sl }
  else none

/-- The rights an issuer, 1 vendor or 2 owner, may grant in a state (R537); none where it may grant nothing. -/
def grantable (issuer code : Nat) : Option Word :=
  match issuer, code with
  | 1, 3 => some 0x1FF | 1, 5 => some 0x1FF | 1, 6 => some 0x049 | 1, 9 => some 0x1FF | 1, 0xC => some 0x021
  | 2, 5 => some 0x1DF | 2, 6 => some 0x1DF
  | _, _ => none

/-- The vendor debug keys in steward ROM. DESIGN CHOICE, log entry 24, safe. -/
def vendorDebugKeys : List Bytes := [fit 2592 (Config.vendorKey 1), fit 2592 (Config.vendorKey 2)]

/-- The issuer a key id names: 1 with the vendor key, 2 with the owner debug key. -/
def State.issuerOf (s : State) (kid : Bytes) : Option (Nat × Bytes) :=
  match vendorDebugKeys.find? fun k => keyId k = kid with
  | some k => some (1, k)
  | none => if s.lcs.debugKey ≠ [] ∧ keyId s.lcs.debugKey = kid then some (2, s.lcs.debugKey) else none

/-- The checks of R540 in their order on `b`, the LEN bytes presented. -/
def State.checkGrant (s : State) (b : Bytes) : Nat × Nat :=
  match parseGrant b with
  | none => (2, 0)
  | some g =>
    if g.serial ≠ s.fuses.serial then (3, 0)
    else if s.dbg.chal.map (·.1) ≠ some g.challenge then (4, 0)
    else match s.issuerOf g.issuer with
    | none => (5, 0)
    | some (who, key) =>
      match grantable who s.lcs.code with
      | none => (6, who)
      | some allowed =>
        if g.rights &&& ~~~allowed ≠ 0 then (7, who)
        else if s.now < g.from_ ∨ g.until_ ≤ s.now ∨ g.until_ ≤ g.from_
            ∨ g.until_ > g.from_ + 86400000000000 then (8, who)
        else if s.response ≥ 3 then (9, who)
        else
          let len := if who = 1 then 4627 else 3309
          let set := if who = 1 then 8 else 6
          if g.sig.length ≠ len ∨ !Config.mldsaVerify set key (pureMessage (ascii "TRL-DBG") (b.take 116)) g.sig then
            (0xA, who)
          else (1, who)

/-- PRESENT, R540: an active grant ends first; the challenge is used up and the mailbox frosted; the result is recorded
(R544) and OK makes the grant active. -/
def State.present_ (s : State) (len : Nat) : State :=
  let s := s.endGrant 4
  let b := s.mboxBytes len
  let (res, who) := s.checkGrant b
  let g := parseGrant b
  let rights := (g.map Grant.rights).getD 0
  let till := (g.map Grant.until_).getD 0
  let kid := (g.map Grant.issuer).getD []
  let s := { s with dbg := { s.dbg with chal := none, mbox := [], result := res } }
  let s := if res = 1 then
      { s with dbg := { s.dbg with active := true, issuer := who, rights := rights, until_ := till } }
    else s
  s.event 9 srcDbg 0 0 0xFF (leBytes 1 res ++ leBytes 4 rights.toNat ++ leBytes 8 till ++ kid.take 3)

def execPresent (s : State) : Host.Outcome State Fault Refusal :=
  .next (match s.dbgCommand 2 with
    | some (w, s) => s.present_ (fld w 13 0)
    | none => s)

/-- REVOKE, R543. -/
def execRevoke (s : State) : Host.Outcome State Fault Refusal :=
  .next (match s.dbgCommand 3 with
    | some (_, s) => s.endGrant 3
    | none => s)

/-- CHALLENGE_EXPIRY, R539: 600 s after it was drawn the challenge ceases to be valid. -/
def execChallengeExpiry (s : State) : Host.Outcome State Fault Refusal :=
  .next (match s.dbg.chal with
    | some (_, t) => if s.el ≥ t + 600000000000 then { s with dbg := { s.dbg with chal := none } } else s
    | none => s)

/-- GRANT_EXPIRY, R543: station time reaches VALID_UNTIL. -/
def execGrantExpiry (s : State) : Host.Outcome State Fault Refusal :=
  .next (if s.dbg.active && s.dbg.until_ ≤ s.now then s.endGrant 1 else s)

/-! Actions (R541) -/

/-- A command word of DBG_ACT with the action `act`: its argument, and whether the right `bit` is held. -/
def State.dbgAction (s : State) (act bit : Nat) : Option (Nat × Bool × State) :=
  match s.takeCommand .dbgAct with
  | some (w, s') =>
    if fld w 31 28 = act then some (fld w 15 0, s'.dbg.active && bitAt s'.dbg.rights bit, s') else none
  | none => none

/-- An action carried out is recorded with ACT and ARG, one discarded without detail (R541, R544, R571). -/
def State.recordAction (s : State) (ok : Bool) (act arg : Nat) : State :=
  if ok then s.event 9 srcDbg 1 0 0xFF (leBytes 2 act ++ leBytes 2 arg) else s.event 9 srcDbg 3

/-- A job of slice 127 is on the engine (R505). -/
def State.holdsMetrology (s : State) (e : Nat) : Bool :=
  s.sch.jobs.any fun (j, x) => decide (x.slice = 127) &&
    (((s.engine e).running.map (·.1)) = some j || ((s.engine e).incoming.map (·.1)) = some j
      || (s.engine e).results.any fun r => decide (r.1 = j))

/-- HALT: the engine takes no more jobs; its staged job is READY again and its running job ends as usual (steps 1 to 3
of R289). -/
def State.haltEngine (s : State) (e : Nat) : State :=
  let s := ((s.unstage e).quarantine e).onEngine e fun x => { x with halted := true }
  if (s.engine e).running.isNone then s.frostEngine e else s

def execHalt (s : State) : Host.Outcome State Fault Refusal :=
  .next (match s.dbgAction 1 1 with
    | some (e, right, s) =>
      let ok := right && decide (e < 71) && (s.engine e).unit = .active && !s.reserved e && !s.holdsMetrology e
      (if ok then s.haltEngine e else s).recordAction ok 1 e
    | none => s)

/-- RELEASE: frosts a halted engine, with the known-answer job on it, and returns it to ACTIVE. -/
def execRelease (s : State) : Host.Outcome State Fault Refusal :=
  .next (match s.dbgAction 2 1 with
    | some (e, right, s) =>
      let ok := right && (s.engine e).halted
      let rest := s.dbg.kat.filter fun k => decide (k.1 ≠ e)
      let s := if ok then (({ s with dbg := { s.dbg with kat := rest } }.frostEngine e).loadConsts e).returned e else s
      s.recordAction ok 2 e
    | none => s)

/-- Engines `e` and `spare` exchange their places through R289 and R45. -/
def State.exchange (s : State) (e spare : Nat) : State :=
  let l := (s.engine e).logical
  let s := (s.unstage e).frostEngine e
  let s := s.onEngine e fun x => { x with unit := .spare, logical := 0xFF, gated := true }
  let s := (s.onEngine spare fun x => { x with unit := .active, logical := l }).recordMap
  (s.ungate spare).event 0xE (srcEngine spare) 0 0 spare

/-- SPARE: the engine ARG and the spare of its class that the part chooses exchange their places. The action of an
engine that runs a job, or whose results have not drained, waits for that (R289). DEDUCED, log entry 80, unsafe. -/
def execSpare (spare : Nat) (s : State) : Host.Outcome State Fault Refusal :=
  .next (match s.dbgAction 4 6 with
    | some (e, right, s') =>
      let ok := right && decide (e < 71) && decide (spare < 71) && (s'.engine e).unit = .active
        && (s'.engine spare).unit = .spare && clsOf e = clsOf spare
      if ok && ((s'.engine e).running.isSome || (s'.engine e).results ≠ []) then s.unstage e
      else (if ok then s'.exchange e spare else s').recordAction ok 4 e
    | none => s)

/-- TRACE_ON. -/
def execTraceOn (s : State) : Host.Outcome State Fault Refusal :=
  .next (match s.dbgAction 5 3 with
    | some (a, right, s) =>
      (if right then { s with dbg := { s.dbg with traceOn := true } } else s).recordAction right 5 a
    | none => s)

/-- TRACE_OFF. -/
def execTraceOff (s : State) : Host.Outcome State Fault Refusal :=
  .next (match s.dbgAction 6 3 with
    | some (a, right, s) =>
      (if right then { s with dbg := { s.dbg with traceOn := false } } else s).recordAction right 6 a
    | none => s)

/-- The source of the event code `a` is an engine that holds a job of slice 127 (R505).
DEDUCED, log entry 80, unsafe. -/
def State.sealedSource (s : State) (a : Nat) : Bool :=
  32 ≤ codeSrc a && codeSrc a < 103 && s.holdsMetrology (codeSrc a - 32)

/-- INJECT: the code ARG enters EVR with the injected mark; it triggers no tamper response. A code of class 0xF, which the
part never records, does not fit (R16).
DEDUCED, log entry 80, unsafe. -/
def execInject (s : State) : Host.Outcome State Fault Refusal :=
  .next (match s.dbgAction 7 7 with
    | some (a, right, s) =>
      let ok := right && !s.sealedSource a && decide (codeCls a ≠ 0xF)
      (if ok then s.intake { s.mkRec a 0 0xFF [] with injected := true } else s).recordAction ok 7 a
    | none => s)

/-- DBG_WIN_DATA_READ, R542: returns the selected word and advances OFFSET. -/
def State.windowRead (s : State) : State :=
  let w := s.windowWord
  let sel := s.reg .winSel
  let s := s.setReg .winSel (setField sel 23 0 (fld sel 23 0 + 1))
  s.emit (.readReply w)

/-- DBG_WIN_DATA_READ (R542). DEDUCED, log entry 73, unsafe. -/
def execDbgWinDataRead (s : State) : Host.Outcome State Fault Refusal :=
  .next (if !s.pwr.ready then s.emit (.readReply 0)
    else if s.ended && !s.endedReads 0x51004 then (s.wakeUp.badAccess 0x51004 2).emit (.readReply 0)
    else s.wakeUp.windowRead)

end Sys2Proof.Machine
end

