-- ==== Sys2Proof/Machine/Roots.lean ====
section
/-! DEFINITION. State roots and the keys KEY derives from them, the boot count and the per-boot key of context memory
(R47, R408, R414 to R419). -/

namespace Sys2Proof.Machine

/-- KMAC256(key, label, input) of `len` bytes: the label is the customisation string (R419). -/
def rootKmac (key : Bytes) (label : String) (input : Bytes) (len : Nat) : Bytes :=
  fit len (Config.kmac 2 key input len (ascii label))

/-- The root of the current state, if it has one. -/
def State.root? (s : State) : Option Bytes := mapFind s.kmg.roots s.lcs.code

/-- The root of a state as its record in NVM holds it: wrapped with AES-256 KW under the device key (R416). DESIGN CHOICE, log
entry 93, unsafe. DESIGN CHOICE, log entry 93, unsafe. -/
def State.wrappedRoot (s : State) (code : Nat) : Option Bytes :=
  (mapFind s.kmg.roots code).map fun r => fit 40 (Config.kwWrap Config.deviceKey r)

/-- The per-boot key of context memory for the current root and boot count (R47, R419). -/
def State.bootKey (s : State) : Bytes :=
  match s.root? with
  | some r => rootKmac r "TRL-CMK" (leBytes 8 s.kmg.boot) 96
  | none => []

/-- The slice wrapping key of a slice at an epoch (R419). -/
def State.wrapKey (s : State) (n epoch : Nat) : Bytes :=
  match s.root? with
  | some r => rootKmac r "TRL-SWK" (leBytes 1 n ++ leBytes 4 epoch) 32
  | none => []

/-- The KEY_ID of the next key the part creates (R419). -/
def State.nextKeyId (s : State) : Bytes :=
  match s.root? with
  | some r => rootKmac r "TRL-KID" (leBytes 8 s.kmg.boot ++ leBytes 8 s.kmg.creation) 16
  | none => zeros 16

/-- The next boot count is programmed, after a copy of the root records into a fresh block where the 384 words of the
boot-count area are full; context memory takes the key derived from it: its contents are crypto-erased and the
overwrite starts again (R47, R411, R417). DESIGN CHOICE, log entry 76, unsafe. -/
def State.nextBoot (s : State) : State :=
  let s := if s.kmg.boot % 384 = 0 ∧ s.kmg.boot ≠ 0 then (s.copyRoots s.kmg.roots).eraseUnref else s
  let s := { s with kmg := { s.kmg with boot := s.kmg.boot + 1 } }
  { s with cmc := { s.cmc with
    key := s.bootKey, cells := [], done := 0, ovwDone := false, onDemand := [], bad := [] } }

/-- A slot is freed: its generation rises at once; the data of a slot that a job holds is frosted with its last holder
(R429, R436). -/
def KeySlot.freed (k : KeySlot) : KeySlot :=
  let g := (k.gen + 1) % 2 ^ 17
  if k.holders > 0 then { k with gen := g, zombie := true, pins := 0 } else { gen := g }

/-- Frees the slots that satisfy `p`. -/
def State.freeSlots (s : State) (p : KeySlot → Bool) : State :=
  { s with kmg := { s.kmg with
    slots := mapAll {} s.kmg.slots fun _ k => if k.inUse ∧ !k.zombie ∧ p k then k.freed else k } }

/-- The current generation of session `i` (R180, R189). -/
def State.sessGen (s : State) (i : Nat) : Nat := ((s.session i).gen + mapGet 0 s.kmg.sessBase (i / 4096)) % 4096

/-- A session becomes FREE and its generation rises (R184). -/
def Session.freed (x : Session) : Session := { gen := (x.gen + 1) % 4096 }

end Sys2Proof.Machine
end

