-- ==== Sys2Proof/Machine/Tamper.lean ====
section
/-! DEFINITION. Tamper and environment monitors (R546 to R568): alarms, responses, clearing, stimulus tests, shadowed
writes and Winter Hold. -/

namespace Sys2Proof.Machine

/-- EN, RESP and COUNT of a monitor's configuration. -/
def State.monEn (s : State) (m : Nat) : Bool := bitAt (s.monCfg m) 31
def State.monResp (s : State) (m : Nat) : Nat := fld (s.monCfg m) 30 28
def State.monCount (s : State) (m : Nat) : Nat := fld (s.monCfg m) 15 8

/-- The main rails are up. -/
def State.railsUp (s : State) : Bool := s.awake || decide (s.pwr.st = .sleep)

/-- The alarm of monitor `m` is active (R549). -/
def State.alarmed (s : State) (m : Nat) : Bool := (mapFind s.aon.alarms m).isSome

/-- ALARM_N and TAMPER_N show the active alarms: from step 5 of R565 on, and while the part is held in reset with its rails up;
in Winter Hold they are high-impedance (R566). DEDUCED, log entry 71, unsafe. -/
def State.pinsShow (s : State) : Bool := s.tmp.outputs || (s.pwr.inReset && s.railsUp)

/-- ALARM_N is driven low: an alarm is active (R566). -/
def State.alarmLow (s : State) : Bool := s.pinsShow && decide (s.aon.alarms ≠ [])

/-- TAMPER_N is driven low: so is an alarm whose response is HALT or more severe (R566). -/
def State.tamperLow (s : State) : Bool := s.pinsShow && s.aon.alarms.any fun e => decide (3 ≤ e.2.resp)

/-- An abort is due for job `j` at its next safe point; the first cause stands.
DESIGN CHOICE, log entry 19, unsafe. -/
def State.abortJob (s : State) (j : Nat) (r : Result) : State :=
  s.onJob j fun x => { x with abort := some (x.abort.getD r) }

/-- Containment of an engine (R551): the running job is aborted, the staged job is READY again, the engine is frosted and
QUARANTINED, as it may be already, until the alarm is cleared. -/
def State.containEngine (s : State) (e resp : Nat) : State :=
  let s := match (s.engine e).running with
    | some (j, _) => s.abortJob j (fail .abortedTamper resp)
    | none => s
  let s := s.unstage e
  if (s.engine e).unit ≠ .active ∧ (s.engine e).unit ≠ .quarantined then s
  else
    let s := if (s.engine e).unit = .active then s.quarantine e else s
    let s := s.onEngine e fun x => { x with contained := true }
    if (s.engine e).running.isNone then s.frostEngine e else s

/-- Every job of slice `n` that is not running completes with `r`, and every running one is aborted with it
(R497, R551). -/
def State.endJobs (s : State) (n : Nat) (r : Result) (suspendedToo : Bool) : State :=
  (s.sch.jobs.map (·.1)).foldl (fun s j =>
    match s.job? j with
    | some x =>
      if x.slice ≠ n ∨ x.stage = .done then s
      else match x.state with
      | .running => if suspendedToo then s.abortJob j r else s
      | .suspended => if suspendedToo then s.finish j r else s
      | _ => s.finish j r
    | none => s) s

/-- Containment of a slice (R551): a quiesce with a limit of 0 whose jobs complete ABORTED_TAMPER, counted as R497 counts
them. -/
def State.containSlice (s : State) (n resp : Nat) : State :=
  if (s.slice n).st = .active ∨ (s.slice n).st = .quiescing then
    let k := (s.sch.jobs.filter fun e => e.2.slice = n && e.2.state = .suspended).length
    let s := if (s.slice n).st = .active then s.signalManager n else s
    (s.onSlice n fun x => { x with
      st := .quiescing, limitAt := s.el
      aborted := sat 0xFFFF ((if x.st = .active then 0 else x.aborted) + k) }).endJobs n (fail .abortedTamper resp) true
  else s

/-- What an alarm's scope names is contained. -/
def State.containScope (s : State) (scope : Scope) (resp : Nat) : State :=
  match scope with
  | .engine e => s.containEngine e resp
  | .slice n => s.containSlice n resp
  | .all => s

/-- Every running job is asked to stop and be saved (R550 HALT). DEDUCED, log entry 18, safe. -/
def State.stopAll (s : State) : State :=
  allEngines.foldl (fun s e =>
    if (s.engine e).running.isSome then s.onEngine e fun x => { x with stopReq := true } else s) s

/-- Step 1 of R552: every running and staged job receives an abort instead of a stop. -/
def State.abortStarted (s : State) (resp : Nat) : State :=
  allEngines.foldl (fun s e =>
    [(s.engine e).running, (s.engine e).incoming].foldl (fun (s : State) x =>
      match x with
      | some (j, _) => s.abortJob j (fail .abortedTamper resp)
      | none => s) s) s

/-- Discards the entries held behind stopped CQs and counts them (R552 step 4). -/
def State.dropHeld (s : State) : Nat × State :=
  let count := ((mapVals s.slices).map fun x =>
    ((mapVals x.cqs).map fun c => if c.err then c.gather.length else 0).sum).sum
  (count, { s with slices := mapAll {} s.slices fun _ x =>
    { x with cqs := mapAll {} x.cqs fun _ c =>
      if c.err then { c with gather := [], owed := c.owed - c.gather.length } else c } })

/-- Every job of the job table completes ABORTED_TAMPER, in order of admission, and its entry is issued; no engine holds one any
more (R552 steps 2 to 4). -/
def State.abortAll (s : State) (resp : Nat) : State :=
  let s := (s.sch.jobs.map (·.1)).foldl (fun (s : State) j => s.finish j (fail .abortedTamper resp)) s
  let s := allEngines.foldl (fun (s : State) e =>
    (s.leaveRunning e).onEngine e fun x => { x with results := [], incoming := none, loaded := false, saving := false }) s
  (s.sch.jobs.map (·.1)).foldl (fun (s : State) j => (s.onJob j fun x => { x with frosted := true }).issue j) s

/-- The end of a FORFEIT: every root record is erased, the latch cleared, and the part resets (R553 steps 3 to 5). -/
def State.forfeit (s : State) : State := ({ s with aon := { s.aon with latch := false } }).eraseRoots.restart 2

/-- The next step of a PURGE or FORFEIT sequence (R552, R553). -/
def State.purgeStep (s : State) : State :=
  match s.tmp.seq with
  | none => s
  | some q =>
    let at_ := fun (s : State) n d => { s with tmp := { s.tmp with seq := some { q with step := n, discarded := d } } }
    if q.step = 0 then at_ s 1 0
    else if q.step = 1 then at_ (s.abortStarted s.response) 2 0
    else if q.step = 2 then
      let s := s.endGrant 6
      let s := { s with
        vces := []
        kmg := { s.kmg with slots := [], sessions := [], sessBase := [], sessCache := [] }
        engines := mapAll {} s.engines fun _ x => { x with cur := {}, next := {}, build := none, lend := none, lendIn := none }
        rng := { s.rng with
          on := false, ready := false, d0 := {}, root := {}, mask := {}, blind := {}, share := {}
          stw := {}, waiting := [], granted := [], pool := [] }
        slices := mapAll {} s.slices fun _ x => { x with drbg := {} } }
      at_ ((allEngines.filter fun e => !(s.engine e).gated).foldl State.loadConsts s) 3 0
    else if q.step = 3 then
      let (d, s) := (s.abortAll s.response).dropHeld
      at_ s 4 d
    else if q.step = 4 then
      let s := s.nextBoot
      let s := { s with kmg := { s.kmg with
        stf := mapAll {} s.kmg.stf fun _ r => { r with next := r.log.getLastD 0 } } }
      let s := s.event 8 q.monitor 7 0 0xFF (leBytes 4 q.discarded)
      if s.aon.latch ∧ s.lcs.trans.isNone then s.forfeit else at_ s 5 q.discarded
    else if s.aon.latch then
      -- an alarm that escalates the sequence after its fifth step (R555); in a transition, it erases after step 6 (R530)
      if s.lcs.trans.isNone then s.forfeit else s
    else { s with tmp := { s.tmp with seq := none }, rng := { s.rng with on := true, onAt := s.el } }

/-- `n` steps of the sequence. -/
def State.purgeRun : Nat → State → State
  | 0, s => s
  | n + 1, s => s.purgeStep.purgeRun n

/-- A new alarm as it is recorded: the count in its window, and the slice or engine of its scope (R550, R572).
DEDUCED, log entry 47, unsafe. -/
def State.alarmRecord (s : State) (m count : Nat) (scope : Scope) : Rec :=
  let (n, e) : Nat × Nat := match scope with | .all => (0, 0xFF) | .engine e => (0, e) | .slice n => (n, 0xFF)
  { s.mkRec (eventCode 8 m 0) n e [] with count := count, last := if count > 1 then s.now else 0 }

/-- The effects of a response beyond NOTE, more severe than the `before` in force, in the scope of its alarm. A FORFEIT after a
finished PURGE does not repeat its steps (R550 to R553, R555). DEDUCED, log entry 71, unsafe. -/
def State.respond (s : State) (m resp before : Nat) (scope : Scope) : State :=
  let s := if resp ≥ 2 then s.containScope scope resp else s
  let s := if resp ≥ 4 then s.abortStarted resp else if resp ≥ 3 then s.stopAll else s
  let s := if resp = 5 then { s with aon := { s.aon with latch := true } } else s
  if resp < 4 ∨ (resp = 5 ∧ s.lcs.trans.isSome) then s
  else match s.tmp.seq with
  | some _ => s
  | none => { s with tmp := { s.tmp with seq := some { monitor := m, step := if before ≥ 4 then 5 else 0 } } }

/-- An alarm becomes active (R549 to R555): it is recorded with the correlation number, and its response, together with
every lesser one, acts where it is more severe than the one in force. A CONTAIN without scope is answered with HALT.
DEDUCED, log entry 47, unsafe. DEDUCED, log entry 71, unsafe. -/
def State.raise (s : State) (m count : Nat) (scope : Scope) : State :=
  if s.alarmed m then s
  else
    let before := s.response
    let cfg := s.monResp m
    let resp := if cfg = 2 ∧ scope = .all then 3 else cfg
    let corr := if s.aon.alarms = [] then (s.aon.corr + 1) % 2 ^ 32 else s.aon.corr
    let s := { s with
      aon := { s.aon with alarms := mapInsert s.aon.alarms m { resp := resp, scope := scope }, corr := corr }
      sch := { s.sch with sources := 3 :: s.sch.sources } }
    let s := s.intake (s.alarmRecord m count scope)
    let s := match s.lcs.trans with
      | some t => if t.step < 3 then s.refuseTransition 4 t.from_ t.into else s
      | none => s
    if before < resp then s.respond m resp before scope else s

/-- A monitor trips: counted in TRIPS, and its alarm, unless active already, is raised (R549). -/
def State.trip (s : State) (m count : Nat) (scope : Scope) : State :=
  (s.onMon m fun x => { x with trips := sat 0xFFFF (x.trips + 1) }).raise m count scope

/-- The scope of a trip (R551): only GLITCH names an engine and only SHADOW names a slice. -/
def tripScope (m : Nat) (t : TripScope) : Scope :=
  match t with
  | .engine e => if m = 13 then .engine e else .all
  | .slice n => if m = 15 then .slice n else .all
  | .none => .all

/-- The monitor can trip: enabled, sampling, and not under a stimulus test; 10 to 14 take no samples while the part is held in
reset or PFAIL_N is low (R546 to R548, R558). DEDUCED, log entry 47, unsafe. DEDUCED, log entry 71, unsafe. -/
def State.monLive (s : State) (m : Nat) : Bool :=
  m ≤ 16 && s.monEn m && s.tmp.testing ≠ some m && s.railsUp && !(10 ≤ m && m ≤ 14 && (s.pwr.pfail || s.pwr.inReset))

/-- MONITOR_TRIP, R549: `count` samples or events of the window show the condition. `steps` steps of a PURGE or FORFEIT
sequence that the trip starts are carried out; the ticks carry out the rest.
DESIGN CHOICE, log entry 53, safe. DESIGN CHOICE, log entry 60, safe. -/
def execMonitorTrip (m count : Nat) (scope : TripScope) (steps : Nat) (s : State) :
    Host.Outcome State Fault Refusal :=
  .next (
    if !s.monLive m || count < s.monCount m then s
    else
      let s := s.wakeUp
      let s := s.onMon m fun x => { x with
        cond := if m = 13 ∨ m = 15 then x.cond else true, inwin := sat 255 count }
      (s.trip m count (tripScope m scope)).purgeRun steps)

/-- When no alarm of HALT or more is left, stop requests lapse and admission and dispatch resume (R555, R557).
DEDUCED, log entry 71, unsafe. -/
def State.resumeAll (s : State) : State :=
  if s.response < 3 then
    { s with engines := mapAll {} s.engines fun _ x => { x with stopReq := false } }
  else s

/-- One alarm named in TMP_CLEAR: it is cleared and recorded unless its window still shows the condition (R556). -/
def State.clearOne (s : State) (m : Nat) (holding : Bool) : State :=
  if s.alarmed m ∧ (m ≥ 17 ∨ !holding) then
    let s := s.event 8 m 1
    let s := s.onMon m fun x => { x with cond := false, inwin := 0, events := [] }
    -- the steward then tests the unit that the alarm contained (R551)
    let s := match mapFind s.aon.alarms m with
      | some { scope := .engine e, .. } => s.onEngine e fun x => { x with contained := false }
      | _ => s
    { s with aon := { s.aon with alarms := mapErase s.aon.alarms m } }
  else s

/-- CLEAR, R556: `holding` names the monitors whose window still holds a sample or event showing the condition; the events of
SHADOW the part has counted itself. DEDUCED, log entry 71, unsafe. -/
def execClear (holding : BitVec 20) (s : State) : Host.Outcome State Fault Refusal :=
  .next (match s.takeCommand .tmpClear with
    | none => s
    | some (w, s) =>
      if s.tmp.seq.isSome then { s with tmp := { s.tmp with clearRes := 3 } }
      else
        let named := (List.range 20).filter fun m => bitAt w m
        let s := named.foldl (fun s m =>
          s.clearOne m (holding.getLsbD m || decide (m = 15 ∧ s.windowEvents 15 ≠ []))) s
        let left := named.any fun m => s.alarmed m
        ({ s with tmp := { s.tmp with clearRes := if left then 2 else 1 } }).resumeAll)

/-- TEST, R559: starts a stimulus test of one monitor or refuses it. `empty`: its window holds no sample or event. -/
def execTest (empty : Bool) (s : State) : Host.Outcome State Fault Refusal :=
  .next (match s.takeCommand .tmpTest with
    | none => s
    | some (w, s) =>
      let m := fld w 4 0
      if !bitAt w 31 then s
      else if m ≥ 17 || !s.monEn m || s.alarmed m || !empty || decide (m = 15 ∧ s.windowEvents 15 ≠ []) || s.tmp.testing.isSome then
        { s with tmp := { s.tmp with testRes := 4, tmon := m } }
      else { s with tmp := { s.tmp with testRes := 1, tmon := m, testing := some m } })

/-- Starts the next test of a round: of the first monitor left that is enabled and without an alarm (R559). -/
def State.nextOfRound (s : State) : State :=
  if s.tmp.testing.isSome then s
  else match s.tmp.round.dropWhile fun m => !s.monEn m || s.alarmed m with
  | m :: rest => { s with tmp := { s.tmp with testing := some m, testRes := 1, tmon := m, round := rest } }
  | [] => { s with tmp := { s.tmp with round := [] } }

/-- STIMULUS_TEST_END, R558, R559: the window is emptied and the result recorded; a failure sets BROKEN and raises
SELFTEST, a pass clears BROKEN. -/
def execStimulusTestEnd (pass : Bool) (s : State) : Host.Outcome State Fault Refusal :=
  .next (match s.tmp.testing with
    | none => s
    | some m =>
      let s := { s with tmp := { s.tmp with testing := none, testRes := if pass then 2 else 3, tmon := m } }
      let s := s.onMon m fun x => { x with broken := !pass, inwin := 0, events := [] }
      let s := s.event 8 m (if pass then 2 else 3)
      (if pass then s else s.wakeUp.trip 17 1 .all).nextOfRound)

/-- A round of stimulus tests of every enabled monitor from 0 to 16 (R559). -/
def State.startRound (s : State) : State :=
  ({ s with tmp := { s.tmp with
    round := (List.range 17).filter fun m => s.monEn m, roundAt := s.pwr.opSec, rounded := true } }).nextOfRound

/-- PERIODIC_SELFTEST, R559: after the harvest of a start, which leaves the round due, and every 24 hours of operating
time. -/
def execPeriodicSelftest (s : State) : Host.Outcome State Fault Refusal :=
  .next (
    if s.rng.ready && s.tmp.round.isEmpty && s.tmp.testing.isNone
        && (!s.tmp.rounded || s.pwr.opSec ≥ s.tmp.roundAt + 86400) then
      s.startRound
    else s)

/-- MON_CFG_WRITE, R567: the accepted configuration takes effect, empties the window and is copied into AON. -/
def execMonCfgWrite (m : Nat) (s : State) : Host.Outcome State Fault Refusal :=
  .next (match s.takeCommand (.monCfg m) with
    | none => s
    | some (w, s) =>
      let v := (s.reg (.monCfg m) &&& ~~~Reg.mask (.monCfg m)) ||| (w &&& Reg.mask (.monCfg m))
      let s := s.setReg (.monCfg m) v
      let s := s.onMon m fun x => { x with inwin := 0, events := [] }
      { s with aon := { s.aon with cfg := mapInsert s.aon.cfg m v } })

/-! Shadowed writes (R23, R24, R561) -/

/-- The scope of a mismatch at `off`: on SLC_CTRL of slice n, that slice (R551). -/
def shadowScope (off : Nat) : Scope :=
  if 0x1000000 ≤ off ∧ off < 0x1800000 ∧ off % 0x10000 / 8 * 8 = 0xF000 then .slice ((off - 0x1000000) / 0x10000) else .all

/-- A write discarded under R23 or R24: recorded with the offset, and one SHADOW event. Monitor 15 trips on the event that makes
the events of its last WINDOW ms COUNT (R548, R561). DESIGN CHOICE, log entry 53, safe. -/
def State.shadow (s : State) (off : Nat) : State :=
  let s := s.event 8 15 4 0 0xFF (leBytes 4 off)
  if !s.monLive 15 then s
  else
    let before := s.windowEvents 15
    let s := s.onMon 15 fun x => { x with events := before ++ [s.el], inwin := sat 255 (before.length + 1) }
    if before.length + 1 = s.monCount 15 then s.trip 15 (before.length + 1) (shadowScope off) else s

/-- SHADOW_WINDOW_EXPIRY, R23: 64 FABCLK cycles passed without the companion's write. -/
def execShadowWindowExpiry (off : Nat) (s : State) : Host.Outcome State Fault Refusal :=
  .next (match mapFind s.held off with
    | some (_, t) =>
      if s.el ≥ t + 64 then ({ s with held := mapErase s.held off }).shadow off else s
    | none => s)

/-! Winter Hold (R562 to R564) -/

/-- An entry of the alarm store, or the overflow of entry 15 (R564). -/
def Aon.storeAlarm (a : Aon) (m resp count : Nat) : Aon :=
  if a.store.length < 15 then
    { a with store := a.store ++ [{ time := a.counter, mon := m, resp := resp, count := sat 255 count }] }
  else
    let n := match a.overEntry with
      | some (_, _, n) => n
      | none => 0
    { a with overEntry := some (a.counter, m, sat 2047 (n + 1)) }

/-- WINTER_TRIP, R562: an entry, and for FORFEIT the latch. DEDUCED, log entry 71, unsafe. -/
def execWinterTrip (m count : Nat) (s : State) : Host.Outcome State Fault Refusal :=
  .next (
    let cfg := mapGet (monDefault m) s.aon.cfg m
    if s.pwr.st = .winter ∧ m ≤ 9 ∧ bitAt cfg 31 ∧ fld cfg 15 8 ≤ count ∧ !s.aon.tripped.contains m then
      let a := s.aon.storeAlarm m (fld cfg 30 28) count
      { s with aon := { a with
        latch := if fld cfg 30 28 = 5 then true else a.latch, tripped := a.tripped ++ [m] } }
    else s)

/-- MONITOR_REARM, R562: its window holds no sample showing the condition any more. -/
def execMonitorRearm (m : Nat) (s : State) : Host.Outcome State Fault Refusal :=
  .next (if s.pwr.st = .winter then { s with aon := { s.aon with tripped := s.aon.tripped.filter (· ≠ m) } } else s)

end Sys2Proof.Machine
end

