-- ==== Sys2Proof/Machine/Slices.lean ====
section
/-! DEFINITION. Slices and the manager (R487 to R501): the checks of a binding, quiesce, reset and removal. -/

namespace Sys2Proof.Machine

/-- The command word of SLC_CTRL with the command `cmd`; the register reads 0 from then on (R490). -/
def State.slcCommand (s : State) (n cmd : Nat) : Option State :=
  match s.takeCommand (.slcCtrl n) with
  | some (w, s') => if fld w 31 28 = cmd then some (s'.setReg (.slcCtrl n) 0) else none
  | none => none

/-- A command refused in the slice's state (R492). -/
def State.badState (s : State) (n : Nat) : State :=
  (s.onSlice n fun x => { x with badState := true }).configEvent (srcSlice n) n

/-- A refused ACTIVATE, RESUME or REMOVE with its CAUSE (R494, R500). -/
def State.badConfig (s : State) (n cause : Nat) : State :=
  (s.onSlice n fun x => { x with badConfig := true, cause := cause }).configEvent (srcSlice n) n

/-- Window of slice `n` in bytes: start and length (R495). -/
def State.window (s : State) (n : Nat) : Nat × Nat :=
  (fld (s.reg (.winBase n)) 16 0 * 0x200000, fld (s.reg (.winSize n)) 16 0 * 0x200000)

/-- Session blocks granted to slice `n`: first and count (R490). -/
def State.sessionBlocks (s : State) (n : Nat) : Nat × Nat :=
  (fld (s.reg (.sess n)) 7 0, fld (s.reg (.sess n)) 16 8)

/-- Two ranges given as start and length meet. -/
def overlap (a b : Nat × Nat) : Bool := 0 < a.2 && 0 < b.2 && a.1 < b.1 + b.2 && b.1 < a.1 + a.2

/-- Slices against which a binding is checked: every other one that is neither DISABLED nor ABSENT (R494). -/
def State.bound (s : State) (n : Nat) : List Nat :=
  s.slicesPresent.filter fun m => m ≠ n && (s.slice m).st ≠ .disabled

/-- The CAUSE of R494 of the first check that fails; 0 where all pass. DEDUCED, log entry 70, unsafe. -/
def State.bindCheck (s : State) (n : Nat) : Nat :=
  let others := s.bound n
  let pas := s.namedPasid n
  let (wb, ws) := s.window n
  let (sf, sc) := s.sessionBlocks n
  let (vb, vc) := s.vectors n
  if pas.isSome && others.any fun m => s.namedPasid m = pas then 1
  else if ws ≠ 0 && (wb < s.cmc.internal || s.cmc.usable < wb + ws) then 2
  else if others.any fun m =>
      overlap (wb, ws) (s.window m)
        || overlap (wb, ws) ((s.slice m).scrub.1 * 0x200000, (s.slice m).scrub.2 * 0x200000) then 3
  else if sf + sc > (if s.fuses.small then 128 else 256)
      || others.any fun m => overlap (sf, sc) (s.sessionBlocks m) then 4
  else if vb + vc > 2048 || (others.any fun m => overlap (vb, vc) (s.vectors m))
      || s.slicesPresent.any fun m =>
        bitAt (s.reg (.mvec m)) 31 && overlap (vb, vc) (fld (s.reg (.mvec m)) 10 0, 1) then 5
  else 0

/-- An active alarm contains the slice (R551). -/
def State.contained (s : State) (n : Nat) : Bool :=
  s.aon.alarms.any fun e => decide (e.2.scope = .slice n) && decide (e.2.resp ≥ 2)

/-- The slice becomes ACTIVE if its binding passes; a change of PASID takes effect, and the cached translations of the old
one are discarded (R494, R496). DEDUCED, log entry 70, unsafe. -/
def State.activate (s : State) (n : Nat) : State :=
  let c := s.bindCheck n
  if c ≠ 0 then s.badConfig n c
  else
    let old := s.pasidOf n
    let new := s.namedPasid n
    let s := (s.onSlice n fun x => { x with st := .active, cause := 0, pasid := new }).signalManager n
    let s := if old = new then s
      else { s with hif := { s.hif with cache := s.hif.cache.filter fun t => t.1 ≠ pasidKey old } }
    s.event 1 (srcSlice n) 1 n

/-- ACTIVATE, R492, R494. -/
def execActivate (n : Nat) (s : State) : Host.Outcome State Fault Refusal :=
  .next (match s.slcCommand n 1 with
    | none => s
    | some s => if s.sliceState n = .disabled then s.activate n else s.badState n)

/-- RESUME, R492, R494; refused while an alarm contains the slice (R551). -/
def execResume (n : Nat) (s : State) : Host.Outcome State Fault Refusal :=
  .next (match s.slcCommand n 3 with
    | none => s
    | some s => if s.sliceState n = .quiesced ∧ !s.contained n then s.activate n else s.badState n)

/-- QUIESCE, R497 steps 1 and 2. -/
def State.quiesce (s : State) (n : Nat) : State :=
  let ms := fld (s.reg (.limit n)) 9 0
  ((s.onSlice n fun x => { x with st := .quiescing, aborted := 0, limitAt := s.el + ms * 1000000 }).signalManager n).endJobs n
    (fail .sliceQuiesced) false

def execQuiesce (n : Nat) (s : State) : Host.Outcome State Fault Refusal :=
  .next (match s.slcCommand n 2 with
    | none => s
    | some s => if s.sliceState n = .active then s.quiesce n else s.badState n)

/-- QUIESCE_LIMIT, R497 step 4: running jobs are aborted at their next safe point, suspended ones discarded; each
discarded one counts at once, each aborted one when its abort is taken. DEDUCED, log entry 47, unsafe. -/
def execQuiesceLimit (n : Nat) (s : State) : Host.Outcome State Fault Refusal :=
  .next (
    if (s.slice n).st = .quiescing ∧ (s.slice n).limitAt ≤ s.el then
      let k := (s.sch.jobs.filter fun e => e.2.slice = n && e.2.state = .suspended).length
      (s.onSlice n fun x => { x with aborted := sat 0xFFFF (x.aborted + k) }).endJobs n (fail .sliceQuiesced) true
    else s)

/-- The slice has drained: none of its jobs is in the table, and entries are held only behind stopped CQs (R498). -/
def State.drained (s : State) (n : Nat) : Bool :=
  s.occupancy n = 0 && (mapVals (s.slice n).cqs).all fun c => c.err || c.gather.isEmpty

/-- QUIESCED, R497 step 6: recorded, and the manager's vector is sent. DEDUCED, log entry 70, unsafe. -/
def execQuiesced (n : Nat) (s : State) : Host.Outcome State Fault Refusal :=
  .next (
    if (s.slice n).st = .quiescing && s.drained n then
      let s := s.onSlice n fun x => { x with st := .quiesced }
      let s := s.event 1 (srcSlice n) 0 n 0xFF (leBytes 2 (s.slice n).aborted)
      s.signalManager n
    else s)

/-- What RESET and REMOVE both clear (R499). -/
def State.clearSlice (s : State) (n : Nat) : State :=
  let s := { s with loHeld := mapKeep s.loHeld fun o _ => o / 0x10000 ≠ 0x100 + n }
  let s := (queueRegs n ++ (List.range 4).map (Reg.evmap n)).foldl (fun (s : State) (r : Reg) => s.setReg r r.reset) s
  let s := s.onSlice n fun x => { x with
    sqs := [], cqs := [], dbErr := false, dbCause := .none, dbReading := false, dbAgain := false, flags := 0
    flagReqs := [], usage := [], drbg := {}, capHold := false }
  let s := s.freeSlots fun k => k.owner = n
  let (f, c) := s.sessionBlocks n
  { s with kmg := { s.kmg with
    sessions := mapAll {} s.kmg.sessions fun i (x : Session) =>
      if f * 4096 ≤ i ∧ i < (f + c) * 4096 then { gen := x.gen } else x
    sessBase := (List.range c).foldl (fun (m : SMap Nat) k => mapUpd 0 m (f + k) fun g => (g + 1) % 4096) s.kmg.sessBase
    sessCache := s.kmg.sessCache.filter fun i => !(decide (f * 4096 ≤ i) && decide (i < (f + c) * 4096)) } }

/-- RESET, R492, R499. DEDUCED, log entry 70, unsafe. -/
def execReset (n : Nat) (s : State) : Host.Outcome State Fault Refusal :=
  .next (match s.slcCommand n 4 with
    | none => s
    | some s =>
      if s.sliceState n = .quiesced then (s.clearSlice n).event 1 (srcSlice n) 2 n else s.badState n)

/-- REMOVE of a QUIESCED slice: RESET's effects, the epoch rises, its stateful records are erased, its grants and
settings return to defaults, and its window is being overwritten (R499). Slice 127 is fixed (R500). -/
def State.remove (s : State) (n : Nat) : State :=
  let w := (fld (s.reg (.winBase n)) 16 0, fld (s.reg (.winSize n)) 16 0)
  let s := (s.signalManager n).clearSlice n
  let s := { s with kmg := { s.kmg with epochs := mapSet 0 s.kmg.epochs n ((s.epoch n + 1) % 2 ^ 32) } }
  let s := s.dropRecords fun _ r => decide (r.owner = n)
  let s := ((sliceSettings n).filter (· ≠ .keyQuota n)).foldl (fun (s : State) (r : Reg) => s.setReg r r.reset) s
  s.onSlice n fun x => { x with st := .scrubbing, scrub := w, cause := 0 }

/-- REMOVE (R492, R499, R500). DEDUCED, log entry 70, unsafe. -/
def execRemove (n : Nat) (s : State) : Host.Outcome State Fault Refusal :=
  .next (match s.slcCommand n 5 with
    | none => s
    | some s =>
      if n = 127 ∧ s.sliceState n = .quiesced then s.badConfig n 6
      else if s.sliceState n = .quiesced then s.remove n else s.badState n)

/-- SCRUB_DONE, R499: the former window holds zeros, the slice is DISABLED, and the removal is recorded. -/
def execScrubDone (n : Nat) (s : State) : Host.Outcome State Fault Refusal :=
  .next (
    if s.awake && decide ((s.slice n).st = .scrubbing) then
      let (b, k) := (s.slice n).scrub
      let lo := b * 0x200000
      let hi := (b + k) * 0x200000
      let c := { s.cmc with cells := s.cmc.cells.filter fun c => !(lo ≤ c.1 && c.1 < hi) }
      let s := { s with cmc := c.rewritten fun k => decide (lo ≤ k * 512) && decide (k * 512 + 512 ≤ hi) }
      let s := (s.onSlice n fun x => { x with st := .disabled, scrub := (0, 0) }).signalManager n
      s.event 1 (srcSlice n) 3 n 0xFF (leBytes 4 (s.epoch n))
    else s)

end Sys2Proof.Machine
end

