-- ==== Sys2Proof/Machine/Entropy.lean ====
section
/-! DEFINITION. Random number generation (R459 to R486): sources and their tests, blocks, the harvest and the waiters. -/

namespace Sys2Proof.Machine

/-- The harvest is complete: D0 is instantiated from the first block, every other instance but ROOT from D0 (R470).
DESIGN CHOICE, log entry 61, unsafe. -/
def State.harvest (s : State) (us : Nat := (s.el - s.rng.onAt) / 1000) : State :=
  let (b, s) := { s with rng := { s.rng with ready := true } }.newBlock
  let s := ([2, 3, 4, 5] ++ s.slicesPresent.map (256 + ·)).foldl State.fromD0 (s.seed 0 b)
  s.event 5 srcRng 6 0 0xFF (leBytes 4 us)

/-! Context memory and the root (R405, R415) -/

/-- Context memory becomes ready with its per-boot key, where a channel serves it (R405, R415). -/
def State.openCmc (s : State) : State :=
  if s.cmc.chA.active then { s with cmc := { s.cmc with ready := true, key := s.bootKey } } else s

/-- The root of the current state is generated from ROOT, reseeded with block `b` for prediction resistance, and its record
programmed; KEY and context memory become ready, and the first start in the state is complete (R415, R418, R469, R535). The
statement key died with the root before it (R514). DEDUCED, log entry 35, unsafe. -/
def State.newRoot (s : State) (b : Bytes) : State :=
  let (r, s) := (s.seed 1 b).request1 1 32
  let s := { s with
    kmg := { s.kmg with roots := mapInsert s.kmg.roots s.lcs.code r, rootNew := true, ready := true }
    lcs := { s.lcs with first := s.lcs.first || decide (s.lcs.begun ≠ s.lcs.code), begun := s.lcs.code }
    mp := { s.mp with stPub := [], stBlob := [], stState := 0 } }
  (s.openCmc).event 6 srcKey 0 0 0xFF (leBytes 1 s.lcs.code)

/-- The state takes a root and has none (R414, R415). -/
def State.wantsRoot (s : State) : Bool := [3, 5, 6, 9].contains s.lcs.code && s.root?.isNone

/-- The oldest waiting request in the service order of R477. -/
def nextFresh (l : List FreshReq) : Option FreshReq :=
  match l.find? fun r => r = .root with
  | some r => some r
  | none =>
    match l.find? fun r => match r with | .job _ p => p | .root => false with
    | some r => some r
    | none => l.head?

/-- Removes the first occurrence. -/
def dropReq (l : List FreshReq) (r : FreshReq) : List FreshReq := l.erase r

/-- Block `b` serves the waiting request `r`: it reseeds ROOT for root generation, or a job takes it (R469, R477). -/
def State.giveTo (s : State) (b : Bytes) (r : FreshReq) : State :=
  let s := { s with rng := { s.rng with waiting := dropReq s.rng.waiting r } }
  match r with
  | .root => if s.wantsRoot then s.newRoot b else s.seed 1 b
  | .job j _ => { s with rng := { s.rng with granted := s.rng.granted ++ [(j, b)] } }

/-- A block goes where R465 and R477 send it: ROOT, the reseed of D0 when it is due, the other waiting requests, the pool,
else a reseed of D0. -/
def State.giveBlock (s : State) (b : Bytes) : State :=
  if !s.rng.root.live then s.seed 1 b
  else if s.rng.waiting.contains .root then s.giveTo b .root
  else if s.reseedIsDue 0 then s.seed 0 b
  else match nextFresh s.rng.waiting with
  | some r => s.giveTo b r
  | none =>
    if s.rng.pool.length < 16 then { s with rng := { s.rng with pool := s.rng.pool ++ [b] } } else s.seed 0 b

/-- The test statistics of source `n` after windows that ended with `cause` (R461, R484): the cut-off of the test that
failed, and below its cut-off a free value. DESIGN CHOICE, log entry 79, unsafe. -/
def State.tallied (s : State) (n cause : Nat) : State :=
  let low := fun (k cut : Nat) => if cause = 3 then Config.freeNat k % cut else 1 + Config.freeNat k % (cut - 1)
  let run := if cause = 1 then 28 else low s.freeCtr 28
  let apt := if cause = 2 then 685 else low (s.freeCtr + 1) 685
  { s with
    freeCtr := s.freeCtr + 2
    rng := { s.rng with
      srcs := mapUpd {} s.rng.srcs n fun x => { x with maxRun := max x.maxRun run, maxApt := max x.maxApt apt } } }

/-- A job that waited for randomness, or cannot be given any, completes ENTROPY_UNAVAILABLE (R474, R476). -/
def State.noEntropy (s : State) (j : Nat) : State :=
  match s.job? j with
  | some x => (s.event 5 (srcSlice x.slice) 7 x.slice).finish j (fail .entropyUnavailable)
  | none => s

/-- Every job and load that waits for entropy completes ENTROPY_UNAVAILABLE (R474). -/
def State.entropyGone (s : State) : State :=
  let s := { s with rng := { s.rng with waiting := [] } }
  (s.sch.jobs.map (·.1)).foldl (fun s j =>
    match s.job? j with
    | some x =>
      if x.stage = .entropyWait ∨ (x.loadWaits ∧ !s.canServe 4) then
        s.noEntropy j
      else s
    | none => s) s

/-- The next source after `n`, in the order of R472, that is not BAD. -/
def Rng.nextSource (r : Rng) (n : Nat) : Option Nat :=
  ([1, 2, 3].map fun k => (n + k) % 4).find? fun i => (mapGet {} r.srcs i).st ≠ .bad

/-- A health test of source `n` fails (R472, R474): what it gave and the pool are discarded, it is BAD, and the next
source is selected. -/
def State.sourceFails (s : State) (n cause : Nat) (startup : Bool) : State :=
  let s := s.tallied n cause
  let s := { s with rng := { s.rng with
    pool := []
    srcs := mapUpd {} s.rng.srcs n fun x => { x with
      st := .bad, cause := cause, fails := sat 0xFF (x.fails + 1), at_ := s.pwr.opSec, passed := false } } }
  let s := s.event 5 (srcNs n) 0 0 0xFF (leBytes 1 cause ++ leBytes 1 (bitOf startup))
  match s.rng.nextSource n with
  | some m =>
    { s with rng := { s.rng with
      sel := m, switching := true, srcs := mapUpd {} s.rng.srcs m fun x => { x with st := .selected, test := none } } }
  | none =>
    (({ s with rng := { s.rng with noSource := true, switching := false } }).event 5 srcRng 2).entropyGone

/-- HEALTH_FAIL, R472: `cause` 1 repetition count or 2 adaptive proportion of the selected source. -/
def execHealthFail (src cause : Nat) (startup : Bool) (s : State) : Host.Outcome State Fault Refusal :=
  .next (if s.rng.on && !s.rng.noSource && src = s.rng.sel && s.awake then s.sourceFails src cause startup else s)

/-- NO_SAMPLES, R484: the selected source delivers nothing within 100 µs. -/
def execNoSamples (src : Nat) (s : State) : Host.Outcome State Fault Refusal :=
  .next (if s.rng.on && !s.rng.noSource && src = s.rng.sel && s.awake then s.sourceFails src 3 false else s)

/-- RESEED_BACKGROUND, R468: age 750 ms or 786,432 requests. -/
def execReseedBackground (inst : Nat) (s : State) : Host.Outcome State Fault Refusal :=
  .next (if s.awake && (s.drbg inst).reached s.el 750 786432 then s.reseed inst else s)

/-- RESEED_DUE, R468: age 1,000 ms or 1,048,576 requests; the instance serves nothing until the reseed is done. -/
def execReseedDue (inst : Nat) (s : State) : Host.Outcome State Fault Refusal :=
  .next (
    if s.awake && (s.drbg inst).reached s.el 1000 1048576 then
      (s.setDrbg inst { s.drbg inst with due := true }).reseed inst
    else s)

/-- The start-up test of source `n`, which is not selected, ends: it passes, or fails with `cause` (R475). -/
def State.sourceTested (s : State) (n cause : Nat) : State :=
  let pass := decide (cause = 0)
  let s := s.tallied n cause
  let s := s.event 5 (srcNs n) (if pass then 3 else 4)
  let s := { s with rng := { s.rng with srcs := mapUpd {} s.rng.srcs n fun x => { x with
    st := if pass then .standby else .bad, at_ := s.pwr.opSec, passed := pass, test := none
    cause := if pass then x.cause else cause
    fails := if pass then x.fails else sat 0xFF (x.fails + 1) } } }
  if pass ∧ s.rng.noSource then
    { s with rng := { s.rng with
      noSource := false, sel := n, switching := true
      srcs := mapUpd {} s.rng.srcs n fun x => { x with st := .selected } } }
  else s

/-- A start-up test of source `n` begins, which takes 50 settling samples and 1,024 more at 1 Msample/s (R459, R462).
DESIGN CHOICE, log entry 79, unsafe. -/
def State.beginTest (s : State) (n cause : Nat) : State :=
  { s with rng := { s.rng with srcs := mapUpd {} s.rng.srcs n fun x => { x with test := some (s.el + 1074000, cause) } } }

/-- The start-up tests that have run their time end (R462, R475). -/
def State.endTests (s : State) : State :=
  (List.range 4).foldl (fun (s : State) n =>
    match (mapGet {} s.rng.srcs n).test with
    | some (t, cause) => if t ≤ s.el then s.sourceTested n cause else s
    | none => s) s

/-- RETEST, R475: the test of a BAD source begins an hour after it was marked or last retested; it will fail with `cause` of
R484, 0 where it passes. -/
def execRetest (src cause : Nat) (s : State) : Host.Outcome State Fault Refusal :=
  .next (
    let x := mapGet {} s.rng.srcs src
    if s.awake && s.rng.on && src < 4 && x.st = .bad && x.test.isNone && s.pwr.opSec ≥ x.at_ + 3600 then s.beginTest src cause
    else s)

/-- A standby source is to be tested: none was since the harvest, or 24 hours ago (R475). -/
def State.standbyDue (s : State) (n : Nat) : Bool :=
  let x := mapGet {} s.rng.srcs n
  decide (x.st = .standby) && (!x.passed || decide (s.pwr.opSec ≥ x.at_ + 86400))

/-- STANDBY_RETEST, R475: after the harvest, and every 24 hours of operating time, in the order NS0 to NS3. -/
def execStandbyRetest (src cause : Nat) (s : State) : Host.Outcome State Fault Refusal :=
  .next (
    if s.awake && s.rng.ready && src < 4 && s.standbyDue src && (mapGet {} s.rng.srcs src).test.isNone
        && (List.range src).all fun n => !s.standbyDue n then
      s.beginTest src cause
    else s)

end Sys2Proof.Machine
end

