-- ==== Sys2Proof/Machine/Keys.lean ====
section
/-! DEFINITION. Key blobs and key slots (R420 to R437): handles, the checks of R427, shares of the arena, quotas and the
making of new keys (R113, R114, R419, R440). -/

namespace Sys2Proof.Machine

/-! Handles (R429) -/

/-- The handle of slot `i` at generation `g`. DESIGN CHOICE, log entry 65, unsafe. -/
def handleOf (i g : Nat) : Nat := 2 ^ 31 + (g % 2 ^ 15) * 2 ^ 16 + (g / 2 ^ 15 % 4) * 2 ^ 14 + i

/-- The handle of slot `i` as it stands. -/
def State.handle (s : State) (i : Nat) : Nat := handleOf i (s.slot i).gen

/-- A handle as the 8-byte KEYREF value of R113. -/
def handleBytes (h : Nat) : Bytes := leBytes 8 (2 ^ 63 + h)

/-- The slot that a handle names for slice `n`: in use, of that slice, of that generation (R428). -/
def State.bySlot (s : State) (n h : Nat) : Option Nat :=
  let i := h % 2 ^ 14
  let k := s.slot i
  if h / 2 ^ 31 = 1 ∧ k.inUse ∧ !k.zombie ∧ k.owner = n ∧ handleOf i k.gen = h then some i else none

/-! Blobs (R424 to R426) -/

/-- The fields of a blob; `body` still holds the bytes of BODY. -/
def parseBlob (b : Bytes) : KeySlot :=
  { alg := BitVec.ofNat 16 (leAt b 6 2), usage := w32 (leAt b 8 4), policy := w32 (leAt b 12 4), owner := leAt b 16 1
    epoch := leAt b 20 4, expiry := leAt b 24 8, blobgen := leAt b 32 4, keyId := cut b 40 16
    header := b.take 64, share0 := cut b 64 (leAt b 36 4), tag := cut b (64 + leAt b 36 4) 16 }

/-- Step 1 of R427. -/
def blobForm (b : Bytes) : Bool :=
  leAt b 0 4 = 0x544C4B42 && leAt b 4 1 = 1 && leAt b 5 1 < 16 && zeroAt b 17 20 && zeroAt b 56 64
    && algDefined (leAt b 6 2) && algBodyOk (leAt b 6 2) (leAt b 36 4) && b.length = 80 + leAt b 36 4

/-- The nonce of a blob (R425). -/
def KeySlot.nonce (k : KeySlot) : Bytes := k.keyId.take 8 ++ leBytes 4 k.blobgen

/-- Kind of the key's algorithm (R420). -/
def KeySlot.kind (k : KeySlot) : Nat := algKind k.alg.toNat

/-- A policy flag of the key (R423). -/
def KeySlot.policyBit (k : KeySlot) (m : Nat) : Bool := has k.policy.toNat m

/-- The body of a blob whose tag verifies (R425). -/
def State.openBlob (s : State) (k : KeySlot) : Option Bytes :=
  let key := s.wrapKey k.owner k.epoch
  if k.kind = 1 then
    (Config.gcmSivOpen key k.nonce (k.header ++ k.body) [] k.tag).map fun _ => k.body
  else (Config.gcmSivOpen key k.nonce k.header k.body k.tag).map (fit k.body.length)

/-- An open record of the stateful key with this BLOBGEN exists (step 5 of R427). -/
def State.recordOpen (s : State) (k : KeySlot) : Bool :=
  s.kmg.stf.any fun e => e.2.valid && decide (e.2.close = 0) && decide (e.2.keyId = k.keyId)
    && decide (e.2.owner = k.owner) && decide (e.2.epoch = k.epoch) && decide (e.2.blobgen = k.blobgen)

/-- The record of a stateful key: the open one with its KEY_ID. -/
def State.recordOf (s : State) (keyId : Bytes) : Option Nat :=
  (s.kmg.stf.find? fun e => e.2.valid && decide (e.2.close = 0) && decide (e.2.keyId = keyId)).map (·.1)

/-- Step 5 of R427. -/
def State.statefulOk (s : State) (k : KeySlot) : Bool := !k.policyBit pSTATEFUL || s.recordOpen k

/-- Step 6 of R427. -/
def State.keyAlive (s : State) (k : KeySlot) : Bool := k.expiry = 0 || decide (s.now < k.expiry)

/-- What a check or a load of a key gives: the key, or the status with its DETAIL. -/
inductive KeyRes (α : Type) where
  | ok (a : α)
  | err (st : Status) (detail : Nat)
deriving DecidableEq, Repr

/-- Steps 1 to 5 of R427 on a blob that slice `n` submits. -/
def State.checkBlob (s : State) (n : Nat) (b : Bytes) : KeyRes KeySlot :=
  let k := parseBlob b
  if !blobForm b || leAt b 5 1 ≠ s.lcs.code || k.owner ≠ n || k.epoch ≠ s.epoch n then .err .keyBlobInvalid 0
  else match s.openBlob k with
  | none => .err .keyBlobInvalid 0
  | some body => if s.statefulOk k then .ok (k.withBody body) else .err .keyState 0

/-- Steps 1 to 6. -/
def State.checkBlobLive (s : State) (n : Nat) (b : Bytes) : KeyRes KeySlot :=
  match s.checkBlob n b with
  | .ok k => if s.keyAlive k then .ok k else .err .keyExpired 0
  | .err st d => .err st d

/-- The header of a blob of key `k` (R424). -/
def State.blobHeader (s : State) (k : KeySlot) : Bytes :=
  leBytes 4 0x544C4B42 ++ [1] ++ leBytes 1 s.lcs.code ++ leBytes 2 k.alg.toNat ++ leBytes 4 k.usage.toNat
    ++ leBytes 4 k.policy.toNat ++ leBytes 1 k.owner ++ zeros 3 ++ leBytes 4 k.epoch ++ leBytes 8 k.expiry
    ++ leBytes 4 k.blobgen ++ leBytes 4 k.body.length ++ fit 16 k.keyId ++ zeros 8

/-- Key `k` with the header and tag of its blob, and the bytes of that blob (R425). -/
def State.sealBlob (s : State) (k : KeySlot) : KeySlot × Bytes :=
  let h := s.blobHeader k
  let key := s.wrapKey k.owner k.epoch
  if k.kind = 1 then
    let t := fit 16 (Config.gcmSivSeal key k.nonce (h ++ k.body) [])
    ({ k with header := h, tag := t }, h ++ k.body ++ t)
  else
    let c := fit (k.body.length + 16) (Config.gcmSivSeal key k.nonce h k.body)
    ({ k with header := h, tag := c.drop k.body.length }, h ++ c)

/-- What the statement key is as a key: an ML-DSA-65 private key of slice 127 with SIGN only and SEAL_OUTPUT set. -/
def statementSlot (epoch : Nat) (keyId body : Bytes) : KeySlot :=
  { owner := 127, alg := 0x0206, usage := BitVec.ofNat 32 rSIGN, policy := BitVec.ofNat 32 pSEAL, epoch := epoch, keyId := keyId
    share0 := body }

/-- The statement key: the body of its blob, which opens in the state, and under the root, of its creation (R514). -/
def State.stKey (s : State) : Option Bytes :=
  if s.mp.stBlob = [] ∨ s.mp.stState ≠ s.lcs.code then none else s.openBlob (parseBlob s.mp.stBlob)

/-! Slots (R428 to R437) -/

/-- Bytes of the pad states of an HMAC key: inner and outer state of its hash (R175, R430). -/
def padBytes (a : Nat) : Nat :=
  if algFam a = 0x12 ∧ algKind a = 4 then
    (if algSet a ≤ 1 then 64 else if algSet a ≤ 5 then 128 else 400)
  else 0

/-- Lines of the arena that a key takes (R430). -/
def KeySlot.lineCount (k : KeySlot) : Nat :=
  let pub := (k.pub.getD []).length
  if k.kind = 1 then ceilDiv k.body.length 64
  else ceilDiv (2 * k.body.length + pub + 2 * padBytes k.alg.toNat) 64

/-- Slots in use, and their lines. -/
def State.usedSlots (s : State) : Nat := (s.kmg.slots.filter fun e => e.2.inUse).length
def State.usedLines (s : State) : Nat := ((mapVals s.kmg.slots).map KeySlot.lines).sum

/-- Slots and lines that slice `n` holds as LOADED. -/
def State.loadedOf (s : State) (n : Nat) : Nat × Nat :=
  let l := s.kmg.slots.filter fun e => e.2.inUse && e.2.loaded && !e.2.zombie && decide (e.2.owner = n)
  (l.length, (l.map fun e => e.2.lines).sum)

/-- A further LOADED slot of so many lines fits the quota of slice `n` (R435). -/
def State.quotaFits (s : State) (n lines : Nat) : Bool :=
  let q := s.reg (.keyQuota n)
  let (a, b) := s.loadedOf n
  a + 1 ≤ fld q 14 0 && b + lines ≤ fld q 31 16

/-- The slot that a load may free: CACHED, held and pinned by nothing; expired ones first, then the least recently used
(R434). -/
def State.victim (s : State) : Option Nat :=
  let l := s.kmg.slots.filter fun e => e.2.inUse && !e.2.loaded && !e.2.zombie && e.2.holders = 0 && e.2.pins = 0
  let old := l.filter fun e => !s.keyAlive e.2
  (leastBy (fun (e : Nat × KeySlot) => e.2.used) (if old = [] then l else old)).map (·.1)

/-- Frees slot `i` (R429, R436). -/
def State.freeSlot (s : State) (i : Nat) : State := s.onSlot i KeySlot.freed

/-- Frees CACHED slots until `slots` slots and `lines` lines are free; the shortage that remains, 1 slots or 2 lines, or 0. -/
def State.makeRoom : Nat → State → Nat → (slots : Nat := 1) → Nat × State
  | 0, s, _, _ => (1, s)
  | fuel + 1, s, lines, slots =>
    let short := if s.usedSlots + slots > 16384 then 1 else if s.usedLines + lines > 49152 then 2 else 0
    if short = 0 then (0, s)
    else match s.victim with
    | some i => (s.freeSlot i).makeRoom fuel lines slots
    | none => (short, s)

/-- The first `n` lines of the arena from line `i` on that are not in use. -/
def pickLines : Nat → Nat → List Nat → Nat → List Nat
  | 0, _, _, _ => []
  | fuel + 1, i, used, n =>
    if n = 0 then [] else if used.contains i then pickLines fuel (i + 1) used n else i :: pickLines fuel (i + 1) used (n - 1)

/-- The slot's line list for so many lines: those it has, and free ones (R430). DESIGN CHOICE, log entry 58, unsafe. -/
def State.linesFor (s : State) (k : KeySlot) (lines : Nat) : List Nat :=
  let have_ := k.lineList.take lines
  have_ ++ pickLines 49152 0 ((mapVals s.kmg.slots).flatMap KeySlot.lineList) (lines - have_.length)

/-- SHORTAGE of R434 and R435: 1 slots, 2 lines, 3 quota. -/
def State.shortage (s : State) (n why : Nat) : State := s.event 6 (srcSlice n) 2 n 0xFF (leBytes 1 why)

/-- The slot takes the next place in the order of use (R434). -/
def State.touch (s : State) (i : Nat) : State :=
  { (s.onSlot i fun k => { k with used := s.kmg.clock + 1 }) with
    kmg := { (s.onSlot i fun k => { k with used := s.kmg.clock + 1 }).kmg with clock := s.kmg.clock + 1 } }

/-- The two shares of a byte string under a fresh mask of the SHARE instance (R431, R466). -/
def State.twoShares (s : State) (b : Bytes) : (Bytes × Bytes) × State := s.maskedBy 4 b

/-- The key with its secrets in two fresh Boolean shares, as a slot holds it (R430); a public key is held unmasked. -/
def State.shareKey (s : State) (k : KeySlot) : KeySlot × State :=
  if k.kind = 1 then (k, s)
  else
    let a := k.alg.toNat
    let (b, s) := s.twoShares k.body
    let (p, s) := s.twoShares (fit (padBytes a) (Config.hmacPads (algSet a) k.body))
    ({ k with share0 := b.1, share1 := b.2, pads := p }, s)

/-- KEY reads slot `i`: the shares are re-randomised with values of the SHARE instance (R431). -/
def State.readSlot (s : State) (i : Nat) : State :=
  if (s.slot i).kind = 1 then s
  else
    let (k, s) := s.shareKey (s.slot i)
    s.onSlot i fun y => { y with share0 := k.share0, share1 := k.share1, pads := k.pads }

/-- Key `k` enters a free slot for slice `n`, LOADED or CACHED: the slot, or KEY_STATE with the shortage recorded
(R433 to R435). -/
def State.install (s : State) (n : Nat) (k : KeySlot) (loaded : Bool) : KeyRes Nat × State :=
  let lines := k.lineCount
  if loaded && !s.quotaFits n lines then (.err .keyState 0, s.shortage n 3)
  else match s.makeRoom 16385 lines with
  | (0, s) =>
    match (List.range 16384).find? fun i => !(s.slot i).inUse with
    | some i =>
      let (k, s) := s.shareKey k
      let s := s.onSlot i fun old => { k with
        inUse := true, gen := old.gen, owner := n, loaded := loaded, lines := lines, lineList := s.linesFor {} lines
        zombie := false, lost := false, pins := 0, holders := 0 }
      (.ok i, s.touch i)
    | none => (.err .keyState 0, s.shortage n 1)
  | (why, s) => (.err .keyState 0, s.shortage n why)

/-- The slot of slice `n` whose header and tag equal those of a blob (R433). -/
def State.sameBlob (s : State) (n : Nat) (b : Bytes) : Option Nat :=
  let k := parseBlob b
  (s.kmg.slots.find? fun e => e.2.inUse && !e.2.zombie && decide (e.2.owner = n) && decide (e.2.header = k.header)
    && decide (e.2.tag = k.tag)).map (·.1)

/-- A slot becomes LOADED, within the quota (R445). -/
def State.makeLoaded (s : State) (n i : Nat) : KeyRes Nat × State :=
  if (s.slot i).loaded then (.ok i, s.touch i)
  else if s.quotaFits n (s.slot i).lines then
    (.ok i, (s.onSlot i fun k => { k with loaded := true }).touch i)
  else (.err .keyState 0, s.shortage n 3)

/-- The key is the public key of Classic McEliece, which never enters a slot (R143). -/
def KeySlot.mcePublic (k : KeySlot) : Bool := algFam k.alg.toNat = 7 && k.kind = 1

/-- A blob is loaded for slice `n`: into the slot that holds its equal, or into a new one (R433, R437, R445). `extra`
is the check of R427 step 7 or R183. -/
def State.loadBlob (s : State) (n : Nat) (b : Bytes) (loaded : Bool) (extra : KeySlot → Bool) : KeyRes Nat × State :=
  match s.sameBlob n b with
  | some i =>
    let k := s.slot i
    if !s.statefulOk k then (.err .keyState 0, s)
    else if !s.keyAlive k then (.err .keyExpired 0, s)
    else if !extra k then (.err .keyPolicy 0, s)
    else if loaded then s.makeLoaded n i
    else (.ok i, s.touch i)
  | none =>
    match s.checkBlobLive n b with
    | .err st d => (.err st d, s)
    | .ok k => if !extra k || k.mcePublic then (.err .keyPolicy 0, s) else s.install n k loaded

/-- A job takes hold of a slot (R436). -/
def State.holdSlot (s : State) (j i : Nat) : State :=
  (s.onSlot i fun k => { k with holders := k.holders + 1 }).onJob j fun x => { x with key := some i, keyHandle := s.handle i }

/-! Use of a key by a job (R108, R155, R177, R421, R423, R427 step 7) -/

/-- Operations that act on a key without computing with it: steps 1 to 6 only (R427). -/
def actsOnKey (opc : Nat) : Bool :=
  opc = 0x3050 || opc = 0x3060 || opc = 0x3070 || opc = 0x3080 || opc = 0x2000 || opc = 0x2070

/-- DEST of the job's block; HOST where it has none. -/
def Job.dest (x : Job) : Nat := if x.block = [] ∨ x.desc.fam = 0x70 then 0 else destOf x.block

/-- A secret of the key would reach the host in clear (R114, R170, R177, R423). -/
def Job.clears (x : Job) : Bool :=
  let d := x.desc
  let host := x.dest = 0
  match d.fam with
  | 1 | 6 | 7 => d.op = 1 && host
  | 0xA => (d.op = 1 && host) || d.op = 5 || d.op = 6
  | 8 => d.op = 4 && host
  | 9 => d.op = 7
  | 0x10 => d.op = 8 || d.op = 10
  | 0x13 => host
  | _ => false

/-- Step 7 of R427 for a job that computes with key `k`. -/
def Job.mayUse (x : Job) (k : KeySlot) : Bool :=
  let i := x.desc.info
  algFits x.desc.opc.toNat k.alg.toNat k.body.length
    && (i.rights = 0 || (k.usage &&& BitVec.ofNat 32 i.rights) ≠ 0)
    && (x.desc.fam ≠ 0x70 || (k.usage &&& BitVec.ofNat 32 rKERNEL) ≠ 0)
    && (!k.policyBit pPROT || x.prot)
    && !(k.policyBit pSEAL && x.clears)

/-- An AES, ChaCha20 or HMAC-SHA-256 key that the session variant takes (R183, R421). -/
def variantFits (v : Nat) (k : KeySlot) : Bool :=
  let a := k.alg.toNat
  let n := k.body.length
  if v ≤ 3 then a = 0x1241 || a = 0x1320
  else if v = 0x11 then a = 0x1120 || (a = 0x1320 && n = 32)
  else aesFits a n 1 || aesFits a n 3

/-- The check of a key that a blob or a handle brings to job `x`. -/
def Job.accepts (x : Job) (k : KeySlot) : Bool :=
  if x.desc.opc = 0x2000 then variantFits (leAt x.block 8 1) k
  else if actsOnKey x.desc.opc.toNat then true
  else x.mayUse k

/-! New keys (R113, R114, R419) -/

/-- The next KEY_ID is used up (R419). -/
def State.newKeyId (s : State) : Bytes × State :=
  (s.nextKeyId, { s with kmg := { s.kmg with creation := s.kmg.creation + 1 } })

/-- A new key of slice `n` with the key-output fields of `b` (R110). -/
def State.newKey (s : State) (n alg : Nat) (body : Bytes) (policy : Nat) (b : Bytes) : KeySlot × State :=
  let (kid, s) := s.newKeyId
  ({ owner := n, alg := BitVec.ofNat 16 alg, usage := w32 (usageOf b), policy := w32 policy, expiry := expiryOf b
     epoch := s.epoch n, keyId := kid, share0 := body }, s)

/-- The policy flags of a key-output block, with IMPORTED where the material came from outside (R112, R423). -/
def newPolicy (b : Bytes) (imported : Bool) : Nat :=
  if imported && !has (policyOf b) pIMPORTED then policyOf b + pIMPORTED else policyOf b

/-- Places a key where DEST says (R113): its blob, its handle, or both. -/
def State.placeKey (s : State) (n dest : Nat) (k : KeySlot) : KeyRes Bytes × State :=
  let (k, blob) := s.sealBlob k
  if dest = 2 then (.ok blob, s)
  else match s.install n k true with
  | (.ok i, s) => (.ok ((if dest = 3 then blob else []) ++ handleBytes (s.handle i)), s)
  | (.err st d, s) => (.err st d, s)

end Sys2Proof.Machine
end

