-- ==== Sys2Proof/Machine/VecArith.lean ====
section
/-! DEFINITION. Configuration, scalar, local-memory, arithmetic, logic and NTT instructions of a VCE
(R308 to R320): for each, `…Fault` gives the fault it raises and `…Do` its effect on the engine. -/

namespace Sys2Proof.Machine

/-- Field uses of an instruction that must be 0 (R301): cause RESERVED_FIELD. -/
def rsv (l : List Bool) : Bool × Nat := (l.any id, 0x11)

/-- A scalar field has its bit [4] clear (R301). -/
def badS (x : BitVec 5) : Bool := x.toNat ≥ 16
/-- A mask field has its bits [4:3] clear (R301). -/
def badM (x : BitVec 5) : Bool := x.toNat ≥ 8

/-- Bits [hi:lo] of func. -/
def fn (f : VFields) (hi lo : Nat) : Nat := (f.func.toNat / 2 ^ lo) % 2 ^ (hi + 1 - lo)

/-- The variant field as a type code. -/
def ty (f : VFields) : Nat := f.variant.toNat

/-- No mask is used: mx and inv must be 0. -/
def noMask (f : VFields) : Bool := f.mx != 0 || f.inv

/-- Reduction modulo Q; the manual states no value while Q is 0 (log entry 9). -/
def modQ (q x : Nat) : Nat := if q = 0 then Config.modZero x else x % q

/-- mont under the engine's modulus (R317). DESIGN CHOICE, log entry 9, safe. -/
def Vce.montQ (e : Vce) (w z : Nat) : Nat :=
  if e.q = 0 then Config.modZero z else mont w e.q.toNat e.qinv.toNat z

/-! Configuration and scalars (R308, R309) -/

/-- The value of a scalar source or, when its field is 0, of the long immediate. -/
def Vce.scalOrImm (e : Vce) (f : VFields) : Nat := if f.vs1 = 0 then f.imm.toNat else (e.scal f.vs1.toNat).toNat

/-- VSETL (R308). -/
def vsetlFault (e : Vce) (f : VFields) : Option Nat :=
  firstFault [
    rsv [badS f.vd, badS f.vs1, f.vs2 != 0, fn f 6 2 != 0, f.mx == 0 && f.inv],
    (ty f != 0, 0x12),
    (e.scalOrImm f == 0 || (f.mx != 0 && f.inv), 0x14)]

def vsetlDo (e : Vce) (f : VFields) : Vce :=
  let g := 2 ^ fn f 1 0
  let vl := min (e.scalOrImm f) (128 * g)
  let mk := f.vs1 != 0 && e.sMarked f.vs1.toNat
  let e := ({ e with g := g, vl := vl }).setScal f.vd.toNat (BitVec.ofNat 36 vl) mk
  if f.mx = 0 then e
  else e.setMask f.mx.toNat (BitVec.ofNat 128 (2 ^ (vl - 128 * (g - 1)) - 1)) mk

/-- VCFG (R260, R261, R308). -/
def vcfgFault (e : Vce) (f : VFields) : Option Nat :=
  let g := 2 ^ fn f 1 0
  let k := fn f 3 2 + 1
  firstFault [
    rsv [f.vs1 != 0, f.vs2 != 0, noMask f, fn f 6 5 != 0],
    (ty f != 0, 0x12),
    (f.vd.toNat % g != 0 || f.vd.toNat + k * g > 32 || (k != 1 && k != e.ctx.k), 0x15)]

def vcfgDo (e : Vce) (f : VFields) : Vce :=
  e.declare f.vd.toNat (2 ^ fn f 1 0) (fn f 3 2 + 1) (if fn f 4 4 = 1 then .bool else .arith)

/-- VSETQ (R251, R308). -/
def vsetqFault (e : Vce) (f : VFields) : Option Nat :=
  let q := e.scalOrImm f
  firstFault [
    rsv [f.vd != 0, badS f.vs1, f.vs2 != 0, noMask f, f.func != 0],
    (ty f != 0, 0x12),
    (q % 2 == 0 || q < 3 || q > 2 ^ 34 - 1, 0x1B)]

def vsetqDo (e : Vce) (f : VFields) : Vce :=
  let q := e.scalOrImm f
  { e with q := BitVec.ofNat 36 q, qinv := BitVec.ofNat 36 (2 ^ 36 - invPow2 q 36),
           qsq := BitVec.ofNat 72 (2 ^ 72 % q) }

/-- SOP (R309). -/
def sopFault (_e : Vce) (f : VFields) : Option Nat :=
  let op := fn f 3 0
  let imm := fn f 4 4 = 1
  firstFault [
    rsv [badS f.vd, badS f.vs1, badS f.vs2, noMask f, fn f 6 5 != 0, op > 0xB,
      op ≥ 8 && f.vs1 != 0, (op ≥ 9 || imm) && f.vs2 != 0, op ≥ 9 && imm,
      op == 0xA && f.vd != 0],
    (ty f != 0, 0x12)]

def sopDo (e : Vce) (f : VFields) : Vce :=
  let op := fn f 3 0
  let a := (e.scal f.vs1.toNat).toNat
  let b := if fn f 4 4 = 1 then f.imm.toNat else (e.scal f.vs2.toNat).toNat
  let mk := (op < 8 && e.sMarked f.vs1.toNat) || (op < 9 && fn f 4 4 != 1 && e.sMarked f.vs2.toNat)
  let put := fun (x : Nat) => e.setScal f.vd.toNat (BitVec.ofNat 36 x) mk
  match op with
  | 0x0 => put (a + b)
  | 0x1 => put (a + 2 ^ 36 - b)
  | 0x2 => put (Nat.land a b)
  | 0x3 => put (Nat.lor a b)
  | 0x4 => put (Nat.xor a b)
  | 0x5 => put (a * 2 ^ (b % 64))
  | 0x6 => put (a / 2 ^ (b % 64))
  | 0x7 => put (a * b)
  | 0x8 => put b
  | 0x9 => put e.vfault.toNat
  | 0xA => { e with vfault := 0 }
  | _ => put e.vl

/-- SMOVV (R308). -/
def smovvFault (e : Vce) (f : VFields) : Option Nat :=
  firstFault [
    rsv [badS f.vd, f.vs2 != 0, noMask f],
    (ty f == 3, 0x12),
    (e.isShared f.vs1.toNat, 0x15)]

def smovvDo (e : Vce) (f : VFields) : Vce :=
  e.setScal f.vd.toNat (BitVec.ofNat 36 (slotOf (ty f) (laneOf (e.reg f.vs1.toNat) f.func.toNat) 0))
    (e.ent f.vs1.toNat).internal

/-- SMPOP (R308). -/
def smpopFault (_e : Vce) (f : VFields) : Option Nat :=
  firstFault [rsv [badS f.vd, f.vs1 != 0, f.vs2 != 0, f.func != 0], (ty f != 0, 0x12)]

/-- Active lanes below min(VL, 128). -/
def Vce.population (e : Vce) (f : VFields) : Nat :=
  ((List.range (min e.vl 128)).filter fun l => e.maskBit f l).length

def smpopDo (e : Vce) (f : VFields) : Vce :=
  e.setScal f.vd.toNat (BitVec.ofNat 36 (e.population f)) (e.mMarked f.mx.toNat)

/-- MOP (R308). -/
def mopFault (_e : Vce) (f : VFields) : Option Nat :=
  firstFault [rsv [badM f.vd, badM f.vs1, badM f.vs2, noMask f, fn f 6 2 != 0], (ty f != 0, 0x12)]

def mopDo (e : Vce) (f : VFields) : Vce :=
  let a := e.mask f.vs1.toNat
  let b := e.mask f.vs2.toNat
  e.setMask f.vd.toNat (match fn f 1 0 with
    | 0 => a &&& b
    | 1 => a ||| b
    | 2 => a ^^^ b
    | _ => a &&& ~~~b) (e.mMarked f.vs1.toNat || e.mMarked f.vs2.toNat)

/-! Local memory and output (R310 to R315) -/

/-- The row an access names, with its share and register: share j, register r (R310). -/
def Vce.rowNums (e : Vce) (f : VFields) : List (Nat × Nat × Nat) :=
  let base := f.vd.toNat
  let cnt := regCount (ty f) e.g
  let first := (e.scal f.vs1.toNat).toNat + f.func.toNat
  let step := (e.scal f.vs2.toNat).toNat
  (List.range (e.shareK base)).flatMap fun j =>
    (List.range cnt).map fun r => (first + j * step + r, j, base + j * e.shareStep base + r)

/-- Rows of the input area, spill rows, constant rows and the reserved result slot (R273). -/
def KernelCtx.inInput (c : KernelCtx) (n : Nat) : Bool := c.area ≤ n && n < c.area + 160
def inSpill (n : Nat) : Bool := 320 ≤ n && n < 340
def inConst (n : Nat) : Bool := 372 ≤ n && n < 384
def KernelCtx.inSlot (c : KernelCtx) (n : Nat) : Bool := c.slot ≤ n && n < c.slot + 16

/-- Rows of the key: of its shares, or of the one copy of a public key (R350). -/
def KernelCtx.keyRows (c : KernelCtx) : Nat :=
  if !c.hasKey then 0 else if c.keyDist = 0 then ceilDiv c.keyLen 576 else c.keyDist * c.k

/-- A resident row of a streamed job: parameter block or key shares (R314). -/
def KernelCtx.resident (c : KernelCtx) (n : Nat) : Bool :=
  (c.blockLen != 0 && c.blockRow ≤ n && n < c.blockRow + ceilDiv c.blockLen 576) ||
  (c.keyRow ≤ n && n < c.keyRow + c.keyRows)

/-- Rows of the window through which a streamed input passes: what the resident rows leave of the area (R278). -/
def KernelCtx.windowRows (c : KernelCtx) : Nat := 160 - ceilDiv c.blockLen 576 - c.keyRows

/-- The number names a logical row of the streamed input (R314). Local rows that the job may use keep their numbers.
DESIGN CHOICE, log entry 10, unsafe. -/
def Vce.logical (e : Vce) (n : Nat) : Bool :=
  e.streaming && decide (n < ceilDiv e.ctx.inLen 576) && !(320 ≤ n && n < 384) && !e.ctx.resident n

/-- The row holds input, block or key of the running job (R279, R311). -/
def Vce.isInput (e : Vce) (n : Nat) : Bool := if e.streaming then e.logical n || e.ctx.resident n else e.ctx.inInput n

/-- A load may read the row; a streamed row, once it is there and until it is released (R311, R314). -/
def Vce.loadable (e : Vce) (n : Nat) : Bool :=
  if e.logical n then decide (e.released ≤ n) else e.isInput n || inSpill n || inConst n || e.ctx.inSlot n

/-- Where a row number is held: streamed input rows lie beside the local rows. DESIGN CHOICE, log entry 10, unsafe. -/
def Vce.rowKey (e : Vce) (n : Nat) : Nat := if e.logical n then 1000 + n else n

/-- A scalar operand of a row access, its base or the share step of a set, carries the INTERNAL mark (R330). -/
def Vce.rowScalMarked (e : Vce) (f : VFields) : Bool :=
  e.sMarked f.vs1.toNat || (e.isShared f.vd.toNat && e.sMarked f.vs2.toNat)

/-- A load waits for a streamed row that has not arrived (R314). -/
def vldStalls (e : Vce) (f : VFields) : Bool := (e.rowNums f).any fun x => e.logical x.1 && x.1 ≥ e.arrived

/-- Operand checks shared by VLD, VST, VOUT and VMOV-like forms. -/
def Vce.opndFault (e : Vce) (base cnt : Nat) : List (Bool × Nat) :=
  [(badGroup base cnt, 0x13), (e.badShare base cnt, 0x15)]

/-- VLD (R310 to R314). -/
def vldFault (e : Vce) (f : VFields) : Option Nat :=
  let base := f.vd.toNat
  let sh := e.isShared base
  firstFault ([
    rsv [badS f.vs1, badS f.vs2, noMask f, !sh && f.vs2 != 0]] ++ e.opndFault base (regCount (ty f) e.g) ++ [
    ((e.rowNums f).any fun x => !e.loadable x.1, 0x18),
    (e.ctx.k != 1 && (e.rowNums f).any fun x =>
      let c := e.row (e.rowKey x.1)
      if sh then !c.secret || c.share != x.2.1 else c.secret, 0x17)])

def vldDo (e : Vce) (f : VFields) : Vce :=
  let e' := (e.rowNums f).foldl (fun a x => a.setReg x.2.2 (e.row (e.rowKey x.1)).bits) e
  (e.rowNums f).foldl (fun a x => a.remark x.2.2 1 (e.rowScalMarked f) true) e'

/-- VST (R310 to R312, R277). -/
def vstFault (e : Vce) (f : VFields) : Option Nat :=
  let base := f.vd.toNat
  let sh := e.isShared base
  let cnt := regCount (ty f) e.g
  firstFault ([
    rsv [badS f.vs1, badS f.vs2, noMask f, !sh && f.vs2 != 0]] ++ e.opndFault base cnt ++ [
    ((e.rowNums f).any fun x => e.isInput x.1 || inConst x.1, 0x19),
    ((e.rowNums f).any fun x => !(inSpill x.1 || e.ctx.inSlot x.1), 0x18),
    (e.marked base (cnt * e.shareK base) || e.rowScalMarked f, 0x16)])

def vstDo (e : Vce) (f : VFields) : Vce :=
  let sh := e.isShared f.vd.toNat
  (e.rowNums f).foldl (fun a x =>
    let c := a.row x.1
    a.setRow x.1 { bits := e.reg x.2.2, secret := c.secret || sh, share := if sh then x.2.1 else c.share }) e

/-- VOUT (R310, R315). -/
def voutFault (e : Vce) (f : VFields) : Option Nat :=
  let base := f.vd.toNat
  firstFault [
    rsv [f.vs1 != 0, f.vs2 != 0, noMask f, f.func != 0],
    (ty f != 0, 0x12),
    (badGroup base e.g, 0x13),
    ((List.range e.g).any fun i => e.isShared (base + i), 0x15),
    (e.marked base e.g, 0x16),
    (e.streamed.length + 576 * e.g > e.ctx.outCap, 0x21)]

def voutDo (e : Vce) (f : VFields) : Vce :=
  { e with streamed := e.streamed ++ bytesOfBits (e.bitString f.vd.toNat e.g) (576 * e.g) }

/-- VREL (R310, R314). -/
def vrelFault (_e : Vce) (f : VFields) : Option Nat :=
  firstFault [rsv [f.vd != 0, badS f.vs1, f.vs2 != 0, noMask f, f.func != 0], (ty f != 0, 0x12)]

def vrelDo (e : Vce) (f : VFields) : Vce :=
  if e.streaming then
    let n := (e.scal f.vs1.toNat).toNat
    { e with released := max e.released n, rows := mapKeep e.rows fun k _ => k < 1000 || k ≥ 1000 + n }
  else e

/-! Element-wise instructions (R255, R262, R305 to R307, R316) -/

/-- What the Shares column of a table entry admits: sets of which kinds, and a shared second operand. -/
structure ShareRule where
  arith   : Bool
  bool    : Bool
  second  : Bool

/-- Share count of the result of an instruction with sources `a` and, when `useB`, `b`. -/
def Vce.resultK (e : Vce) (a b : Nat) (useB : Bool) : Nat :=
  if e.isShared a then e.shareK a else if useB then e.shareK b else 1

/-- The set whose kind the result has. -/
def Vce.resultSet (e : Vce) (a b : Nat) (useB : Bool) : Nat := if e.isShared a || !useB then a else b

/-- Share faults of an instruction with destination d, sources a and b over `cd`, `ca`, `cb` registers (R262, R305). -/
def Vce.shareFault (e : Vce) (r : ShareRule) (d cd a ca b cb : Nat) (useB : Bool) : List (Bool × Nat) :=
  let badKind := fun n => (e.isKind n .arith && !r.arith) || (e.isKind n .bool && !r.bool)
  let k := e.resultK a b useB
  let src := e.resultSet a b useB
  [ (e.badShare a ca || badKind a || (useB && (e.badShare b cb || badKind b)), 0x15),
    (useB && e.isShared b && !r.second, 0x15),
    (useB && e.isShared a && e.isShared b && ((e.ent a).k != (e.ent b).k || (e.ent a).kind != (e.ent b).kind), 0x15),
    (k != 1 && !e.isShared d, 0x16),
    (e.badShare d cd, 0x15),
    (e.isShared d && (k == 1 || (e.ent d).k != k || (e.ent d).kind != (e.ent src).kind), 0x15)]

/-- Faults common to the instructions of R316 with a "b" operand. `types` lists the type codes admitted. -/
def Vce.binFault (e : Vce) (f : VFields) (types : List Nat) (hasB : Bool) (r : ShareRule) (modular : Bool) : Option Nat :=
  let t := ty f
  let c := regCount t e.g
  let sc := hasB && fn f 6 6 = 1
  firstFault ([
    rsv [if hasB then fn f 5 0 != 0 else f.func != 0, sc && badS f.vs2],
    (!types.contains t, 0x12),
    (badGroup f.vd.toNat c || badGroup f.vs1.toNat c || (!sc && badGroup f.vs2.toNat c), 0x13)] ++
    e.shareFault r f.vd.toNat c f.vs1.toNat c f.vs2.toNat c (!sc) ++
    [(modular && e.q == 0, 0x1A)])

/-- Faults common to the one-operand instructions of R316; vs2 must be 0. -/
def Vce.unFault (e : Vce) (f : VFields) (types : List Nat) (r : ShareRule) (modular : Bool) (fnOk : Bool) : Option Nat :=
  let t := ty f
  let c := regCount t e.g
  firstFault ([
    rsv [f.vs2 != 0, !fnOk],
    (!types.contains t, 0x12),
    (badGroup f.vd.toNat c || badGroup f.vs1.toNat c, 0x13)] ++
    e.shareFault r f.vd.toNat c f.vs1.toNat c 0 0 false ++
    [(modular && e.q == 0, 0x1A)])

/-- Marks of a destination of `n` members of type t in every share (R330). -/
def Vce.remarkMembers (e : Vce) (t base n k step : Nat) (srcMarked : Bool) (on : Nat → Nat → Bool) : Vce :=
  (List.range k).foldl (fun a j => (List.range n).foldl (fun a r =>
    let whole := (List.range 128).all (on r)
    if t = 3 then a.remark (base + j * step + 2 * r) 2 srcMarked whole
    else a.remark (base + j * step + r) 1 srcMarked whole) a) e

/-- Writes every share of the destination: lane l of member r of share j becomes `val j r l` where `on r l`. -/
def Vce.writeShares (e : Vce) (t d n k : Nat) (on : Nat → Nat → Bool) (val : Nat → Nat → Nat → Nat)
    (srcMarked : Bool) : Vce :=
  let step := e.shareStep d
  let e' := (List.range k).foldl (fun a j => a.putMembers t (d + j * step) n on (val j)) e
  e'.remarkMembers t d n k step srcMarked on

/-- The lane of share j of an operand. `share0`: a PUBLIC operand enters share 0 only and is 0 in the others. -/
def Vce.opLane (e : Vce) (t base j r l : Nat) (share0 : Bool) : Nat :=
  if e.isShared base then e.getLane t (base + j * e.shareStep base) r l
  else if share0 && j != 0 then 0 else e.getLane t base r l

/-- The b operand of an instruction: vs2, or its scalar in every element (R306). -/
def Vce.bLane (e : Vce) (f : VFields) (j r l : Nat) (share0 : Bool) : Nat :=
  let t := ty f
  if fn f 6 6 = 1 then
    if share0 && j != 0 then 0 else laneOfSlots t fun _ => (e.scal (f.vs2.toNat % 16)).toNat % 2 ^ elemW t
  else e.opLane t f.vs2.toNat j r l share0

/-- The lane of `op` over the slots of two lanes. -/
def lane2 (t : Nat) (op : Nat → Nat → Nat) (a b : Nat) : Nat :=
  laneOfSlots t fun s => op (slotOf t a s) (slotOf t b s)

/-- A source of the instruction carries the INTERNAL mark. -/
def Vce.srcMarked (e : Vce) (f : VFields) (hasB : Bool) : Bool :=
  let c := regCount (ty f) e.g
  e.marked f.vs1.toNat (c * e.shareK f.vs1.toNat) || e.mMarked f.mx.toNat ||
  (hasB && if fn f 6 6 = 1 then e.sMarked (f.vs2.toNat % 16) else e.marked f.vs2.toNat (c * e.shareK f.vs2.toNat))

/-- An element-wise instruction of two operands: `op` on elements; `share0` states that a PUBLIC operand enters
share 0 only (R262). -/
def Vce.binDo (e : Vce) (f : VFields) (share0 : Bool) (op : Nat → Nat → Nat → Nat) : Vce :=
  let t := ty f
  let sc := fn f 6 6 = 1
  let k := e.resultK f.vs1.toNat f.vs2.toNat (!sc)
  e.writeShares t f.vd.toNat e.g k (e.active f)
    (fun j r l => lane2 t (op j) (e.opLane t f.vs1.toNat j r l share0) (e.bLane f j r l share0))
    (e.srcMarked f true)

/-- An element-wise instruction of one operand. -/
def Vce.unDo (e : Vce) (f : VFields) (op : Nat → Nat) : Vce :=
  let t := ty f
  e.writeShares t f.vd.toNat e.g (e.shareK f.vs1.toNat) (e.active f)
    (fun j r l => lane2 t (fun a _ => op a) (e.opLane t f.vs1.toNat j r l false) 0)
    (e.srcMarked f false)

/-- The width of the instruction's elements and the modulus as numbers. -/
def wOf (f : VFields) : Nat := elemW (ty f)
def Vce.qn (e : Vce) : Nat := e.q.toNat

def ruleA : ShareRule := { arith := true, bool := false, second := true }
def ruleAbPub : ShareRule := { arith := true, bool := false, second := false }
def ruleB : ShareRule := { arith := false, bool := true, second := true }
def ruleBbPub : ShareRule := { arith := false, bool := true, second := false }
def ruleAB : ShareRule := { arith := true, bool := true, second := true }
def ruleP : ShareRule := { arith := false, bool := false, second := false }

/-- VADD (R316). -/
def vaddFault (e : Vce) (f : VFields) : Option Nat := e.binFault f [0, 1, 2, 3] true ruleA false
def vaddDo (e : Vce) (f : VFields) : Vce := e.binDo f true fun _ a b => (a + b) % 2 ^ wOf f

/-- VSUB (R316): a public minuend leaves the other shares negated. -/
def vsubFault (e : Vce) (f : VFields) : Option Nat := e.binFault f [0, 1, 2, 3] true ruleA false
def vsubDo (e : Vce) (f : VFields) : Vce := e.binDo f true fun _ a b => (a + 2 ^ wOf f - b) % 2 ^ wOf f

/-- VADDM (R316): shares other than share 0 pass a public operand unchanged. -/
def vaddmFault (e : Vce) (f : VFields) : Option Nat := e.binFault f [1, 2] true ruleA true
def vaddmDo (e : Vce) (f : VFields) : Vce :=
  let mixed := e.isShared f.vs1.toNat != (fn f 6 6 != 1 && e.isShared f.vs2.toNat)
  e.binDo f true fun j a b => if mixed && j != 0 then a + b else if a + b ≥ e.qn then a + b - e.qn else a + b

/-- VSUBM (R316). -/
def vsubmFault (e : Vce) (f : VFields) : Option Nat := e.binFault f [1, 2] true ruleA true
def vsubmDo (e : Vce) (f : VFields) : Vce :=
  e.binDo f true fun _ a b => if a < b then (a + e.qn + 2 ^ wOf f - b) % 2 ^ wOf f else a - b

/-- VMUL (R316). -/
def vmulFault (e : Vce) (f : VFields) : Option Nat := e.binFault f [0, 1, 2] true ruleAbPub false
def vmulDo (e : Vce) (f : VFields) : Vce := e.binDo f false fun _ a b => a * b % 2 ^ wOf f

/-- VMULM (R316, R317). -/
def vmulmFault (e : Vce) (f : VFields) : Option Nat := e.binFault f [1, 2] true ruleAbPub true
def vmulmDo (e : Vce) (f : VFields) : Vce := e.binDo f false fun _ a b => e.montQ (wOf f) (a * b)

/-- VAND (R316). -/
def vandFault (e : Vce) (f : VFields) : Option Nat := e.binFault f [0, 1, 2, 3] true ruleBbPub false
def vandDo (e : Vce) (f : VFields) : Vce := e.binDo f false fun _ a b => Nat.land a b

/-- VOR (R316). -/
def vorFault (e : Vce) (f : VFields) : Option Nat := e.binFault f [0, 1, 2, 3] true ruleP false
def vorDo (e : Vce) (f : VFields) : Vce := e.binDo f false fun _ a b => Nat.lor a b

/-- VXOR (R316): a public operand enters share 0 only. -/
def vxorFault (e : Vce) (f : VFields) : Option Nat := e.binFault f [0, 1, 2, 3] true ruleB false
def vxorDo (e : Vce) (f : VFields) : Vce := e.binDo f true fun _ a b => Nat.xor a b

/-- VMODR (R316). -/
def vmodrFault (e : Vce) (f : VFields) : Option Nat := e.unFault f [1, 2] ruleA true (f.func == 0)
def vmodrDo (e : Vce) (f : VFields) : Vce := e.unDo f (modQ e.qn)

/-- VCSUB (R316). -/
def vcsubFault (e : Vce) (f : VFields) : Option Nat := e.unFault f [1, 2] ruleA true (f.func == 0)
def vcsubDo (e : Vce) (f : VFields) : Vce := e.unDo f fun a => if a ≥ e.qn then a - e.qn else a

/-- A shift or rotate of s ≥ w faults OPERAND_RANGE (R316). -/
def Vce.shiftFault (e : Vce) (f : VFields) : Option Nat :=
  match e.unFault f [0, 1, 2, 3] ruleB false (fn f 6 6 == 0) with
  | some c => some c
  | none => if fn f 5 0 ≥ wOf f then some 0x14 else none

/-- VSHL, VSHR and VROTL (R316). -/
def vshlFault (e : Vce) (f : VFields) : Option Nat := e.shiftFault f
def vshlDo (e : Vce) (f : VFields) : Vce := e.unDo f fun a => a * 2 ^ fn f 5 0 % 2 ^ wOf f
def vshrFault (e : Vce) (f : VFields) : Option Nat := e.shiftFault f
def vshrDo (e : Vce) (f : VFields) : Vce := e.unDo f fun a => a / 2 ^ fn f 5 0
def vrotlFault (e : Vce) (f : VFields) : Option Nat := e.shiftFault f
def vrotlDo (e : Vce) (f : VFields) : Vce :=
  e.unDo f fun a => (a * 2 ^ fn f 5 0 + a / 2 ^ (wOf f - fn f 5 0)) % 2 ^ wOf f

/-- VMOV (R316). -/
def vmovFault (e : Vce) (f : VFields) : Option Nat := e.unFault f [0, 1, 2, 3] ruleAB false (f.func == 0)
def vmovDo (e : Vce) (f : VFields) : Vce := e.unDo f id

/-! Widening and narrowing (R316): the wide operand has 2G registers -/

/-- Element i of share j of an operand of type t. -/
def Vce.opElem (e : Vce) (t base j i : Nat) : Nat :=
  e.elem t (if e.isShared base then base + j * e.shareStep base else base) i

/-- Writes elements of `n` members (pairs for E72) of share bases: element i becomes `val j i` where `on i`. -/
def Vce.writeElems (e : Vce) (t d n k : Nat) (on : Nat → Bool) (val : Nat → Nat → Nat) (srcMarked : Bool) : Vce :=
  let p := perLane t
  let step := e.shareStep d
  let e' := (List.range k).foldl (fun a j => a.putMembers t (d + j * step) n (fun _ _ => true) fun r l =>
    laneOfSlots t fun s =>
      let i := (128 * r + l) * p + s
      if on i then val j i else slotOf t (e.getLane t (d + j * step) r l) s) e
  e'.remarkMembers t d n k step srcMarked fun r l => (List.range p).all fun s => on ((128 * r + l) * p + s)

/-- Element i of a narrow operand of type t is active when its lane is (R256). -/
def Vce.elemActive (e : Vce) (f : VFields) (t i : Nat) : Bool :=
  let L := i / perLane t
  e.active f (L / 128) (L % 128)

/-- Faults of VMULW and VMACW: sources of type t over G registers, destination of width 2w over 2G (R316). -/
def Vce.wideFault (e : Vce) (f : VFields) : Option Nat :=
  let g := e.g
  firstFault ([
    rsv [f.func != 0],
    (!([1, 2].contains (ty f)), 0x12),
    (badGroup f.vd.toNat (2 * g) || badGroup f.vs1.toNat g || badGroup f.vs2.toNat g, 0x13)] ++
    e.shareFault ruleAbPub f.vd.toNat (2 * g) f.vs1.toNat g f.vs2.toNat g true)

/-- The wide products added to `acc`. DESIGN CHOICE, log entry 95, unsafe. -/
def Vce.wideDo (e : Vce) (f : VFields) (acc : Bool) : Vce :=
  let t := ty f
  let t2 := t + 1
  let d := f.vd.toNat
  let n := if t2 = 3 then e.g else 2 * e.g
  let mk := e.marked f.vs1.toNat (e.g * e.shareK f.vs1.toNat) || e.marked f.vs2.toNat e.g || e.mMarked f.mx.toNat ||
    (acc && e.marked d (2 * e.g * e.shareK d))
  e.writeElems t2 d n (e.shareK f.vs1.toNat) (e.elemActive f t)
    (fun j i =>
      let p := e.opElem t f.vs1.toNat j i * e.opElem t f.vs2.toNat 0 i
      (if acc then e.opElem t2 d j i + p else p) % 2 ^ elemW t2) mk

/-- VMULW and VMACW (R316). -/
def vmulwFault (e : Vce) (f : VFields) : Option Nat := e.wideFault f
def vmulwDo (e : Vce) (f : VFields) : Vce := e.wideDo f false
def vmacwFault (e : Vce) (f : VFields) : Option Nat := e.wideFault f
def vmacwDo (e : Vce) (f : VFields) : Vce := e.wideDo f true

/-- VDOT (R316): sources E12 or E18, destination E36 over G registers. -/
def vdotFault (e : Vce) (f : VFields) : Option Nat :=
  let g := e.g
  firstFault ([
    rsv [f.func != 0],
    (!([0, 1].contains (ty f)), 0x12),
    (badGroup f.vd.toNat g || badGroup f.vs1.toNat g || badGroup f.vs2.toNat g, 0x13)] ++
    e.shareFault ruleAbPub f.vd.toNat g f.vs1.toNat g f.vs2.toNat g true)

def vdotDo (e : Vce) (f : VFields) : Vce :=
  let t := ty f
  let d := f.vd.toNat
  e.writeShares 2 d e.g (e.shareK f.vs1.toNat) (e.active f)
    (fun j r l =>
      let a := e.opLane t f.vs1.toNat j r l false
      let b := e.opLane t f.vs2.toNat 0 r l false
      let sum := (List.range (perLane t)).foldl (fun x s => x + slotOf t a s * slotOf t b s) 0
      (e.opLane 2 d j r l false + sum) % 2 ^ 36)
    (e.marked f.vs1.toNat (e.g * e.shareK f.vs1.toNat) || e.marked f.vs2.toNat e.g || e.marked d (e.g * e.shareK d)
      || e.mMarked f.mx.toNat)

/-- VMONT (R316, R317): source of width 2w over 2G registers, destination over G. -/
def vmontFault (e : Vce) (f : VFields) : Option Nat :=
  let g := e.g
  firstFault ([
    rsv [f.vs2 != 0, f.func != 0],
    (!([1, 2].contains (ty f)), 0x12),
    (badGroup f.vd.toNat g || badGroup f.vs1.toNat (2 * g), 0x13)] ++
    e.shareFault ruleA f.vd.toNat g f.vs1.toNat (2 * g) 0 0 false ++
    [(e.q == 0, 0x1A)])

def vmontDo (e : Vce) (f : VFields) : Vce :=
  let t := ty f
  e.writeElems t f.vd.toNat e.g (e.shareK f.vs1.toNat) (e.elemActive f t)
    (fun j i => e.montQ (wOf f) (e.opElem (t + 1) f.vs1.toNat j i))
    (e.marked f.vs1.toNat (2 * e.g * e.shareK f.vs1.toNat) || e.mMarked f.mx.toNat)

/-! NTT stages (R318 to R320) -/

/-- G of 2 or more and VL = 128 × G (R319). -/
def Vce.notFull (e : Vce) : Bool := e.g < 2 || e.vl != 128 * e.g

/-- VBFLY (R319). -/
def vbflyFault (e : Vce) (f : VFields) : Option Nat :=
  let g := e.g
  let h := max 1 (g / 2)
  firstFault [
    rsv [f.vs1 != 0, noMask f, fn f 6 1 != 0],
    (!([1, 2].contains (ty f)), 0x12),
    (badGroup f.vd.toNat g || badGroup f.vs2.toNat h, 0x13),
    (e.badShare f.vd.toNat g || e.isKind f.vd.toNat .bool, 0x15),
    ((List.range h).any fun i => e.isShared (f.vs2.toNat + i), 0x15),
    (e.notFull, 0x14)]

def vbflyDo (e : Vce) (f : VFields) : Vce :=
  let t := ty f
  let d := f.vd.toNat
  let h := e.g / 2
  let w := wOf f
  let inv := fn f 0 0 = 1
  e.writeShares t d e.g (e.shareK d) (fun _ _ => true)
    (fun j r l =>
      let m := r % h
      let x := e.opLane t d j m l false
      let y := e.opLane t d j (m + h) l false
      let tw := e.getLane t f.vs2.toNat m l
      laneOfSlots t fun s =>
        let x := slotOf t x s
        let y := slotOf t y s
        let k := slotOf t tw s
        if inv then
          let dd := if e.q = 0 then Config.modZero (x + 2 ^ w - y) else (x + y * (e.qn - 1)) % e.qn
          if r < h then (x + y) % 2 ^ w else e.montQ w (dd * k)
        else
          let tt := e.montQ w (y * k)
          if r < h then (x + tt) % 2 ^ w else (x + e.qn + 2 ^ w - tt) % 2 ^ w)
    (e.marked d (e.g * e.shareK d) || e.marked f.vs2.toNat h)

/-- VEXCH (R320). -/
def vexchFault (e : Vce) (f : VFields) : Option Nat :=
  let g := e.g
  let p := perLane (ty f)
  let dist := 2 ^ fn f 2 0
  firstFault [
    rsv [f.vs1 != 0, f.vs2 != 0, noMask f, fn f 6 3 != 0],
    (!([1, 2].contains (ty f)), 0x12),
    (badGroup f.vd.toNat g, 0x13),
    (e.badShare f.vd.toNat g, 0x15),
    (e.notFull || dist % p != 0 || dist ≥ 128 * p, 0x14)]

def vexchDo (e : Vce) (f : VFields) : Vce :=
  let d := f.vd.toNat
  let m := 2 ^ fn f 2 0 / perLane (ty f)
  e.writeShares 2 d e.g (e.shareK d) (fun _ _ => true)
    (fun j r l =>
      let a := fun l => e.opLane 2 d j (r - r % 2) l false
      let b := fun l => e.opLane 2 d j (r - r % 2 + 1) l false
      if r % 2 = 0 then (if l / m % 2 = 1 then b (l - m) else a l)
      else if (l + m) / m % 2 = 1 && l + m < 128 then a (l + m) else b l)
    (e.marked d (e.g * e.shareK d))

/-- VPERM (R318). -/
def vpermFault (e : Vce) (f : VFields) : Option Nat :=
  let g := e.g
  let byIdx := fn f 0 0 = 0
  firstFault ([
    rsv [fn f 6 1 != 0, !byIdx && f.vs2 != 0],
    (ty f == 3, 0x12),
    (badGroup f.vd.toNat g || badGroup f.vs1.toNat g || (byIdx && badGroup f.vs2.toNat g), 0x13)] ++
    e.shareFault ruleAB f.vd.toNat g f.vs1.toNat g 0 0 false ++
    [(byIdx && (List.range g).any fun i => e.isShared (f.vs2.toNat + i), 0x15)])

/-- VPERM: a member takes its indexes from the same member of b (R318). DESIGN CHOICE, log entry 95, unsafe. -/
def vpermDo (e : Vce) (f : VFields) : Vce :=
  let t := ty f
  let a := f.vs1.toNat
  let byIdx := fn f 0 0 = 0
  e.writeShares t f.vd.toNat e.g (e.shareK a) (e.active f)
    (fun j r l =>
      if byIdx then e.opLane t a j r (e.getLane 2 f.vs2.toNat r l % 128) false
      else laneOfSlots t fun s => slotOf t (e.opLane t a j r l false) (perLane t - 1 - s))
    (e.marked a (e.g * e.shareK a) || (byIdx && e.marked f.vs2.toNat e.g) || e.mMarked f.mx.toNat)

end Sys2Proof.Machine
end

