-- ==== Sys2Proof/Machine/VecData.lean ====
section
/-! DEFINITION. Conversion, packing, comparison, selection, sponge, sampling, share gadgets, gather, scatter and
control flow of a VCE (R321 to R344): for each instruction `…Fault` gives the fault it raises and `…Do` its effect. -/

namespace Sys2Proof.Machine

/-! Conversion and packing (R321) -/

/-- Registers of the operand of type t that faces an operand of type u over G registers of the denser type:
G on the denser side, else enough for as many elements (log entry 11). -/
def cvtRegs (t u g : Nat) : Nat :=
  if perLane t ≥ perLane u && t ≠ 3 then g
  else if t = 3 then 2 * ceilDiv (g * perLane u) 1
  else ceilDiv (g * perLane u) (perLane t)

/-- VCVT (R321). -/
def vcvtFault (e : Vce) (f : VFields) : Option Nat :=
  let t := ty f
  let u := fn f 1 0
  let cd := if t = 3 && u = 3 then 2 * e.g else cvtRegs t u e.g
  let ca := if t = 3 && u = 3 then 2 * e.g else cvtRegs u t e.g
  firstFault ([
    rsv [f.vs2 != 0, fn f 6 2 != 0],
    (badGroup f.vd.toNat cd || badGroup f.vs1.toNat ca, 0x13)] ++
    e.shareFault ruleAB f.vd.toNat cd f.vs1.toNat ca 0 0 false)

/-- VCVT: the lanes of the denser type are those that VL and the mask count (R256, R321). DESIGN CHOICE, log entry 95, unsafe.
-/
def vcvtDo (e : Vce) (f : VFields) : Vce :=
  let t := ty f
  let u := fn f 1 0
  let cd := if t = 3 && u = 3 then 2 * e.g else cvtRegs t u e.g
  let ca := if t = 3 && u = 3 then 2 * e.g else cvtRegs u t e.g
  let dense := if perLane t ≥ perLane u then t else u
  e.writeElems t f.vd.toNat (if t = 3 then cd / 2 else cd) (e.shareK f.vs1.toNat)
    (fun i => i < elemCount dense e.g && e.elemActive f dense i)
    (fun j i => e.opElem u f.vs1.toNat j i % 2 ^ elemW t)
    (e.marked f.vs1.toNat (ca * e.shareK f.vs1.toNat) || e.mMarked f.mx.toNat)

/-- Registers of a packed bit string of VL elements of d bits (R321). -/
def Vce.packRegs (e : Vce) (d : Nat) : Nat := max 1 (ceilDiv (e.vl * d) 4608)

/-- VBITPK (R321). DESIGN CHOICE, log entry 95, unsafe. -/
def vbitpkFault (e : Vce) (f : VFields) : Option Nat :=
  let d := f.func.toNat
  let ca := regCount (ty f) e.g
  let cd := e.packRegs d
  firstFault ([
    rsv [f.vs2 != 0, noMask f],
    (badGroup f.vd.toNat cd || badGroup f.vs1.toNat ca, 0x13)] ++
    e.shareFault ruleB f.vd.toNat cd f.vs1.toNat ca 0 0 false ++
    [(d == 0 || d > 36, 0x14)])

def vbitpkDo (e : Vce) (f : VFields) : Vce :=
  let t := ty f
  let d := f.func.toNat
  let a := f.vs1.toNat
  let cd := e.packRegs d
  let k := e.shareK a
  let str := fun j => (List.range e.vl).foldr (fun i x => e.opElem t a j i % 2 ^ d * 2 ^ (d * i) + x) 0
  let e' := (List.range k).foldl (fun x j => x.putBits (f.vd.toNat + j * e.shareStep f.vd.toNat) cd (str j)) e
  e'.remark f.vd.toNat (cd * k) (e.marked a (regCount t e.g * k)) true

/-- VBITUP (R321). DESIGN CHOICE, log entry 95, unsafe. -/
def vbitupFault (e : Vce) (f : VFields) : Option Nat :=
  let d := f.func.toNat
  let cd := regCount (ty f) e.g
  let ca := e.packRegs d
  firstFault ([
    rsv [f.vs2 != 0, noMask f],
    (badGroup f.vd.toNat cd || badGroup f.vs1.toNat ca, 0x13)] ++
    e.shareFault ruleB f.vd.toNat cd f.vs1.toNat ca 0 0 false ++
    [(d == 0 || d > 36, 0x14)])

def vbitupDo (e : Vce) (f : VFields) : Vce :=
  let t := ty f
  let d := f.func.toNat
  let a := f.vs1.toNat
  let ca := e.packRegs d
  e.writeElems t f.vd.toNat e.g (e.shareK a) (fun i => i < e.vl)
    (fun j i => e.bitString (a + j * e.shareStep a) ca / 2 ^ (d * i) % 2 ^ d % 2 ^ elemW t)
    (e.marked a (ca * e.shareK a))

/-- Compression and decompression of R321, half up; the manual states no value while Q is 0 (log entry 9). -/
def compress (q d a : Nat) : Nat := if q = 0 then Config.modZero a else (2 ^ d * a * 2 + q) / (2 * q) % 2 ^ d
def decompress (q d a : Nat) : Nat := (q * a * 2 + 2 ^ d) / 2 ^ (d + 1)

/-! Share gadgets: state-threading over elements -/

/-- New shares for each listed element, in order. -/
def Vce.eachElem (e : Vce) : List Nat → (Vce → Nat → List Nat × Vce) → List (Nat × List Nat) × Vce
  | [], _ => ([], e)
  | i :: r, g =>
    let x := g e i
    let y := Vce.eachElem x.2 r g
    ((i, x.1) :: y.1, y.2)

/-- Share j of element i in a list of new shares. -/
def shareAt (l : List (Nat × List Nat)) (j i : Nat) : Nat := ((mapFind l i).getD []).getD j 0

/-- All shares of element i of a set. -/
def Vce.sharesOf (e : Vce) (t base i : Nat) : List Nat := (List.range (e.shareK base)).map fun j => e.opElem t base j i

/-- The active elements of an operand of type t over G registers. -/
def Vce.activeElems (e : Vce) (f : VFields) (t : Nat) : List Nat :=
  (List.range (elemCount t e.g)).filter (e.elemActive f t)

/-- Writes new shares into the set at d. -/
def Vce.putShares (e : Vce) (t d n : Nat) (l : List (Nat × List Nat)) (mk : Bool) : Vce :=
  e.writeElems t d n (e.shareK d) (fun i => (mapFind l i).isSome) (fun j i => shareAt l j i) mk

/-- Pairs of k shares, the u of chapter 07. -/
def pairCount (k : Nat) : Nat := k * (k - 1) / 2

/-- ⌈log2 n⌉. -/
def clog2 (n : Nat) : Nat := ((List.range 8).find? fun i => n ≤ 2 ^ i).getD 8

/-- Beats of a conversion between kinds of elements of width w over G registers of k shares (R322, R327). -/
def convBeats (w k g : Nat) : Nat := (2 * clog2 w + 1) * 72 * pairCount k * g

/-- Beats of the refresh of a set (R327). -/
def refreshBeats (kd : ShareKind) (k g : Nat) : Nat := (match kd with | .bool => 72 | .arith => 128) * pairCount k * g

/-- Conversion of each active element of a set to the other kind by `g` on its recombined value (R322, R327). -/
def Vce.convertDo (e : Vce) (f : VFields) (g : Nat → Nat) (kd : ShareKind) : Vce :=
  let t := ty f
  let a := f.vs1.toNat
  let src := (e.ent a).kind
  let r := e.eachElem (e.activeElems f t) fun x i =>
    x.split kd e.qn (elemW t) (e.shareK a) (g (combine src e.qn (e.sharesOf t a i)))
  (e.spend r.2 (convBeats (elemW t) (e.shareK a) e.g)).putShares t f.vd.toNat e.g r.1
    (e.marked a (e.g * e.shareK a) || e.mMarked f.mx.toNat)

/-- Faults of a gadget: NO_STREAM at K = 1, sets of the stated kinds of equal k and G (R305, R262). -/
def Vce.gadgetFault (e : Vce) (f : VFields) (rs : List Bool) (dKind aKind : ShareKind) : Option Nat :=
  let g := e.g
  firstFault [
    rsv rs,
    (ty f == 3, 0x12),
    (badGroup f.vd.toNat g || badGroup f.vs1.toNat g, 0x13),
    (e.ctx.k == 1, 0x1C),
    (!e.isKind f.vs1.toNat aKind || e.badShare f.vs1.toNat g, 0x15),
    (!e.isShared f.vd.toNat, 0x16),
    (!e.isKind f.vd.toNat dKind || e.badShare f.vd.toNat g || e.shareK f.vd.toNat != e.shareK f.vs1.toNat, 0x15)]

/-- VCOMP (R321, R322). DESIGN CHOICE, log entry 95, unsafe. -/
def vcompFault (e : Vce) (f : VFields) : Option Nat :=
  let d := fn f 5 0
  let down := fn f 6 6 = 0
  if e.isShared f.vs1.toNat || e.isShared f.vd.toNat then
    match e.gadgetFault f [f.vs2 != 0] (if down then .bool else .arith) (if down then .arith else .bool) with
    | some c => some c
    | none => if d = 0 || d > 12 then some 0x14 else none
  else
    firstFault [
      rsv [f.vs2 != 0],
      (ty f == 3, 0x12),
      (badGroup f.vd.toNat e.g || badGroup f.vs1.toNat e.g, 0x13),
      (e.badShare f.vs1.toNat e.g || e.badShare f.vd.toNat e.g, 0x15),
      (d == 0 || d > 12, 0x14)]

def vcompDo (e : Vce) (f : VFields) : Vce :=
  let d := fn f 5 0
  let op := if fn f 6 6 = 0 then compress e.qn d else fun a => decompress e.qn d a % 2 ^ wOf f
  if e.isShared f.vs1.toNat then e.convertDo f op (if fn f 6 6 = 0 then .bool else .arith)
  else e.unDo f op

/-- VCMP (R321). -/
def vcmpFault (e : Vce) (f : VFields) : Option Nat :=
  firstFault [
    rsv [badM f.vd, fn f 6 3 != 0, fn f 2 0 > 4, fn f 2 0 == 4 && f.vs2 != 0],
    (ty f == 3, 0x12),
    (e.g != 1, 0x13),
    (e.isShared f.vs1.toNat || (fn f 2 0 != 4 && e.isShared f.vs2.toNat), 0x15)]

def vcmpDo (e : Vce) (f : VFields) : Vce :=
  let t := ty f
  let holds := fun l => (List.range (perLane t)).all fun s =>
    let a := slotOf t (e.getLane t f.vs1.toNat 0 l) s
    let b := slotOf t (e.getLane t f.vs2.toNat 0 l) s
    match fn f 2 0 with
    | 0 => a == b
    | 1 => a != b
    | 2 => a < b
    | 3 => a ≥ b
    | _ => a < e.qn
  let old := e.mask f.vd.toNat
  let bits := (List.range 128).foldr (fun l x =>
    bitOf (if e.active f 0 l then holds l else old.getLsbD l) * 2 ^ l + x) 0
  let whole := (List.range 128).all (e.active f 0)
  e.setMask f.vd.toNat (BitVec.ofNat 128 bits)
    (e.marked f.vs1.toNat 1 || (fn f 2 0 ≠ 4 && e.marked f.vs2.toNat 1) || e.mMarked f.mx.toNat
      || (!whole && e.mMarked f.vd.toNat))

/-- VSEL (R321): both sources PUBLIC, or both sets of one k and kind. -/
def vselFault (e : Vce) (f : VFields) : Option Nat :=
  let t := ty f
  let c := regCount t e.g
  firstFault ([
    rsv [f.func != 0],
    (badGroup f.vd.toNat c || badGroup f.vs1.toNat c || badGroup f.vs2.toNat c, 0x13),
    (e.isShared f.vs1.toNat != e.isShared f.vs2.toNat, 0x15)] ++
    e.shareFault ruleAB f.vd.toNat c f.vs1.toNat c f.vs2.toNat c true)

def vselDo (e : Vce) (f : VFields) : Vce :=
  let t := ty f
  let c := regCount t e.g
  e.writeShares t f.vd.toNat e.g (e.shareK f.vs1.toNat) e.below
    (fun j r l => if e.maskBit f l then e.opLane t f.vs1.toNat j r l false else e.opLane t f.vs2.toNat j r l false)
    (e.marked f.vs1.toNat (c * e.shareK f.vs1.toNat) || e.marked f.vs2.toNat (c * e.shareK f.vs2.toNat)
      || e.mMarked f.mx.toNat)

/-! The sponge (R323, R324) -/

/-- VKINIT. -/
def vkinitFault (e : Vce) (f : VFields) : Option Nat :=
  firstFault [
    rsv [f.vd != 0, f.vs1 != 0, f.vs2 != 0, noMask f, fn f 6 3 != 0],
    (ty f != 0, 0x12),
    (fn f 2 2 == 1 && e.ctx.k == 1, 0x1C)]

def modeOf (n : Nat) : SpongeMode :=
  match n with
  | 0 => .shake128
  | 1 => .shake256
  | 2 => .sha3_256
  | _ => .sha3_512

def vkinitDo (e : Vce) (f : VFields) : Vce :=
  let sh := fn f 2 2 = 1
  { e with sponge := { init := true, mode := modeOf (fn f 1 0), shared := sh,
                       copies := List.replicate (if sh then e.ctx.k else 1) 0 } }

/-- VKABS (R323); before any VKINIT it faults SPONGE. DESIGN CHOICE, log entry 95, unsafe. -/
def vkabsFault (e : Vce) (f : VFields) : Option Nat :=
  let g := e.g
  let a := f.vs1.toNat
  firstFault [
    rsv [f.vd != 0, badS f.vs2, noMask f, fn f 6 1 != 0],
    (ty f != 0, 0x12),
    (badGroup a g, 0x13),
    (e.badShare a g || (e.isShared a && e.sponge.shared && (!e.isKind a .bool || e.shareK a != e.ctx.k)), 0x15),
    (e.isShared a && !e.sponge.shared, 0x16),
    (e.sMarked f.vs2.toNat, 0x16),
    ((e.scal f.vs2.toNat).toNat > 576 * g, 0x14),
    (!e.sponge.init || e.sponge.final, 0x20)]

def vkabsDo (e : Vce) (f : VFields) : Vce :=
  let n := (e.scal f.vs2.toNat).toNat
  let a := f.vs1.toNat
  let copies := e.sponge.copies.length
  let strs := (List.range copies).map fun j =>
    if e.isShared a then bytesOfBits (e.bitString (a + j * e.shareStep a) e.g) n
    else if j = 0 then bytesOfBits (e.bitString a e.g) n else zeros n
  let e' := (List.range n).foldl (fun x i => x.absorbByte (strs.map fun b => (b.getD i 0).toNat)) e
  let e' := if fn f 0 0 = 1 then e'.finish else e'
  { e' with sponge := { e'.sponge with
      marked := !e.sponge.shared && (e.sponge.marked || e.marked a (e.g * e.shareK a)) } }

/-- VKSQZ. -/
def vksqzFault (e : Vce) (f : VFields) : Option Nat :=
  let g := e.g
  let d := f.vd.toNat
  firstFault [
    rsv [f.vs1 != 0, badS f.vs2, noMask f, f.func != 0],
    (ty f != 0, 0x12),
    (badGroup d g, 0x13),
    (e.sponge.shared && !e.isShared d, 0x16),
    (e.badShare d g || (e.isShared d && (!e.sponge.shared || !e.isKind d .bool || e.shareK d != e.ctx.k)), 0x15),
    (e.sMarked f.vs2.toNat, 0x16),
    ((e.scal f.vs2.toNat).toNat > 576 * g, 0x14),
    (!e.sponge.final, 0x20)]

def vksqzDo (e : Vce) (f : VFields) : Vce :=
  let d := f.vd.toNat
  let r := e.squeeze (e.scal f.vs2.toNat).toNat
  let str := fun j => leVal (r.1.map fun l => BitVec.ofNat 8 (l.getD j 0))
  let k := e.sponge.copies.length
  let e' := (List.range k).foldl (fun x j => x.putBits (d + j * e.shareStep d) e.g (str j)) r.2
  e'.remark d (e.g * k) e.sponge.marked true

/-! Sampling (R325, R326) -/

/-- The core is in SHAKE mode with FINAL done (R323). -/
def Vce.notSampling (e : Vce) : Bool := !e.sponge.final || !e.sponge.mode.isXof

/-- The next byte of the public core, unless it needs more than `last` permutations since the core was set up. -/
def Vce.byteWithin (e : Vce) (last : Nat) : Option (Nat × Vce) :=
  if e.sponge.pos ≥ e.sponge.mode.rate && e.sponge.perms ≥ last then none
  else let r := e.squeezeByte; some (r.1.getD 0 0, r.2)

/-- The candidates of three bytes (FIPS 203 and FIPS 204). -/
def sampCands (mode b0 b1 b2 : Nat) : List Nat :=
  if mode = 0 then [b0 + 256 * (b1 % 16), b1 / 16 + 16 * b2] else [b0 + 256 * b1 + 65536 * (b2 % 128)]

/-- VSAMPU's loop: at most `fuel` triples of bytes and no permutation beyond `last`; the elements found, oldest first, and the
engine after it. -/
def vsampuLoop : Nat → Vce → Nat → Nat → Nat → Nat → List Nat → List Nat × Vce
  | 0, e, _, _, _, _, acc => (acc, e)
  | fuel + 1, e, last, mode, q, vl, acc =>
    if acc.length ≥ vl then (acc, e)
    else match e.byteWithin last with
    | none => (acc, e)
    | some (b0, e0) =>
      match e0.byteWithin last with
      | none => (acc, e0)
      | some (b1, e1) =>
        match e1.byteWithin last with
        | none => (acc, e1)
        | some (b2, e2) => vsampuLoop fuel e2 last mode q vl ((acc ++ (sampCands mode b0 b1 b2).filter (· < q)).take vl)

/-- What VSAMPU finds within 1,024 permutations of its own; with the rest of the block it starts in they give at most
1,025 blocks. -/
def Vce.sampled (e : Vce) (mode : Nat) : List Nat × Vce :=
  vsampuLoop (1025 * e.sponge.mode.rate / 3 + 1) e (e.sponge.perms + 1024) mode e.qn e.vl []

/-- VSAMPU (R325). -/
def vsampuFault (e : Vce) (f : VFields) : Option Nat :=
  firstFault [
    rsv [f.vs1 != 0, f.vs2 != 0, noMask f, fn f 6 1 != 0],
    (!([1, 2].contains (ty f)), 0x12),
    (badGroup f.vd.toNat e.g, 0x13),
    ((List.range e.g).any fun i => e.isShared (f.vd.toNat + i), 0x15),
    (e.sponge.shared, 0x16),
    (e.notSampling, 0x20),
    ((e.sampled (fn f 0 0)).1.length < e.vl, 0x1F)]

def vsampuDo (e : Vce) (f : VFields) : Vce :=
  let r := e.sampled (fn f 0 0)
  r.2.writeElems (ty f) f.vd.toNat e.g 1 (fun i => i < e.vl) (fun _ i => r.1.getD i 0) e.sponge.marked

/-- CoeffFromHalfByte of FIPS 204, as a value modulo q; none where it rejects. -/
def coeffFromHalfByte (eta q b : Nat) : Option Nat :=
  if eta = 2 then (if b < 15 then some (modQ q (2 * q + 2 - b % 5)) else none)
  else (if b < 9 then some (modQ q (4 * q + 4 - b)) else none)

/-- The half-byte values that squeezed bytes give, low half first; a shared core's copies are combined. With the bytes taken,
beyond `n`. -/
def vsampbLoop : Nat → Vce → Nat → Nat → Nat → Nat → List Nat → List Nat × Nat × Vce
  | 0, e, n, _, _, _, acc => (acc, n, e)
  | fuel + 1, e, n, eta, q, vl, acc =>
    if acc.length ≥ vl then (acc, n, e)
    else
      let r := e.squeezeByte
      let b := r.1.foldl Nat.xor 0
      let cs := [b % 16, b / 16].filterMap (coeffFromHalfByte eta q)
      vsampbLoop fuel r.2 (n + 1) eta q vl ((acc ++ cs).take vl)

/-- Beats of the acceptance tests of `n` bytes of candidates on a shared core (R323, R326). -/
def candBeats (k n : Nat) : Nat := 144 * pairCount k * ceilDiv (2 * n) 32

/-- VSAMPB (R326). DESIGN CHOICE, log entry 95, unsafe. -/
def vsampbFault (e : Vce) (f : VFields) : Option Nat :=
  let d := f.vd.toNat
  firstFault [
    rsv [f.vs1 != 0, f.vs2 != 0, noMask f],
    (ty f != 2, 0x12),
    (badGroup d e.g, 0x13),
    (e.sponge.shared && !e.isShared d, 0x16),
    (e.badShare d e.g || (e.isShared d && (!e.sponge.shared || !e.isKind d .arith || e.shareK d != e.ctx.k)), 0x15),
    (f.func != 2 && f.func != 4, 0x14),
    (e.notSampling, 0x20)]

/-- An element that the bounded loop did not reach: a free value below Q. DESIGN CHOICE, log entry 12, safe. -/
def sampleRest (e : Vce) (i : Nat) : Nat := modQ e.qn (Config.sampleRest i)

/-- The bytes taken are bounded in the model (log entry 12). -/
def vsampbDo (e : Vce) (f : VFields) : Vce :=
  let d := f.vd.toNat
  let (l, n, r) := vsampbLoop (1024 * 168) e 0 f.func.toNat e.qn e.vl []
  if e.sponge.shared then
    let x := r.eachElem (List.range e.vl) fun x i => x.split .arith e.qn 36 e.ctx.k (l.getD i (sampleRest e i))
    (r.spend x.2 (candBeats e.ctx.k n)).putShares 2 d e.g x.1 e.sponge.marked
  else r.writeElems 2 d e.g 1 (fun i => i < e.vl) (fun _ i => l.getD i (sampleRest e i)) e.sponge.marked

/-- A byte at most i, skipping larger ones, as SampleInBall of FIPS 204 takes it.
DESIGN CHOICE, log entry 12, safe. -/
def byteAtMost : Nat → Vce → Nat → Nat × Vce
  | 0, e, i => (Config.sampleRest i % (i + 1), e)
  | fuel + 1, e, i =>
    let r := e.squeezeByte
    let b := r.1.getD 0 0
    if b ≤ i then (b, r.2) else byteAtMost fuel r.2 i

/-- VSAMPBALL (R323): SampleInBall of FIPS 204 with −1 written as Q − 1. DESIGN CHOICE, log entry 95, unsafe. -/
def vsampballFault (e : Vce) (f : VFields) : Option Nat :=
  let d := f.vd.toNat
  firstFault [
    rsv [f.vs1 != 0, f.vs2 != 0, noMask f],
    (ty f != 2, 0x12),
    (badGroup d e.g, 0x13),
    ((List.range e.g).any fun i => e.isShared (d + i), 0x15),
    (e.sponge.shared, 0x16),
    (e.g != 2 || e.vl != 256 || f.func.toNat > 64, 0x14),
    (e.notSampling, 0x20)]

def vsampballDo (e : Vce) (f : VFields) : Vce :=
  let tau := f.func.toNat
  let s := e.squeeze 8
  let signs := leVal (s.1.map fun l => BitVec.ofNat 8 (l.getD 0 0))
  let start : List (Nat × Nat) × Vce := ([], s.2)
  let r := (List.range tau).foldl (fun a n =>
    let i := 256 - tau + n
    let b := byteAtMost (1024 * 168) a.2 i
    let c := a.1
    let v := if signs / 2 ^ n % 2 = 1 then e.qn - 1 else 1
    (mapInsert (mapInsert c i (mapGet 0 c b.1)) b.1 v, b.2)) start
  r.2.writeElems 2 f.vd.toNat 2 1 (fun i => i < 256) (fun _ i => mapGet 0 r.1 i) e.sponge.marked

/-- Bits set among n bits of x from bit p. -/
def popAt (x p n : Nat) : Nat := (List.range n).foldl (fun a i => a + x / 2 ^ (p + i) % 2) 0

/-- Source registers of VCBD: 2η bits for each element of VL lanes. DESIGN CHOICE, log entry 95, unsafe. -/
def Vce.cbdRegs (e : Vce) (f : VFields) : Nat := max 1 (ceilDiv (2 * f.func.toNat * perLane (ty f) * e.vl) 4608)

/-- VCBD (R323). DESIGN CHOICE, log entry 95, unsafe. -/
def vcbdFault (e : Vce) (f : VFields) : Option Nat :=
  let d := f.vd.toNat
  let a := f.vs1.toNat
  let c := e.cbdRegs f
  firstFault [
    rsv [f.vs2 != 0],
    (!([1, 2].contains (ty f)), 0x12),
    (badGroup d e.g || badGroup a c, 0x13),
    (e.badShare a c || e.isKind a .arith, 0x15),
    (e.isShared a && !e.isShared d, 0x16),
    (e.badShare d e.g || (e.isShared d && (!e.isShared a || !e.isKind d .arith || e.shareK d != e.shareK a)), 0x15),
    (f.func != 2 && f.func != 3, 0x14)]

def vcbdDo (e : Vce) (f : VFields) : Vce :=
  let t := ty f
  let a := f.vs1.toNat
  let c := e.cbdRegs f
  let eta := f.func.toNat
  let k := e.shareK a
  let bits := (List.range k).foldl (fun x j => Nat.xor x (e.bitString (a + j * e.shareStep a) c)) 0
  let val := fun i =>
    let x := popAt bits (2 * eta * i) eta
    let y := popAt bits (2 * eta * i + eta) eta
    if x ≥ y then (if e.q = 0 then Config.modZero (x - y) else (x - y) % e.qn)
    else modQ e.qn (e.qn + x - y)
  let mk := e.marked a (c * k) || e.mMarked f.mx.toNat
  if k = 1 then e.writeElems t f.vd.toNat e.g 1 (e.elemActive f t) (fun _ i => val i) mk
  else
    let r := e.eachElem (e.activeElems f t) fun x i => x.split .arith e.qn (elemW t) k (val i)
    (e.spend r.2 (convBeats (elemW t) k e.g)).putShares t f.vd.toNat e.g r.1 mk

/-! Share gadgets (R327, R328) -/

/-- The pairs i < j of k shares, in the order of R328. -/
def pairs (k : Nat) : List (Nat × Nat) :=
  (List.range k).flatMap fun i => ((List.range k).filter (i < ·)).map fun j => (i, j)

/-- Refresh of the shares of one value by one pair (R328). -/
def refreshPair (kd : ShareKind) (q w : Nat) (a : List Nat × Vce) (p : Nat × Nat) : List Nat × Vce :=
  match kd with
  | .bool =>
    let d := a.2.draw w
    (modifyAt (modifyAt a.1 p.1 (Nat.xor d.1)) p.2 (Nat.xor d.1), d.2)
  | .arith =>
    let d := a.2.draw 64
    let z := modQ q d.1
    (modifyAt (modifyAt a.1 p.1 fun x => modQ q (x + z)) p.2 fun x => modQ q (x + q - z), d.2)

/-- Refresh of the shares of one value (R328). -/
def refresh1 (kd : ShareKind) (q w : Nat) (e : Vce) (c : List Nat) : List Nat × Vce :=
  (pairs c.length).foldl (refreshPair kd q w) (c, e)

/-- Refresh of every active element of a set. DESIGN CHOICE, log entry 96, unsafe. -/
def Vce.refreshSet (e : Vce) (f : VFields) (a : Nat) : Vce :=
  let t := ty f
  let r := e.eachElem (e.activeElems f t) fun x i => refresh1 (e.ent a).kind e.qn (elemW t) x (e.sharesOf t a i)
  (e.spend r.2 (refreshBeats (e.ent a).kind (e.shareK a) e.g)).putShares t a e.g r.1
    (e.marked a (e.g * e.shareK a) || e.mMarked f.mx.toNat)

/-- VREF. -/
def vrefFault (e : Vce) (f : VFields) : Option Nat :=
  firstFault [
    rsv [f.vs1 != 0, f.vs2 != 0, f.func != 0],
    (ty f == 3, 0x12),
    (badGroup f.vd.toNat e.g, 0x13),
    (e.ctx.k == 1, 0x1C),
    (!e.isShared f.vd.toNat || e.badShare f.vd.toNat e.g, 0x15)]

def vrefDo (e : Vce) (f : VFields) : Vce := e.refreshSet f f.vd.toNat

/-- VSAND. -/
def vsandFault (e : Vce) (f : VFields) : Option Nat :=
  match e.gadgetFault f [f.func != 0] .bool .bool with
  | some c => some c
  | none => firstFault [
      (badGroup f.vs2.toNat e.g, 0x13),
      (!e.isKind f.vs2.toNat .bool || e.badShare f.vs2.toNat e.g || e.shareK f.vs2.toNat != e.shareK f.vs1.toNat, 0x15)]

/-- What one pair adds in the masked AND of the shares `a` and `b` (R328). -/
def sandPair (w : Nat) (a b : List Nat) (s : List Nat × Vce) (p : Nat × Nat) : List Nat × Vce :=
  let d := s.2.draw w
  let z := d.1
  let t := Nat.xor (Nat.xor z (Nat.land (a.getD p.1 0) (b.getD p.2 0))) (Nat.land (a.getD p.2 0) (b.getD p.1 0))
  (modifyAt (modifyAt s.1 p.1 (Nat.xor z)) p.2 (Nat.xor t), d.2)

/-- The masked AND of R328 on the shares of one element. -/
def sand1 (w : Nat) (e : Vce) (a b : List Nat) : List Nat × Vce :=
  (pairs a.length).foldl (sandPair w a b) ((a.zip b).map fun p => Nat.land p.1 p.2, e)

/-- VSAND: the pairs of R328, drawn element by element for the active ones. DESIGN CHOICE, log entry 96, unsafe. -/
def vsandDo (e : Vce) (f : VFields) : Vce :=
  let t := ty f
  let r := e.eachElem (e.activeElems f t) fun x i =>
    sand1 (elemW t) x (e.sharesOf t f.vs1.toNat i) (e.sharesOf t f.vs2.toNat i)
  (e.spend r.2 (refreshBeats .bool (e.shareK f.vs1.toNat) e.g)).putShares t f.vd.toNat e.g r.1
    (e.marked f.vs1.toNat (e.g * e.shareK f.vs1.toNat) || e.marked f.vs2.toNat (e.g * e.shareK f.vs2.toNat)
      || e.mMarked f.mx.toNat)

/-- VA2B and VB2A. -/
def va2bFault (e : Vce) (f : VFields) : Option Nat := e.gadgetFault f [f.vs2 != 0, f.func != 0] .bool .arith
def va2bDo (e : Vce) (f : VFields) : Vce := e.convertDo f id .bool
def vb2aFault (e : Vce) (f : VFields) : Option Nat := e.gadgetFault f [f.vs2 != 0, f.func != 0] .arith .bool
def vb2aDo (e : Vce) (f : VFields) : Vce := e.convertDo f (modQ e.qn) .arith

/-- VSZERO. -/
def vszeroFault (e : Vce) (f : VFields) : Option Nat :=
  firstFault [
    rsv [f.vs2 != 0, f.func != 0],
    (ty f == 3, 0x12),
    (badGroup f.vs1.toNat e.g, 0x13),
    (e.ctx.k == 1, 0x1C),
    (!e.isKind f.vs1.toNat .bool || e.badShare f.vs1.toNat e.g, 0x15),
    (!e.isShared f.vd.toNat, 0x16),
    (!e.isKind f.vd.toNat .bool || e.badShare f.vd.toNat 1 || e.shareK f.vd.toNat != e.shareK f.vs1.toNat, 0x15)]

def vszeroDo (e : Vce) (f : VFields) : Vce :=
  let t := ty f
  let a := f.vs1.toNat
  let d := f.vd.toNat
  let z := (e.activeElems f t).all fun i => combine .bool 0 (e.sharesOf t a i) = 0
  let x := e.split .bool 0 4608 (e.shareK a) (bitOf z)
  let x2 := e.spend x.2 (72 * pairCount (e.shareK a) * (e.g + 8))
  let e' := (List.range (e.shareK a)).foldl (fun y j => y.setReg (d + j) (BitVec.ofNat 4608 (x.1.getD j 0))) x2
  e'.remark d (e.shareK a) (e.marked a (e.g * e.shareK a) || e.mMarked f.mx.toNat) true

/-- VUNSH is permitted in its class (R329). -/
def Vce.unshOk (e : Vce) (f : VFields) : Bool :=
  let secretOut := e.ctx.destHost && !e.ctx.keySeal
  if e.ctx.kind = .customer then secretOut && (!e.ctx.hasKey || e.ctx.keyKcall)
  else if fn f 1 0 = 2 then secretOut else true

/-- VUNSH (R327, R329). -/
def vunshFault (e : Vce) (f : VFields) : Option Nat :=
  let a := f.vs1.toNat
  let d := f.vd.toNat
  firstFault [
    rsv [f.vs2 != 0, fn f 6 2 != 0, fn f 1 0 == 3],
    (ty f == 3, 0x12),
    (badGroup d e.g || badGroup a e.g, 0x13),
    (e.ctx.k == 1, 0x1C),
    (!e.isShared a || e.badShare a e.g, 0x15),
    ((List.range e.g).any fun i => e.isShared (d + i), 0x15),
    (!e.unshOk f, 0x16)]

def vunshDo (e : Vce) (f : VFields) : Vce :=
  let t := ty f
  let a := f.vs1.toNat
  let e' := e.refreshSet f a
  e'.writeElems t f.vd.toNat e.g 1 (e.elemActive f t)
    (fun _ i => match (e.ent a).kind with
      | .bool => combine .bool 0 (e'.sharesOf t a i)
      | .arith => modQ e.qn ((e'.sharesOf t a i).foldl (· + ·) 0))
    ((fn f 1 0 = 0 && e.ctx.kind ≠ .customer) || e.marked a (e.g * e.shareK a) || e.mMarked f.mx.toNat)

/-! Gather and scatter (R331 to R337) -/

/-- Faults of VGATHER and VSCATTER before their first element. -/
def Vce.gsFault (e : Vce) (f : VFields) (fnOk : Bool) : Option Nat :=
  let c := if ty f = 3 then 2 else 1
  firstFault [
    rsv [f.vs2 != 0, !fnOk],
    (!([2, 3].contains (ty f)), 0x12),
    (e.g != 1 || badGroup f.vd.toNat c, 0x13),
    ((List.range c).any (fun i => e.isShared (f.vd.toNat + i)) || e.isShared f.vs1.toNat, 0x15),
    (e.marked f.vs1.toNat 1 || e.mMarked f.mx.toNat, 0x16)]

def vgatherFault (e : Vce) (f : VFields) : Option Nat := e.gsFault f (fn f 6 5 = 0 && (fn f 0 0 = 1 || fn f 4 1 = 0))
def vscatterFault (e : Vce) (f : VFields) : Option Nat :=
  match e.gsFault f (f.func == 0) with
  | some c => some c
  | none => if e.marked f.vd.toNat (if ty f = 3 then 2 else 1) then some 0x16 else none

/-- VFAULT with the fields of R340. -/
def vfaultWord (cause kaddr index : Nat) : Word := w32 (place cause 31 24 + place kaddr 21 8 + place index 7 0)

/-- The active elements below VL, in order (R332). -/
def Vce.gsElems (e : Vce) (f : VFields) : List Nat := (List.range e.vl).filter fun i => e.active f 0 i

/-- The mask of R333: the elements below i that were active become inactive. -/
def Vce.maskOut (e : Vce) (f : VFields) (i : Nat) : Vce :=
  let old := e.mask f.mx.toNat
  let bits := (List.range 128).foldr (fun l x =>
    bitOf (if l < i && e.active f 0 l then f.inv else old.getLsbD l) * 2 ^ l + x) 0
  e.setMask f.mx.toNat (BitVec.ofNat 128 bits) (e.mMarked f.mx.toNat)

/-- What an element access met. -/
def gsCause (words : Nat) (rd : Nat → Option Nat) (idx : Nat) : Nat :=
  if idx ≥ words then 1 else if (rd idx).isNone then 2 else 0

/-- The active elements from the next one of the instruction and below `to_`. -/
def Vce.gsPart (e : Vce) (f : VFields) (to_ : Nat) : List Nat := (e.gsElems f).filter fun i => e.gsAt ≤ i && i < to_

/-- The first of them whose access faults, with its cause. -/
def Vce.gsFirst (e : Vce) (f : VFields) (words : Nat) (rd : Nat → Option Nat) (to_ : Nat) : Option (Nat × Nat) :=
  (e.gsPart f to_).findSome? fun i =>
    let c := gsCause words rd (e.elem 2 f.vs1.toNat i)
    if c = 0 then none else some (i, c)

/-- The elements below `to_` are done: the next one, or the end of the instruction (R338). -/
def Vce.gsDone (e : Vce) (to_ : Nat) : Vce := { e with gsAt := if to_ < e.vl then to_ else 0 }

/-- VGATHER, its elements from the next one and below `to_`: the engine after it, and the element fault that is taken, as
index and cause (R332, R335). -/
def vgatherDo (e : Vce) (f : VFields) (words : Nat) (rd : Nat → Option Nat) (to_ : Nat) : Vce × Option (Nat × Nat) :=
  let t := ty f
  let ff := fn f 0 0 = 1
  let hit := e.gsFirst f words rd to_
  let upTo := match hit with | some x => x.1 | none => to_
  let val := fun i => ((rd (e.elem 2 f.vs1.toNat i)).getD 0) % (if t = 3 then 2 ^ 64 else 2 ^ 36)
  let e1 := e.writeElems t f.vd.toNat 1 1 (fun i => e.gsAt ≤ i && i < upTo && e.active f 0 i) (fun _ i => val i) false
  match hit with
  | none => ((if ff && to_ ≥ e.vl then e1.setScal (fn f 4 1) (BitVec.ofNat 36 e.vl) else e1).gsDone to_, none)
  | some (i, c) =>
    let e2 := ({ e1 with vfault := vfaultWord c e.kaddr i, gsAt := 0 }).maskOut f i
    if !ff || (e.gsElems f).head? = some i then (e2, some (i, c))
    else (e2.setScal (fn f 4 1) (BitVec.ofNat 36 i), none)

/-- VSCATTER, its elements from the next one and below `to_`: the words it writes in order, the engine after it and the fault
that is taken (R336). -/
def vscatterDo (e : Vce) (f : VFields) (words : Nat) (rd : Nat → Option Nat) (to_ : Nat) :
    List (Nat × Nat) × Vce × Option (Nat × Nat) :=
  let t := ty f
  let hit := e.gsFirst f words rd to_
  let upTo := match hit with | some x => x.1 | none => to_
  let ws := ((e.gsPart f to_).filter (· < upTo)).map fun i =>
    (e.elem 2 f.vs1.toNat i, e.elem t f.vd.toNat i % 2 ^ 64)
  match hit with
  | none => (ws, e.gsDone to_, none)
  | some (i, c) => (ws, ({ e with vfault := vfaultWord c e.kaddr i, gsAt := 0 }).maskOut f i, some (i, c))

/-! Control flow (R343 to R346) -/

/-- The range of kernel-store addresses a kernel may execute (R345, R346): first and last. `im`: an -IM part. -/
def kernelRange (kd : KernelKind) (im : Bool) : Nat × Nat :=
  match kd with
  | .vendor => (0x0000, 0x2BFF)
  | .metrology => (0x2C00, 0x2FFF)
  | .customer => (if im then 0x3000 else 0x2C00, 0x3FBF)

/-- The address lies in the running kernel's range. -/
def Vce.inRange (e : Vce) (im : Bool) (a : Nat) : Bool :=
  (kernelRange e.ctx.kind im).1 ≤ a && a ≤ (kernelRange e.ctx.kind im).2

/-- The condition of BR (R343). -/
def Vce.branchTaken (e : Vce) (f : VFields) : Bool :=
  let a := (e.scal f.vs1.toNat).toNat
  let b := (e.scal f.vs2.toNat).toNat
  match fn f 2 0 with
  | 0 => true
  | 1 => a == 0
  | 2 => a != 0
  | 3 => a < b
  | 4 => a ≥ b
  | 5 => e.population f != 0
  | _ => e.population f == 0

/-- BR (R343). -/
def brFault (e : Vce) (im : Bool) (f : VFields) : Option Nat :=
  let c := fn f 2 0
  firstFault [
    rsv [f.vd != 0, badS f.vs1, badS f.vs2, fn f 6 3 != 0, c > 6,
      (c == 0 || c ≥ 5) && f.vs1 != 0, (c ≤ 2 || c ≥ 5) && f.vs2 != 0, c < 5 && noMask f, f.imm.toNat ≥ 2 ^ 14],
    (ty f != 0, 0x12),
    (e.branchTaken f && !e.inRange im f.imm.toNat, 0x1D)]

def brDo (e : Vce) (f : VFields) : Vce := if e.branchTaken f then { e with kpc := f.imm.toNat } else e

/-- CALL (R343, R344). -/
def callFault (e : Vce) (im : Bool) (f : VFields) : Option Nat :=
  firstFault [
    rsv [f.vd != 0, f.vs1 != 0, f.vs2 != 0, noMask f, f.func != 0, f.imm.toNat ≥ 2 ^ 14],
    (ty f != 0, 0x12),
    (e.kstack.length ≥ 8, 0x1E),
    (!e.inRange im f.imm.toNat, 0x1D)]

def callDo (e : Vce) (f : VFields) : Vce := { e with kstack := e.kpc :: e.kstack, kpc := f.imm.toNat }

/-- RET (R343, R344). -/
def retFault (e : Vce) (im : Bool) (f : VFields) : Option Nat :=
  firstFault [
    rsv [f.vd != 0, f.vs1 != 0, f.vs2 != 0, noMask f, f.func != 0],
    (ty f != 0, 0x12),
    (e.kstack.isEmpty, 0x1E),
    (!e.inRange im (e.kstack.headD 0), 0x1D)]

def retDo (e : Vce) : Vce := { e with kstack := e.kstack.tail, kpc := e.kstack.headD 0 }

/-- The rows of the result slot that hold its first `n` bytes are marked secret (R313). -/
def Vce.slotMarked (e : Vce) (n : Nat) : Bool := (List.range (ceilDiv n 576)).any fun i => (e.row (e.ctx.slot + i)).secret

/-- The first `n` bytes of the result slot. -/
def Vce.slotBytes (e : Vce) (n : Nat) : Bytes :=
  bytesOfBits ((List.range 16).foldr (fun i a => (e.row (e.ctx.slot + i)).bits.toNat * 2 ^ (4608 * i) + a) 0) n

/-- VEND (R343, R351): OUT_LEN within what it has streamed and the result slot, no marked row or scalar.
DESIGN CHOICE, log entry 95, unsafe. -/
def vendFault (e : Vce) (f : VFields) : Option Nat :=
  let n := (e.scal f.vs1.toNat).toNat
  let rest := n - e.streamed.length
  firstFault [
    rsv [f.vd != 0, badS f.vs1, f.vs2 != 0, noMask f, fn f 6 1 != 0],
    (ty f != 0, 0x12),
    (e.sMarked f.vs1.toNat, 0x16),
    (n ≤ e.ctx.outCap && (n < e.streamed.length || rest > 9216), 0x21),
    (n ≤ e.ctx.outCap && e.ctx.k != 1 &&
      e.slotMarked rest, 0x16)]

/-- The output of a kernel: what it streamed and the first bytes of its result slot (R351). -/
def vendOut (e : Vce) (f : VFields) : Bytes :=
  let n := (e.scal f.vs1.toNat).toNat
  e.streamed ++ e.slotBytes (n - e.streamed.length)

end Sys2Proof.Machine
end

