-- ==== Sys2Proof/Machine/MicroOps.lean ====
section
/-! DEFINITION. The micro-operations of a VCE's sequencer (R361 to R375): formats, micro-registers, sequencing,
datapath issue and checks, as effects on one engine. -/

namespace Sys2Proof.Machine

/-- What a micro-operation ends in: the engine goes on, takes an instruction fault (R375), or raises a machine
check (R376). -/
inductive MRes where
  | next (e : Vce)
  | ifault (e : Vce) (cause : Nat)
  /-- It waits for data from outside the engine (R372). -/
  | wait (e : Vce)
  | mcheck (e : Vce) (cause : Nat)
deriving Repr

/-- Bits [hi:lo] of the 30 format bits of a micro-operation (R362). -/
def mb (w : BitVec 30) (hi lo : Nat) : Nat := (w.toNat / 2 ^ lo) % 2 ^ (hi + 1 - lo)

/-- Machine-check causes (R286). -/
def csParity : Nat := 0x04
def ustackCause : Nat := 0x05

/-- The value a selector reads (R361); none: reserved. -/
def Vce.sel (e : Vce) (n : Nat) : Option Nat :=
  if n < 16 then some (if n = 0 then 0 else (mapGet 0 e.u n).toNat)
  else match n with
    | 0x10 => some e.ir.toNat
    | 0x11 => some e.imm.toNat
    | 0x12 => some e.kpc
    | 0x13 => some e.vl
    | 0x14 => some e.g
    | 0x15 => some e.ctx.k
    | 0x16 => some e.vfault.toNat
    | _ => none

/-- Writes micro-register n; U0 discards (R361). -/
def Vce.setU (e : Vce) (n x : Nat) : Vce :=
  if n = 0 then e else { e with u := mapSet 0 e.u n (BitVec.ofNat 36 x) }

/-- Goes on at `a`, after `c` cycles, in which the datapath works on (R365). -/
def Vce.ujump (e : Vce) (a c : Nat) : Vce :=
  { e with upc := a, wd := e.wd + c, cycles := e.cycles + c, dp := e.dp - c }
/-- Goes on at the next address, after `c` cycles. -/
def Vce.uadv (e : Vce) (c : Nat) : Vce := e.ujump (e.upc + 1) c
/-- Issues to the datapath, which is busy for `b` cycles; while it is not free, the sequencer stalls with it (R365). -/
def Vce.uissue (e a : Vce) (b : Nat) : Vce := { a.uadv (e.dp + 1) with dp := b - 1 }

/-! Stored words and entries (R359, R360) -/

/-- The exclusive or of the bits of x below 2^n. -/
def parityBit (x n : Nat) : Nat := ((List.range n).filter fun b => x / 2 ^ b % 2 = 1).length % 2

/-- A stored control word whose parity is right (R359). -/
def parityOk (w : BitVec 40) : Bool :=
  (List.range 4).all fun i => parityBit (w.toNat / 2 ^ (9 * i)) 9 = bitOf (w.getLsbD (36 + i))

/-- An entry of `n` bits as it is stored, with an even-parity bit for each of its bytes above it. -/
def storedEntry (n x : Nat) : Nat :=
  x % 2 ^ n + 2 ^ n * ((List.range (ceilDiv n 8)).map fun i => parityBit (x % 2 ^ n / 2 ^ (8 * i)) 8 * 2 ^ i).sum

/-- The parity of a stored entry of `n` bits is right. -/
def entryOk (n x : Nat) : Bool := x = storedEntry n x

/-- An ALU function (R364); none: reserved. -/
def aluFn (n a b : Nat) : Option Nat :=
  match n with
  | 0 => some ((a + b) % 2 ^ 36)
  | 1 => some ((a + 2 ^ 36 - b) % 2 ^ 36)
  | 2 => some (Nat.land a b)
  | 3 => some (Nat.lor a b)
  | 4 => some (Nat.xor a b)
  | 5 => some (a * 2 ^ (b % 64) % 2 ^ 36)
  | 6 => some (a / 2 ^ (b % 64))
  | 7 => some a
  | _ => none

/-- Writes D and goes on; a reserved destination or value is a machine check (R361, R363). -/
def Vce.putD (e : Vce) (d : Nat) (x : Option Nat) (ok : Bool) : MRes :=
  match x with
  | some v => if ok && d < 16 then .next ((e.setU d v).uadv 1) else .mcheck e csParity
  | none => .mcheck e csParity

/-- NOP (R363). -/
def uNop (e : Vce) (w : BitVec 30) : MRes := if w = 0 then .next (e.uadv 1) else .mcheck e csParity

/-- ALU (R363, R364). -/
def uAlu (e : Vce) (w : BitVec 30) : MRes :=
  match e.sel (mb w 24 20), e.sel (mb w 19 15) with
  | some a, some b => e.putD (mb w 29 25) (aluFn (mb w 3 0) a b) (mb w 14 4 = 0)
  | _, _ => .mcheck e csParity

/-- ALUI. -/
def uAlui (e : Vce) (w : BitVec 30) : MRes :=
  match e.sel (mb w 24 20) with
  | some a => e.putD (mb w 29 25) (aluFn (mb w 19 16) a (mb w 15 0)) true
  | none => .mcheck e csParity

/-- LDI. -/
def uLdi (e : Vce) (w : BitVec 30) : MRes := e.putD (mb w 29 25) (some (mb w 19 0)) (mb w 24 20 = 0)

/-- FLD: D := IR[LO + WID − 1 : LO]. -/
def uFld (e : Vce) (w : BitVec 30) : MRes :=
  let lo := mb w 19 14
  let wid := mb w 13 8
  e.putD (mb w 29 25) (some (e.ir.toNat / 2 ^ lo % 2 ^ wid))
    (mb w 24 20 = 0 && mb w 7 0 = 0 && 1 ≤ wid && lo + wid ≤ 36)

/-- SRD. -/
def uSrd (e : Vce) (w : BitVec 30) : MRes :=
  match e.sel (mb w 24 20) with
  | some a => e.putD (mb w 29 25) (some (e.scal (a % 16)).toNat) (mb w 19 0 = 0)
  | none => .mcheck e csParity

/-- SWR; writes to S0 have no effect. -/
def uSwr (e : Vce) (w : BitVec 30) : MRes :=
  match e.sel (mb w 24 20), e.sel (mb w 19 15) with
  | some a, some b =>
    if mb w 29 25 = 0 && mb w 14 0 = 0 then .next ((e.setScal (a % 16) (BitVec.ofNat 36 b)).uadv 1)
    else .mcheck e csParity
  | _, _ => .mcheck e csParity

/-- IMMF: IMM := kernel word at KPC, `kw` reading the kernel store. A KPC outside the kernel's range faults (R346). -/
def uImmf (e : Vce) (im : Bool) (kw : Nat → Lane) (w : BitVec 30) : MRes :=
  if w ≠ 0 then .mcheck e csParity
  else if !e.inRange im e.kpc then .ifault e 0x1D
  else .next (({ e with imm := kw e.kpc, kpc := e.kpc + 1 }).uadv 1)

/-- The VFields of the word in IR, with no long immediate (R299). -/
def Vce.irFields (e : Vce) : VFields :=
  let x := e.ir.toNat
  { vd := BitVec.ofNat 5 (x / 2 ^ 23), vs1 := BitVec.ofNat 5 (x / 2 ^ 18), vs2 := BitVec.ofNat 5 (x / 2 ^ 13),
    mx := BitVec.ofNat 3 (x / 2 ^ 10), inv := x / 2 ^ 9 % 2 = 1, variant := BitVec.ofNat 2 (x / 2 ^ 7),
    func := BitVec.ofNat 7 x, imm := e.imm }

/-- The kernel word of an instruction (R299). -/
def kernelWordOf (op : Nat) (f : VFields) : Lane :=
  BitVec.ofNat 36 (op * 2 ^ 28 + f.vd.toNat * 2 ^ 23 + f.vs1.toNat * 2 ^ 18 + f.vs2.toNat * 2 ^ 13 + f.mx.toNat * 2 ^ 10
    + bitOf f.inv * 2 ^ 9 + f.variant.toNat * 2 ^ 7 + f.func.toNat)

/-- The opcode of the word in IR. -/
def Vce.irOpcode (e : Vce) : Nat := e.ir.toNat / 2 ^ 28

/-- COND of BR (R364); none: reserved. -/
def Vce.uCond (e : Vce) (c a b : Nat) : Option Bool :=
  match c with
  | 0 => some true
  | 1 => some (a == 0)
  | 2 => some (a != 0)
  | 3 => some (a < b)
  | 4 => some (a ≥ b)
  | 5 => some (e.population e.irFields != 0)
  | 6 => some (e.population e.irFields == 0)
  | _ => none

/-- BR (R363, R365). -/
def uBr (e : Vce) (w : BitVec 30) : MRes :=
  match e.sel (mb w 25 21), e.sel (mb w 20 16) with
  | some a, some b =>
    match e.uCond (mb w 29 26) a b with
    | some t => if mb w 15 15 != 0 then .mcheck e csParity
                else if t then .next (e.ujump (mb w 14 0) 2) else .next (e.uadv 1)
    | none => .mcheck e csParity
  | _, _ => .mcheck e csParity

/-- CALL (R365, R367). -/
def uCall (e : Vce) (w : BitVec 30) : MRes :=
  if mb w 29 15 != 0 then .mcheck e csParity
  else if e.ustack.length ≥ 8 then .mcheck e ustackCause
  else .next ({ e with ustack := BitVec.ofNat 17 (storedEntry 15 (e.upc + 1)) :: e.ustack }.ujump (mb w 14 0) 2)

/-- RET (R365, R367). -/
def uRet (e : Vce) (w : BitVec 30) : MRes :=
  if w ≠ 0 then .mcheck e csParity
  else match e.ustack with
    | a :: r =>
      if entryOk 15 a.toNat then .next ({ e with ustack := r }.ujump (a.toNat % 2 ^ 15) 2) else .mcheck e csParity
    | [] => .mcheck e ustackCause

/-- Steps 2 to 4 of NEXT, after its safe point (R366). `dec` reads the decode table as it is stored. -/
def uNext (e : Vce) (im : Bool) (kw : Nat → Lane) (dec : Nat → BitVec 18) (w : BitVec 30) : MRes :=
  if w ≠ 0 then .mcheck e csParity
  else if !e.ustack.isEmpty then .mcheck e ustackCause
  else if !e.inRange im e.kpc then .ifault e 0x1D
  else
    let ir := kw e.kpc
    let e' := { e with ir := ir, kaddr := e.kpc, kpc := e.kpc + 1 }
    let op := ir.toNat / 2 ^ 28
    let d := dec op
    if !entryOk 16 d.toNat then .mcheck e csParity
    else if !d.getLsbD 15 || (op ≥ 0xE0 && e.ctx.kind ≠ .customer) then .ifault e' 0x10
    else .next ({ e' with jumped := false }.ujump (d.toNat % 2 ^ 15) (1 + bitOf e.jumped))

/-- KJMP, KPUSH and KPOP (R363). -/
def uKjmp (e : Vce) (w : BitVec 30) : MRes :=
  match e.sel (mb w 24 20) with
  | some a => if mb w 29 25 = 0 && mb w 19 0 = 0 then .next ({ e with kpc := a % 2 ^ 14, jumped := true }.uadv 1) else .mcheck e csParity
  | none => .mcheck e csParity

def uKpush (e : Vce) (w : BitVec 30) : MRes :=
  match e.sel (mb w 24 20) with
  | some a =>
    if mb w 29 25 != 0 || mb w 19 0 != 0 then .mcheck e csParity
    else if e.kstack.length ≥ 8 then .ifault e 0x1E
    else .next ({ e with kstack := a % 2 ^ 14 :: e.kstack }.uadv 1)
  | none => .mcheck e csParity

def uKpop (e : Vce) (w : BitVec 30) : MRes :=
  if mb w 24 0 != 0 then .mcheck e csParity
  else match e.kstack with
    | a :: r => ({ e with kstack := r }).putD (mb w 29 25) (some a) true
    | [] => .ifault e 0x1E

/-! Datapath issue (R370, R371) -/

/-- The element operation of a vector opcode 0x20 to 0x5F: its fault and its effect; none: not listed. -/
def vop (op : Nat) : Option ((Vce → VFields → Option Nat) × (Vce → VFields → Vce)) :=
  match op with
  | 0x20 => some (vaddFault, vaddDo)
  | 0x21 => some (vsubFault, vsubDo)
  | 0x22 => some (vaddmFault, vaddmDo)
  | 0x23 => some (vsubmFault, vsubmDo)
  | 0x24 => some (vmulFault, vmulDo)
  | 0x25 => some (vmulwFault, vmulwDo)
  | 0x26 => some (vmacwFault, vmacwDo)
  | 0x27 => some (vdotFault, vdotDo)
  | 0x28 => some (vmontFault, vmontDo)
  | 0x29 => some (vmulmFault, vmulmDo)
  | 0x2A => some (vmodrFault, vmodrDo)
  | 0x2B => some (vcsubFault, vcsubDo)
  | 0x2C => some (vandFault, vandDo)
  | 0x2D => some (vorFault, vorDo)
  | 0x2E => some (vxorFault, vxorDo)
  | 0x30 => some (vshlFault, vshlDo)
  | 0x31 => some (vshrFault, vshrDo)
  | 0x32 => some (vrotlFault, vrotlDo)
  | 0x34 => some (vbflyFault, vbflyDo)
  | 0x35 => some (vexchFault, vexchDo)
  | 0x36 => some (vpermFault, vpermDo)
  | 0x38 => some (vmovFault, vmovDo)
  | 0x3C => some (vcvtFault, vcvtDo)
  | 0x3D => some (vbitpkFault, vbitpkDo)
  | 0x3E => some (vbitupFault, vbitupDo)
  | 0x3F => some (vcompFault, vcompDo)
  | 0x40 => some (vcmpFault, vcmpDo)
  | 0x41 => some (vselFault, vselDo)
  | 0x42 => some (mopFault, mopDo)
  | 0x48 => some (vsampuFault, vsampuDo)
  | 0x49 => some (vsampbFault, vsampbDo)
  | 0x4A => some (vsampballFault, vsampballDo)
  | 0x4B => some (vcbdFault, vcbdDo)
  | 0x50 => some (vkinitFault, vkinitDo)
  | 0x51 => some (vkabsFault, vkabsDo)
  | 0x52 => some (vksqzFault, vksqzDo)
  | 0x58 => some (vrefFault, vrefDo)
  | 0x59 => some (vsandFault, vsandDo)
  | 0x5A => some (va2bFault, va2bDo)
  | 0x5B => some (vb2aFault, vb2aDo)
  | 0x5C => some (vszeroFault, vszeroDo)
  | 0x5F => some (vunshFault, vunshDo)
  | _ => none

/-- Beats of a whole-operand issue that takes the engine from `e` to `a`, from the tables of chapter 07 (R255, R370).
Absorbing and squeezing count the move of the operand. -/
def Vce.beats (e a : Vce) (op : Nat) (f : VFields) : Nat :=
  let g := e.g
  let k := max (e.shareK f.vd.toNat) (e.shareK f.vs1.toNat)
  let conv := convBeats (elemW (ty f)) k g
  let perms := 12 * (a.sponge.perms - e.sponge.perms)
  if op = 0x58 then refreshBeats (e.ent f.vd.toNat).kind k g
  else if op = 0x59 then refreshBeats .bool k g
  else if op = 0x5A || op = 0x5B then conv
  else if op = 0x5C then 72 * pairCount k * (g + 8)
  else if op = 0x5F then refreshBeats (e.ent f.vs1.toNat).kind k g + 4 * g * k
  else if op = 0x48 then perms + 4 * g
  else if op = 0x49 then
    perms * e.sponge.copies.length
      + candBeats e.sponge.copies.length (vsampbLoop (1024 * 168) e 0 f.func.toNat e.qn e.vl []).2.1
  else if op = 0x4A then perms + 64
  else if op = 0x51 || op = 0x52 then 64 * g
  else if op = 0x50 then 2
  else if op = 0x42 then 1
  else if op = 0x40 then 4
  else if op = 0x3F && k != 1 then conv
  else if op = 0x4B && k != 1 then conv
  else if op = 0x3D || op = 0x3E then 4 * (regCount (ty f) g + e.packRegs f.func.toNat) * k
  else if op = 0x25 || op = 0x26 || op = 0x28 then 8 * g * k
  else 4 * regCount (ty f) g * k

/-- An issue whose PART 1 parts are stages or share pairs, not registers (R370). -/
def Vce.staged (e : Vce) (op : Nat) (f : VFields) : Bool :=
  (op ≥ 0x48 && op ≠ 0x4B) || ((op = 0x3F || op = 0x4B) && e.isShared f.vs1.toNat)

/-- Destination registers of one share of an operation. -/
def Vce.destRegs (e : Vce) (op : Nat) (f : VFields) : Nat :=
  if op = 0x25 || op = 0x26 then 2 * e.g
  else if op = 0x3C then (if ty f = 3 && fn f 1 0 = 3 then 2 * e.g else cvtRegs (ty f) (fn f 1 0) e.g)
  else if op = 0x3D then e.packRegs f.func.toNat
  else if op = 0x27 then e.g
  else regCount (ty f) e.g

/-- The active elements of member m. -/
def Vce.memberElems (e : Vce) (f : VFields) (m : Nat) : List Nat :=
  (e.activeElems f (ty f)).filter fun i => i / (128 * perLane (ty f)) = m

/-- One pair of shares of member m of the set at `a` is refreshed. -/
def Vce.refreshPart (e : Vce) (f : VFields) (a m : Nat) (p : Nat × Nat) : Vce :=
  let kd := (e.ent a).kind
  let r := e.eachElem (e.memberElems f m) fun x i => refreshPair kd e.qn (elemW (ty f)) (e.sharesOf (ty f) a i, x) p
  (e.spend r.2 (refreshBeats kd 2 1)).putShares (ty f) a e.g r.1 (e.marked a (e.g * e.shareK a) || e.mMarked f.mx.toNat)

/-- Takes from `a` only the destination registers, `per` of them, of share i, member m of the operand at d. -/
def Vce.onlyPart (e a : Vce) (d m i per : Nat) : Vce :=
  (List.range per).foldl (fun (x : Vce) r =>
    let n := d + i * a.shareStep d + m * per + r
    (x.setReg n (a.reg n)).setEnt n (a.ent n)) e

/-- A PART 1 issue by stages or share pairs, of member m, shares i and j and stage n: of VREF and VSAND, one pair of R328,
VSAND's products of a share with itself being its parts with i = j; of VUNSH, a pair of its refresh at stage 0, and at stage 1
the recombination of a member; of the others, whose stages are not published, share i of member m of the destination at stage 0,
with what else the operation does at the last of its `k` shares and members, nothing at other stages.
DESIGN CHOICE, log entry 82, unsafe. -/
def Vce.stagePart (e : Vce) (op : Nat) (f : VFields) (eff : Vce → VFields → Vce) (k m i j n : Nat) : Vce :=
  let t := ty f
  let d := f.vd.toNat
  let a := f.vs1.toNat
  match op with
  | 0x58 => if i < j then e.refreshPart f d m (i, j) else e
  | 0x59 =>
    let sh := fun (b x : Nat) => e.sharesOf t b x
    let mk := e.marked a (e.g * e.shareK a) || e.marked f.vs2.toNat (e.g * e.shareK f.vs2.toNat) || e.mMarked f.mx.toNat
    let r := e.eachElem (e.memberElems f m) fun x l =>
      if i < j then sandPair (elemW t) (sh a l) (sh f.vs2.toNat l) (sh d l, x) (i, j)
      else (modifyAt (sh d l) i fun _ => Nat.land ((sh a l).getD i 0) ((sh f.vs2.toNat l).getD i 0), x)
    (e.spend r.2 (if i < j then 72 else 0)).putShares t d e.g r.1 mk
  | 0x5F =>
    if n = 0 then (if i < j then e.refreshPart f a m (i, j) else e)
    else if n = 1 then
      e.writeElems t d e.g 1 (fun l => (e.memberElems f m).contains l)
        (fun _ l => combine (e.ent a).kind e.qn (e.sharesOf t a l))
        ((fn f 1 0 = 0 && e.ctx.kind ≠ .customer) || e.marked a (e.g * e.shareK a) || e.mMarked f.mx.toNat)
    else e
  | _ =>
    if n ≠ 0 ∨ j ≠ 0 then e
    else if m + 1 = e.g ∧ i + 1 = k then eff e f
    else if op = 0x50 ∨ op = 0x51 then e
    else e.onlyPart (eff e f) d m i (max 1 (e.destRegs op f / e.g))

/-- The issue writes a mask, which is no part of a vector operand. DESIGN CHOICE, log entry 82, unsafe. -/
def writesMask (op : Nat) : Bool := op = 0x40 || op = 0x42

/-- The func bits that a vector operation uses. -/
def funcBits (op : Nat) : Nat :=
  if [0x28, 0x2A, 0x2B, 0x25, 0x26, 0x27, 0x38, 0x41, 0x52, 0x58, 0x59, 0x5A, 0x5B, 0x5C].contains op then 0x00
  else if op ≤ 0x2E then 0x40
  else if op ≤ 0x32 then 0x3F
  else if [0x34, 0x36, 0x48, 0x51].contains op then 0x01
  else if [0x3C, 0x42, 0x5F].contains op then 0x03
  else if [0x35, 0x40, 0x50].contains op then 0x07
  else 0x7F

/-- The fields of IR that the operation of vector opcode `op` uses; the others are those of the instruction whose
routine issues it, and the operation takes them as 0 (R301, R371). DESIGN CHOICE, log entry 82, unsafe. -/
def VFields.usedBy (f : VFields) (op : Nat) : VFields :=
  let func := f.func &&& BitVec.ofNat 7 (funcBits op)
  let noB := [0x28, 0x2A, 0x2B, 0x30, 0x31, 0x32, 0x35, 0x38, 0x3C, 0x3D, 0x3E, 0x3F, 0x48, 0x49, 0x4A, 0x4B, 0x50, 0x58,
    0x5A, 0x5B, 0x5C, 0x5F].contains op || (op = 0x36 && func = 1) || (op = 0x40 && func = 4)
  let noMx := [0x34, 0x35, 0x3D, 0x3E, 0x42, 0x48, 0x49, 0x4A, 0x50, 0x51, 0x52].contains op
  { f with
    vd := if op = 0x50 || op = 0x51 then 0 else f.vd
    vs1 := if [0x34, 0x35, 0x48, 0x49, 0x4A, 0x50, 0x52, 0x58].contains op then 0 else f.vs1
    vs2 := if noB then 0 else f.vs2
    mx := if noMx then 0 else f.mx
    inv := !noMx && f.inv
    func := func }

/-- The operand register a DOV, AOV or BOV value names (R370); none: reserved selector. -/
def Vce.ovReg (e : Vce) (x : Nat) (irReg : BitVec 5) : Option (BitVec 5) :=
  if x = 0 then some irReg else (e.sel x).map (BitVec.ofNat 5)

/-- VISSUE (R370, R371). DESIGN CHOICE, log entry 82, unsafe. -/
def uVissue (e : Vce) (w : BitVec 30) : MRes :=
  let op := mb w 29 24 + 0x20
  let ir := e.irFields
  match vop op, e.ovReg (mb w 15 11) ir.vd, e.ovReg (mb w 10 6) ir.vs1, e.ovReg (mb w 5 1) ir.vs2 with
  | some v, some d, some a, some b =>
    let t := mb w 17 16
    let f := { ir with vd := d, vs1 := a, vs2 := b, variant := if t = 0 then ir.variant else BitVec.ofNat 2 t,
                       mx := if mb w 18 18 = 1 then 0 else ir.mx, inv := mb w 18 18 != 1 && ir.inv }
    let f := f.usedBy op
    if mb w 0 0 != 0 then .mcheck e csParity
    else match v.1 e f with
      | some c => .ifault e c
      | none =>
        let whole := v.2 e f
        let beats := e.beats whole op f
        if mb w 19 19 = 0 then
          if beats > 128 then .ifault e 0x14 else .next (e.uissue whole beats)
        else
          let pu := (e.sel (mb w 23 20)).getD 0
          let m := pu % 8
          let i := pu / 8 % 4
          let j := pu / 32 % 4
          let k := max (whole.shareK d.toNat) (max (e.shareK d.toNat) (e.shareK a.toNat))
          let part := min 72 (max 1 (ceilDiv beats (e.g * k)))
          if writesMask op then .next (e.uissue whole part)
          else if m ≥ e.g || i ≥ k || j ≥ k then .ifault e 0x14
          else if e.staged op f then .next (e.uissue (e.stagePart op f v.2 k m i j (pu / 2 ^ 7 % 32)) 72)
          else .next (e.uissue (e.onlyPart whole d.toNat m i (max 1 (e.destRegs op f / e.g))) part)
  | _, _, _, _ => .mcheck e csParity

/-- VWAIT: the datapath has become idle. DEDUCED, log entry 13, safe. -/
def uVwait (e : Vce) (w : BitVec 30) : MRes := if w = 0 then .next (e.uadv (e.dp + 1)) else .mcheck e csParity

/-- Row checks of R311 and R312 for one register and row; `share` none: PUBLIC. -/
def Vce.rowFault (e : Vce) (toRow : Bool) (row : Nat) (share : Option Nat) (mark : Bool) : Option Nat :=
  let c := e.row (e.rowKey row)
  if toRow then
    firstFault [
      (e.isInput row || inConst row, 0x19),
      (!(inSpill row || e.ctx.inSlot row), 0x18), (mark, 0x16)]
  else
    firstFault [
      (!e.loadable row, 0x18),
      (e.ctx.k != 1 && (match share with | some j => !c.secret || c.share != j | none => c.secret), 0x17)]

/-- Moves one register from or to a row. -/
def Vce.rowMove (e : Vce) (toRow : Bool) (reg row : Nat) (share : Option Nat) : Vce :=
  if toRow then
    let c := e.row row
    e.setRow row { bits := e.reg reg, secret := c.secret || share.isSome, share := share.getD c.share }
  else (e.setReg reg (e.row (e.rowKey row)).bits).remark reg 1 false true

/-- A row that has not arrived yet (R314). -/
def Vce.unarrived (e : Vce) (row : Nat) : Bool := e.logical row && row ≥ e.arrived

/-- ROWMV (R362, R370, R371): a move from a streamed row that has not arrived waits for it (R314). -/
def uRowmv (e : Vce) (w : BitVec 30) : MRes :=
  let toRow := mb w 19 19 = 1
  match e.ovReg (mb w 29 25) e.irFields.vd, e.sel (mb w 24 20) with
  | some r, some row =>
    if mb w 13 0 != 0 then .mcheck e csParity
    else if mb w 14 14 = 1 then
      let pu := (e.sel (mb w 18 15)).getD 0
      let i := pu / 8 % 4
      let reg := r.toNat + i * e.shareStep r.toNat + pu % 8
      let share := if e.isShared r.toNat then some i else none
      if badGroup r.toNat e.g || reg ≥ 32 || pu % 8 ≥ e.g then .ifault e 0x13
      else if e.badShare r.toNat e.g || i ≥ e.shareK r.toNat then .ifault e 0x15
      else match e.rowFault toRow row share (e.ent reg).internal with
        | some c => .ifault e c
        | none => if !toRow && e.unarrived row then .wait e else .next (e.uissue (e.rowMove toRow reg row share) 4)
    else if badGroup r.toNat e.g then .ifault e 0x13
    else if (List.range e.g).any fun i => e.isShared (r.toNat + i) then .ifault e 0x15
    else match (List.range e.g).findSome? fun i => e.rowFault toRow (row + i) none (e.ent (r.toNat + i)).internal with
      | some c => .ifault e c
      | none =>
        if !toRow && (List.range e.g).any fun i => e.unarrived (row + i) then .wait e
        else .next (e.uissue ((List.range e.g).foldl (fun x i => x.rowMove toRow (r.toNat + i) (row + i) none) e) (4 * e.g))
  | _, _ => .mcheck e csParity

/-- COND of CHK (R364); none: reserved. -/
def Vce.chkCond (e : Vce) (c a arg : Nat) : Option Bool :=
  let f := e.irFields
  let bit := fun (i : Nat) => arg / 2 ^ i % 2 = 1
  match c with
  | 0 => some (a != 0)
  | 1 => some (a == 0)
  | 2 => some (e.g != 1)
  | 3 => some (e.ctx.k == 1)
  | 4 => some (e.q == 0)
  | 5 => some (arg / 2 ^ (ty f) % 2 == 0)
  | 6 => some ((bit 0 && f.vd != 0) || (bit 1 && f.vs1 != 0) || (bit 2 && f.vs2 != 0) || (bit 3 && f.mx != 0) ||
      (bit 4 && f.inv) || (bit 5 && f.variant != 0) || (bit 6 && f.func != 0))
  | 7 => some ((bit 0 && e.isShared f.vd.toNat) || (bit 1 && e.isShared f.vs1.toNat) || (bit 2 && e.isShared f.vs2.toNat))
  | _ => none

/-- A cause that R339 lists for a fault that is raised. -/
def listedCause (c : Nat) : Bool := c = 1 || c = 2 || (0x10 ≤ c && c ≤ 0x22)

/-- CHK (R363, R375). -/
def uChk (e : Vce) (w : BitVec 30) : MRes :=
  match e.sel (mb w 24 20) with
  | some a =>
    match e.chkCond (mb w 19 14) a (mb w 7 0) with
    | some t => if mb w 29 25 != 0 || !listedCause (mb w 13 8) then .mcheck e csParity
                else if t then .ifault e (mb w 13 8) else .next (e.uadv 1)
    | none => .mcheck e csParity
  | none => .mcheck e csParity

/-- FAULT (R363, R375): A, COND and ARG are 0. -/
def uFault (e : Vce) (w : BitVec 30) : MRes :=
  if mb w 29 14 != 0 || mb w 7 0 != 0 || !listedCause (mb w 13 8) then .mcheck e csParity else .ifault e (mb w 13 8)

/-- POLL after its safe point (R372). -/
def uPoll (e : Vce) (w : BitVec 30) : MRes := if w = 0 then .next (e.uadv 1) else .mcheck e csParity

/-! The vendor formats (R362): the operation is the one the word in IR names -/

/-- An operation of the word in IR, listed by opcode. -/
def irVop (op : Nat) : Option ((Vce → VFields → Option Nat) × (Vce → VFields → Vce)) :=
  match op with
  | 0x01 => some (vsetlFault, vsetlDo)
  | 0x02 => some (vcfgFault, vcfgDo)
  | 0x03 => some (vsetqFault, vsetqDo)
  | 0x12 => some (voutFault, voutDo)
  | 0x13 => some (vrelFault, vrelDo)
  | n => vop n

/-- Carries out the operation of the word in IR when its opcode is one of `ops`; otherwise only the address advances. -/
def Vce.doIr (e : Vce) (ops : List Nat) : MRes :=
  if ops.contains e.irOpcode then
    match irVop e.irOpcode with
    | some v => match v.1 e e.irFields with
      | some c => .ifault e c
      | none => .next ((v.2 e e.irFields).uadv 1)
    | none => .next (e.uadv 1)
  else .next (e.uadv 1)

/-- KCORE, SHMAP, MODW and OSTR (R363). DESIGN CHOICE, log entry 25, unsafe. -/
def uKcore (e : Vce) : MRes := e.doIr [0x50, 0x51, 0x52]
def uShmap (e : Vce) : MRes := e.doIr [0x02]
def uModw (e : Vce) : MRes := e.doIr [0x01, 0x03]
def uOstr (e : Vce) : MRes := e.doIr [0x12, 0x13]

end Sys2Proof.Machine
end

