-- ==== Sys2Proof/Machine/Path.lean ====
section
/-! DEFINITION. The path of a job from its descriptor to the ready lists: what the part and the slice offer, the checks
at consumption, the conditions of HELD, keys, and randomness (R46, R85 to R99, R108, R116, R158, R194 to R204, R227 to
R241, R345 to R350). -/

namespace Sys2Proof.Machine

/-! What the part and the slice offer (R89, R345 to R349, R500, R520, R642) -/

/-- A customer entry word (R349). -/
structure CallEntry where
  usesKey : Bool
  masked  : Bool
  spill   : Nat
  limit   : Nat
  entry   : Nat
deriving DecidableEq, Repr

/-- Customer entry `nn`, where it is VALID and breaks no rule of its layout. -/
def State.callEntry (s : State) (nn : Nat) : Option CallEntry :=
  let w := (s.kernelWord (0x3FC0 + nn)).toNat
  let (lo, hi) := kernelRange .customer s.mpInService
  let a := w % 2 ^ 14
  if w / 2 ^ 35 % 2 = 1 ∧ w / 2 ^ 28 % 32 ≤ 20 ∧ w / 2 ^ 26 % 4 = 0 ∧ w / 2 ^ 14 % 256 = 0 ∧ lo ≤ a ∧ a ≤ hi then
    some { usesKey := w / 2 ^ 34 % 2 = 1, masked := w / 2 ^ 33 % 2 = 1, spill := w / 2 ^ 28 % 32
           limit := w / 2 ^ 22 % 16, entry := a }
  else none

/-- The operation of a descriptor, with what the entry of a customer call says of it. -/
def State.infoOf (s : State) (d : Desc) : Option OpInfo :=
  match opInfo d.opc.toNat with
  | none => none
  | some i =>
    if d.fam = 0x70 then
      (s.callEntry (d.opc.toNat % 256)).map fun c =>
        { i with key := if c.usesKey then .required else .none, rights := if c.usesKey then rKERNEL else 0
                 masked := c.masked }
    else some i

/-- The operation of an admitted job. -/
def State.jobInfo (s : State) (x : Job) : OpInfo := (s.infoOf x.desc).getD x.desc.info

/-- The part and slice `n` offer the operation (step 1 of R89). DEDUCED, log entry 51, safe. -/
def State.offered (s : State) (n : Nat) (d : Desc) (i : OpInfo) : Bool :=
  (i.plan.all fun p => match p.1 with | some c => s.activeUnits c > 0 | none => true)
    && (d.fam ≠ 0x60 || (n = 127 && s.mpReady))
    && (d.fam ≠ 0x70 || (n ≠ 127 && bitAt (s.reg (.perm n)) 1))

/-! Randomness (R46, R116, R117, R158, R350, R431) -/

/-- DETERMINISTIC of the sign options (R125, R165). -/
def Job.deterministic (x : Job) : Bool := leAt x.block 9 1 % 2 = 1

/-- Length of the PSS salt (R165, R169). -/
def Job.saltLen (x : Job) : Nat :=
  let n := leAt x.block 10 1
  if n = 0xFF then x.desc.classicHashLen x.block else n

/-- An inline encapsulation key that fails its check: no randomness is drawn for it (R122, R148). For a hybrid key the check
of ek_M decides: randomness is drawn for one with a good ek_M and a bad pk_C. DEDUCED, log entry 28, unsafe.
DESIGN CHOICE, log entry 87, unsafe. -/
def Job.badInline (x : Job) : Bool :=
  match x.input with
  | none => false
  | some b =>
    match x.desc.fam with
    | 1 => !Config.mlkemEkOk x.desc.set b
    | 6 => !Config.hqcPkOk x.desc.set b
    | 7 => !Config.mcePkOk (x.desc.set / 2 * 2) b
    | 0xA => ((hybridKem x.desc.set).map fun h => !Config.mlkemEkOk h.kem (b.take h.ek)).getD false
    | _ => false

/-- Bytes of algorithmic randomness an attempt draws. -/
def Job.drawLen (x : Job) : Nat :=
  let d := x.desc
  let key := if seeded x.block then 0 else 1
  let hedged := if x.deterministic then 0 else 1
  match d.fam, d.op with
  | 1, 0 => 64 * key
  | 1, 2 => 32
  | 1, 3 => if x.badInline then 0 else 32
  | 2, 0 => 32 * key
  | 2, 1 => 32 * hedged
  | 3, 0 => key * (3 * ((slhSize d.set).getD (0, 0)).1)
  | 3, 1 => hedged * ((slhSize d.set).getD (0, 0)).1
  | 4, 0 => ((stfTrees 4 d.set (fieldA 24 x.block)).getD (0, [])).1 + 16
  | 5, 0 => 3 * ((stfTrees 5 d.set (fieldA 24 x.block)).getD (0, [])).1
  | 6, 0 => 64
  | 6, 2 => hqcDraw d.set
  | 6, 3 => if x.badInline then 0 else hqcDraw d.set
  | 7, 0 | 7, 2 => 32
  | 7, 3 => if x.badInline then 0 else 32
  | 8, 0 => ((curve d.set).map Curve.draw).getD 0
  | 8, 1 => if d.set = 4 then 0 else 32 * hedged
  | 9, 0 => 64
  | 9, 2 => x.saltLen
  | 0xA, 0 => ((hybridKem d.set).map fun h => 64 + h.draw).getD 0
  | 0xA, 2 | 0xA, 6 => ((hybridKem d.set).map fun h => 32 + h.draw).getD 0
  | 0xA, 3 | 0xA, 7 => if x.badInline then 0 else ((hybridKem d.set).map fun h => 32 + h.draw).getD 0
  | 0xB, 0 => ((hybridSig d.set).map fun h => 32 + h.draw).getD 0
  | 0xB, 1 => hedged * (if d.set = 1 then 64 else 32)
  | 0x10, 0 | 0x10, 2 | 0x11, 0 => if drawNonce x.block then 12 else 0
  | 0x30, 0 => kmLen x.block
  | 0x40, 0 | 0x40, 1 => d.outCap
  | 0x60, 1 | 0x60, 2 => 32
  | _, _ => 0

/-- The job's output places a secret in a slot (R431). DEDUCED, log entry 69, unsafe. -/
def Job.intoSlot (x : Job) (i : OpInfo) : Bool :=
  (x.desc.fam = 0x30 && (x.desc.op = 0 || ((x.desc.op = 1 || x.desc.op = 3) && algKind (kmAlg x.block) ≠ 1) || x.desc.op = 4))
    || ((i.kind = .keyOut || i.kind = .kdf) && (x.dest = 1 || x.dest = 3))

/-- KEY itself reads a slot with a secret, whose shares it re-randomises (R431). -/
def Job.keyReads (x : Job) : Bool := x.desc.fam = 0x30 && (x.desc.op = 2 || x.desc.op = 4 || x.desc.op = 5)

/-- Bytes of the masks of a RAW output (R149). -/
def Job.maskLen (x : Job) : Nat := ((hybridKem x.desc.set).map fun h => 32 + h.ss).getD 0

/-- The operation returns secrets under fresh masks, which SHARE serves (R149, R466). -/
def Job.masksRaw (x : Job) : Bool := x.desc.fam = 0xA && 5 ≤ x.desc.op && x.desc.op ≤ 7

/-- The operation is an encapsulation to an inline key. -/
def Job.inlineKem (x : Job) : Bool :=
  (x.desc.fam = 1 || x.desc.fam = 6 || x.desc.fam = 7 || x.desc.fam = 0xA) && (x.desc.op = 3 || x.desc.op = 7)

/-- The DRBG instances that must serve job `x` before it starts; none for an inline key that fails its check (R122). -/
def Job.instances (x : Job) (i : OpInfo) : List Nat :=
  if x.inlineKem && x.badInline then []
  else (if x.drawLen > 0 || x.desc.fam = 0x40 then [256 + x.slice] else [])
    ++ (if i.masked && x.order ≥ 1 then [2] else [])
    ++ (if i.blinded then [3] else [])
    ++ (if x.intoSlot i || x.masksRaw || x.keyReads then [4] else [])

/-- The operation takes a block of fresh entropy (R469). -/
def Job.takesFresh (x : Job) : Bool := x.desc.fam = 0x40 && (x.desc.op = 1 || x.desc.op = 2)

/-- Every instance that the job needs can serve it. -/
def State.canRun (s : State) (x : Job) : Bool := (x.instances (s.jobInfo x)).all fun k => s.canServe k

/-- Bytes of the message input of an ML-DSA or hybrid signature, which a VCE hashes or lends (R272). -/
def Job.lendBytes (x : Job) : Nat :=
  let d := x.desc
  let (p, _, g) := (mldsaSize d.set).getD (0, 0, 0)
  let h := (hybridSig d.set).map fun h => (h.pkM + h.pkC, h.sigM + h.sigC)
  let (hp, hg) := h.getD (0, 0)
  match d.fam, d.op with
  | 2, 1 | 0xB, 1 => d.inLen
  | 2, 2 => d.inLen - g
  | 2, 3 => d.inLen - (p + g)
  | 0xB, 2 => d.inLen - hg
  | 0xB, 3 => d.inLen - (hp + hg)
  | _, _ => 0

/-! Ready lists -/

/-- A step is READY when every step it depends on has ended (R201). -/
def Job.wake (x : Job) : Job :=
  { x with steps := x.steps.map fun p =>
      if p.st = .blocked ∧ p.deps.all (fun k => match x.steps[k]? with | some q => q.st = .finished | none => true) then
        { p with st := .ready }
      else p }

/-- The part issues the reads of a range for job `j` of slice `n` (R52, R56). -/
def State.jobRead (s : State) (j n addr len : Nat) : State :=
  (readPieces addr len).foldl (fun (s : State) (g : Nat × Nat) =>
    (s.onJob j fun x => { x with readAt := some s.el }).request (s.pasidOf n) g.1 g.2 (.jobRead j (s.pasidOf n) g.1 g.2)) s

/-- The part reads a list of ranges for job `j` of slice `n`. -/
def State.jobReads (s : State) (j n : Nat) (l : List (Nat × Nat)) : State :=
  l.foldl (fun (s : State) (g : Nat × Nat) => s.jobRead j n g.1 g.2) s

/-- The header of the blob in host memory that SUBJECT of a WRAP names (R56, R439). -/
def Job.subjectRead (x : Job) : List (Nat × Nat) :=
  if x.desc.opc ≠ 0x3020 then []
  else match keyForm (BitVec.ofNat 64 (leAt x.block 40 8)) with
  | .host a => [(a, 64)]
  | _ => []

/-- The part reads the input of job `j` (R275, R681). -/
def State.readInput (s : State) (j : Nat) (x : Job) : State := s.jobReads j x.slice (x.inSegs ++ x.subjectRead)

/-- The job enters READY; one that needs no engine reads its input. DESIGN CHOICE, log entry 55, unsafe. -/
def State.enterReady (s : State) (j : Nat) : State :=
  match s.job? j with
  | some x =>
    let s := s.putJob j ({ x with stage := .active }).wake
    if x.steps.all fun p => p.cls.isNone then s.readInput j x else s
  | none => s

/-- Elapsed ns at which a wait for randomness that begins now reaches its limit (R476, R483). -/
def State.waitLimit (s : State) : Nat := s.el + fld (s.reg .rngWaitLimit) 9 0 * 1000000

/-- The job has its key: it waits for randomness or becomes READY (R198, R469, R473, R474). -/
def State.toReady (s : State) (j : Nat) : State :=
  match s.job? j with
  | none => s
  | some x =>
    let s := s.putJob j { x with readyAt := s.el, waitUntil := s.waitLimit, harvestWait := false }
    if x.takesFresh then
      let s := if s.reseedIsDue 0 then s.poolSeed 0 else s
      if s.rng.noSource then s.noEntropy j
      else match (if s.rng.ready && s.rng.waiting.isEmpty then s.takePool else none) with
      | some (b, s) => ({ s with rng := { s.rng with granted := s.rng.granted ++ [(j, b)] } }).enterReady j
      | none =>
        let s := { s with rng := { s.rng with waiting := s.rng.waiting ++ [FreshReq.job j x.prot] } }
        s.onJob j fun x => { x with stage := .entropyWait }
    else if s.canRun x then s.enterReady j
    else if s.rng.noSource then s.noEntropy j
    else s.onJob j fun x => { x with stage := .entropyWait }

/-! Keys on leaving HELD (R108, R143, R183, R198, R426 to R428, R436) -/

/-- The blob at offset `off` of the window of slice `n`, or why it cannot be read: it lies outside the window, or a block
fails its check. -/
def State.windowBlob (s : State) (n off : Nat) : Except HCause Bytes :=
  let (base, size) := s.window n
  if off + 64 > size then .error .translation
  else if s.cmcBad (base + off) 64 then .error .poisoned
  else
    let len := 80 + leAt (s.cmcBytes (base + off) 64) 36 4
    if len > 80 + 2 ^ 21 then .ok (s.cmcBytes (base + off) 64)
    else if off + len > size then .error .translation
    else if s.cmcBad (base + off) len then .error .poisoned
    else .ok (s.cmcBytes (base + off) len)

/-- The bytes of the window that such a read touches. -/
def State.blobRange (s : State) (n off : Nat) : Nat × Nat :=
  match s.windowBlob n off with
  | .ok b => ((s.window n).1 + off, b.length)
  | .error _ => ((s.window n).1 + off, 64)

/-- Output length that follows from keys in the part (R99): a stateful signature, a rewrapped blob, a wrapped slot. -/
def State.keyedLen (s : State) (x : Job) (k : KeySlot) : Option Nat :=
  if (x.desc.fam = 4 ∨ x.desc.fam = 5) ∧ x.desc.op = 1 then
    some (stfSigLen x.desc.fam x.desc.set (stfField x.desc.fam k.body))
  else if x.desc.opc = 0x3050 then some (80 + k.body.length)
  else if x.desc.opc = 0x3020 then
    -- the blob's length is known where its header can be read (R439)
    (match keyForm (BitVec.ofNat 64 (leAt x.block 40 8)) with
    | .handle h => (s.bySlot x.slice h).map fun i => roundUp (s.slot i).body.length 8 + 8
    | .window off =>
      (match s.windowBlob x.slice off with
      | .ok b => some (roundUp (leAt b 36 4) 8 + 8)
      | .error _ => none)
    | _ => none)
  else none

/-- The output does not fit OUT_CAP: the length required. -/
def Job.tooSmall (x : Job) (need : Option Nat) : Option Result :=
  match need with
  | some n => if n > x.desc.outCap then some { status := .outTooSmall, need := n } else none
  | none => none

/-- The class on which KEY has a public key computed (R426). -/
def pubClass (fam : Nat) : Cls := if fam = 2 then .vce else .cle

/-- The plan with a step before every other one, numbered last (R426, R441). -/
def prepend (c : Cls) (l : List PStep) : List PStep :=
  (l.map fun p => if p.deps.isEmpty then { p with deps := [l.length] } else p) ++ [{ cls := some c }]

/-- Length of a meter's signature by the algorithm of its key (R516). -/
def meterSig (a : Nat) : Nat := if a = 0x0214 then 2420 else 64

/-- IN_LEN that does not fit the meter key of a family 0x60 job: one reading, or 1 to 96 of them (R517).
DEDUCED, log entry 37, unsafe. -/
def Job.meterBad (x : Job) (k : KeySlot) : Bool :=
  let n := 48 + meterSig k.alg.toNat
  x.desc.fam = 0x60 &&
    ((x.desc.op = 0 && x.desc.inLen ≠ n) || (x.desc.op = 1 && (x.desc.inLen % n ≠ 0 || x.desc.inLen > 96 * n)))

/-- Readings signed with ML-DSA-44 are verified on a VCE, others on a CLE (R519). -/
def Job.meterClass (x : Job) (k : KeySlot) : Job :=
  if x.desc.fam = 0x60 ∧ k.alg = 0x0214 then
    { x with steps := modifyAt x.steps 0 fun p => { p with cls := some .vce } }
  else x

/-- The job computes with the key in slot `k` from now on: it holds the slot and goes on; one that becomes a plan job waits
for its scratch area first (R200, R426). DESIGN CHOICE, log entry 89, unsafe. -/
def State.keyTaken (s : State) (j k : Nat) : State :=
  match s.job? j with
  | none => s
  | some x =>
    if x.meterBad (s.slot k) then s.finish j (fail .descInvalid 0x0A)
    else match x.tooSmall (s.keyedLen x (s.slot k)) with
    | some r => s.finish j r
    | none =>
      let s := s.putJob j (x.meterClass (s.slot k))
      let need := needsPub x.desc.opc.toNat (s.slot k).alg.toNat && (s.slot k).pub.isNone
      let s := s.holdSlot j k
      let s := if need then s.onJob j fun x => { x with
          steps := prepend (pubClass x.desc.fam) x.steps, needScratch := !x.scratch } else s
      if need && !x.scratch then s else s.toReady j

/-- The slot that a handle names is checked at this use (steps 6 and 7 of R427). -/
def State.keyByHandle (s : State) (j : Nat) (x : Job) (h : Nat) : State :=
  match s.bySlot x.slice h with
  | none => s.finish j (fail .keyState)
  | some k =>
    if !s.keyAlive (s.slot k) then s.finish j (fail .keyExpired)
    else if !x.accepts (s.slot k) then s.finish j (fail .keyPolicy)
    else (s.touch k).keyTaken j k

/-! Reads of session contexts that fail (R409) -/

/-- The handle in a session context names a key slot: its index. -/
def slotIndex (h : Nat) : Nat := h % 2 ^ 14

/-- A session lets a key slot go. -/
def State.unpin (s : State) (h : Nat) : State :=
  if s.handle (slotIndex h) = h then s.onSlot (slotIndex h) fun k => { k with pins := k.pins - 1 } else s

/-- Session `i` lets its keys go. -/
def State.unpinKeys (s : State) (i : Nat) : State :=
  let y := s.session i
  let s := s.unpin y.key
  if y.nextValid then s.unpin y.keyNext else s

/-- The read of a context fails: the job completes ENGINE_FAULT with ENGINE 0x7E, and the session is FREE.
DESIGN CHOICE, log entry 29, unsafe. -/
def State.contextLost (s : State) (j i : Nat) : State :=
  let s := ((s.readFails (i / 2)).finish j (fail .engineFault)).onJob j fun x => { x with engineCode := 0x7E }
  (s.unpinKeys i).onSession i Session.freed

/-! Sessions on leaving HELD (R180, R182, R183) -/

/-- The session that a handle names for slice `n` (R180). -/
def State.sessionBy (s : State) (n h : Nat) : Option Nat :=
  let i := h % 2 ^ 20
  let (f, c) := s.sessionBlocks n
  let x := s.session i
  if f * 4096 ≤ i ∧ i < (f + c) * 4096 ∧ x.st ≠ .free ∧ s.sessGen i = h / 2 ^ 20 then some i else none

/-- The variant of a session. -/
def Session.kind (x : Session) : Variant := (variantOf x.variant).getD { tag := 16 }

/-- Session `i` is in the on-chip context cache, whose 16,384 places hold the contexts used last (R38, R189).
DESIGN CHOICE, log entry 29, unsafe. -/
def State.cacheSession (s : State) (i : Nat) : State :=
  let l := i :: s.kmg.sessCache.filter (· ≠ i)
  let s := if s.kmg.sessCache.contains i then s else s.readPlace (contextPlace i)
  let s := (l.drop 16384).foldl (fun (s : State) k => s.writePlace (contextPlace k)) s
  { s with kmg := { s.kmg with sessCache := l.take 16384 } }

/-- What the session context refuses before the job is READY. -/
def Job.sessionRefusal (x : Job) (y : Session) : Option Result :=
  let d := x.desc
  let v := y.kind
  if d.op < 3 ∨ d.op = 7 then none
  else if v.sealing ≠ decide (d.op ≤ 4) then some (fail .keyPolicy)
  else if (d.op = 3 ∧ d.aadLen > d.inLen) ∨ (d.op = 4 ∧ d.inLen < 8 + d.aadLen + v.tag)
      ∨ (d.op = 6 ∧ d.inLen < 8 + v.tag) then
    some (fail .descInvalid 0x0A)
  else x.tooSmall (if d.op = 5 then some (8 + v.tag) else none)

/-- The class of the session's engine for tag operations (R183). -/
def Job.retarget (x : Job) (y : Session) : Job :=
  if x.desc.op = 5 ∨ x.desc.op = 6 then
    { x with steps := [{ cls := some (if y.kind.hmac then .hse else .ste) }] }
  else x

/-- A family 0x20 job reads its session context: refused, or on with its engine known.
DEDUCED, log entry 69, unsafe. -/
def State.readSession (s : State) (j : Nat) (x : Job) : Option State :=
  match s.sessionBy x.slice x.desc.session with
  | none => none
  | some i =>
    if (s.session i).unread then some (s.contextLost j i)
    else match x.sessionRefusal (s.session i) with
    | some r => some (s.finish j r)
    | none => some ((s.cacheSession i).putJob j (x.retarget (s.session i)))

/-- INDEX of a create lies in the slice's blocks and names a FREE session (R184). -/
def State.createFits (s : State) (x : Job) : Bool :=
  let i := leAt x.block 12 4
  let (f, c) := s.sessionBlocks x.slice
  decide (f * 4096 ≤ i) && decide (i < (f + c) * 4096) && decide ((s.session i).st = .free)

/-- The job waits in KEYLOAD for its blob (R198, R476). -/
def State.awaitBlob (s : State) (j : Nat) (x : Job) : State :=
  s.putJob j { x with stage := .keyload, readyAt := s.el, waitUntil := s.waitLimit }

/-- The checked blob stays with the job and no key enters a slot: the public key of Classic McEliece, which an encapsulation
streams and REWRAP and DESTROY act on (R143, R443, R444). -/
def Job.keepsBlob (x : Job) (b : Bytes) : Bool :=
  (x.desc.fam = 7 && x.desc.op = 2) || ((x.desc.opc = 0x3050 || x.desc.opc = 0x3060) && (parseBlob b).mcePublic)

/-- REWRAP and DESTROY keep the bytes of the blob that they name. -/
def Job.withBlob (x : Job) (b : Bytes) : Job := if x.desc.opc = 0x3050 ∨ x.desc.opc = 0x3060 then { x with keyBlob := b } else x

/-- A blob of the slice's window that lies in a slot already: the job goes on with the key in its slot (R198, R433).
DESIGN CHOICE, log entry 89, unsafe. -/
def State.windowSlot (s : State) (j : Nat) (x : Job) (off : Nat) : Option State :=
  if s.groupsWait (s.blobRange x.slice off).1 (s.blobRange x.slice off).2 then none
  else match s.windowBlob x.slice off with
  | .error _ => none
  | .ok b => (s.sameBlob x.slice b).map fun i =>
    if !s.keyAlive (s.slot i) then s.finish j (fail .keyExpired)
    else if !x.accepts (s.slot i) then s.finish j (fail .keyPolicy)
    else ((s.putJob j (x.withBlob b)).touch i).keyTaken j i

/-- The job's key reference is followed (R90, R143, R198). -/
def State.followKey (s : State) (j : Nat) (x : Job) : State :=
  if x.key.isSome then s.toReady j
  else match keyForm x.desc.keyref with
  | .none => s.toReady j
  | .handle h => s.keyByHandle j x h
  | .window off =>
    match s.windowSlot j x off with
    | some s => s
    | none => s.awaitBlob j x
  | .host a => (s.awaitBlob j x).jobRead j x.slice a 64

/-- The last condition of HELD is cleared (R198). -/
def State.leaveHeld (s : State) (j : Nat) : State :=
  match s.job? j with
  | none => s
  | some x =>
    if x.desc.fam = 0x20 ∧ x.desc.op ≠ 0 then
      match s.readSession j x with
      | none => s.finish j (fail .keyState)
      | some s =>
        match s.job? j with
        | some x => if x.stage = .held then s.followKey j x else s
        | none => s
    else if x.desc.opc = 0x2000 && !s.createFits x then s.finish j (fail .keyState)
    else if x.desc.fam = 0x60 then
      if (x.desc.op = 1 ∨ x.desc.op = 2) ∧ s.stKey.isNone then s.finish j (fail .keyState)
      else match (if x.desc.op = 3 then x.tooSmall (some (64 * s.mp.ramAudit.length)) else none) with
      | some r => s.finish j r
      | none =>
        let x := { x with tariffs := s.mp.ramTariffs }
        (s.putJob j x).followKey j x
    else if x.desc.fam = 7 ∧ x.desc.op = 2 then
      -- the public key of Classic McEliece is named in the window only (R143)
      match keyForm x.desc.keyref with
      | .window _ => s.followKey j x
      | _ => s.finish j (fail .keyPolicy)
    else s.followKey j x

/-! The conditions of HELD (R185, R200, R232, R234, R238) -/

/-- A fence holds the job: its own, or that of an earlier job of its slice and protection class. -/
def State.fenced (s : State) (j : Nat) (x : Job) : Bool :=
  s.sch.jobs.any fun (i, y) =>
    decide (i < j) && !y.unadmitted && decide (y.slice = x.slice) && decide (y.prot = x.prot)
      && (x.desc.fence || y.desc.fence)

/-- The session a job names, by index. -/
def Job.sessionIndex (x : Job) : Option Nat :=
  if x.desc.fam ≠ 0x20 then none
  else if x.desc.op = 0 then some (leAt x.block 12 4)
  else some (x.desc.session % 2 ^ 20)

/-- A session operation whose context is not in the cache needs a context fetch: it is a plan job (R200). -/
def State.fetchesContext (s : State) (x : Job) : Bool :=
  x.desc.fam = 0x20 && x.desc.op ≠ 0 && !s.kmg.sessCache.contains (x.desc.session % 2 ^ 20)

/-- An earlier job on the same session is not done. -/
def State.sessionBusy (s : State) (j : Nat) (x : Job) : Bool :=
  x.sessionIndex.isSome && s.sch.jobs.any fun (i, y) =>
    decide (i < j) && decide (y.stage ≠ .done) && decide (y.slice = x.slice) && decide (y.sessionIndex = x.sessionIndex)

/-- The fetch of the job's session context waits for its group: the table of groups initialised out of order is full (R411). -/
def State.contextWaits (s : State) (x : Job) : Bool :=
  s.fetchesContext x && s.groupsWait (contextPlace (x.desc.session % 2 ^ 20)).1 256

/-- No condition of HELD is pending. -/
def State.conditionsClear (s : State) (j : Nat) (x : Job) : Bool :=
  x.notBefore.isNone && !x.waitFlags && !x.needScratch && !s.fenced j x && !s.sessionBusy j x && !s.contextWaits x

/-- The job leaves HELD if its conditions are clear. -/
def State.passOne (s : State) (j : Nat) : State :=
  match s.job? j with
  | some x => if x.stage = .held ∧ s.conditionsClear j x then s.leaveHeld j else s
  | none => s

/-- Every HELD job whose conditions are clear goes on, in order of admission; those of protection class first, whose requests
HDX issues ahead of the others' (R247). -/
def State.passHeld (s : State) : State :=
  ((s.sch.jobs.filter fun e => e.2.prot) ++ s.sch.jobs.filter fun e => !e.2.prot).foldl (fun (s : State) e => s.passOne e.1) s

/-! Consumption and admission (R85 to R99, R194 to R196, R215, R217, R229, R238, R239, R243) -/

/-- The part of a job that failed, as DETAIL codes it (R104). -/
def Part.code : Part → Nat
  | .input => 1 | .output => 2 | .block => 3 | .inList => 4 | .outList => 5 | .blob => 6

/-- A failed access of a slice is recorded (R60). -/
def State.accessFault (s : State) (n cause part qid : Nat) : State :=
  s.event 4 (srcSlice n) 2 n 0xFF (leBytes 1 cause ++ leBytes 1 part ++ leBytes 2 qid)

/-- DETAIL of BUFFER_FAULT. -/
def bufferDetail (c : HCause) (p : Part) : Nat := c.code * 16 + p.code

/-- What the checks of R89 and R99 give a descriptor. -/
inductive Admit where
  | done (r : Result) (failure : Option (Part × HCause))
  | enter (i : OpInfo) (ins outs : List (Nat × Nat))
deriving Repr

/-- A failed read of one of the parts ends the check with BUFFER_FAULT. -/
def failedRead (f : Option (Part × HCause)) (ps : List Part) : Option Admit :=
  match f with
  | some (p, c) => if ps.contains p then some (.done (fail .bufferFault (bufferDetail c p)) f) else none
  | none => none

/-- The checks of R89 in order, then the rights of R111 and the check of R99. -/
def State.checkDesc (s : State) (n q : Nat) (fd : FetchedDesc) : Admit :=
  let d := parseDesc fd.words
  match s.infoOf d with
  | none => .done (fail .opcUnsupported) none
  | some i =>
    if !s.offered n d i then .done (fail .opcUnsupported) none
    else match d.wordDetail i (s.sqProt n q) with
    | some k => .done (fail .descInvalid k) none
    | none =>
      let given := !i.handle && d.auxAddr ≠ 0
      let b := if given then fd.block.take (leAt fd.block 0 2) else []
      match failedRead fd.failure [.block] with
      | some a => a
      | none =>
        if given && !d.headerOk i b then .done (fail .descInvalid 0x10) none
        else match d.blockRes i n b with
        | .invalid k => .done (fail .descInvalid k) none
        | res =>
          match failedRead fd.failure [.inList, .outList] with
          | some a => a
          | none =>
            match bufferSegs d.sgl d.inAddr d.inLen fd.inList, d.outSegs fd.outList with
            | none, _ => .done (fail .descInvalid 0x11) none
            | some _, none => .done (fail .descInvalid 0x12) none
            | some ins, some outs =>
              if res = .policy then .done (fail .keyPolicy) none
              else match d.outLen i b with
              | some k =>
                if k > d.outCap then .done { status := .outTooSmall, need := k } none else .enter i ins outs
              | none => .enter i ins outs

/-- Requests that read `m` entries of a scatter list at `addr`: up to 16 entries each, none across a 4 KiB boundary
(R95). -/
def listReads : Nat → Nat → Nat → List (Nat × Nat)
  | 0, _, _ => []
  | fuel + 1, addr, m =>
    let k := min 16 ((4096 - addr % 4096) / 16)
    (addr, 16 * k) :: (if m ≤ k then [] else listReads fuel (addr + 16 * k) (m - k))

/-- Entries of a list up to the one with LAST, at most 256. -/
def listLength : Nat → Bytes → Nat
  | 0, _ => 0
  | n + 1, b => if b.length < 32 ∨ leAt b 12 4 % 2 = 1 then 1 else 1 + listLength n (b.drop 16)

/-- The requests that read the scatter list of a buffer of `len` bytes (R94, R95). -/
def bufferReads (sgl : Bool) (addr : Dword) (len : Nat) (list : Bytes) : List (Nat × Nat) :=
  if !sgl || len = 0 || addr.toNat % 16 ≠ 0 then [] else listReads 32 addr.toNat (listLength 256 list)

/-- What the part reads beside a descriptor to check it: the parameter block in its TOTAL bytes, and the scatter lists
where the block obeys its rules (R89, R93, R95). -/
def State.descReads (s : State) (n q : Nat) (fd : FetchedDesc) : List (Nat × Nat) :=
  let d := parseDesc fd.words
  match s.infoOf d with
  | none => []
  | some i =>
    if !s.offered n d i || (d.wordDetail i (s.sqProt n q)).isSome then []
    else
      let given := !i.handle && d.auxAddr ≠ 0
      let b := if given then fd.block.take (leAt fd.block 0 2) else []
      let own := if given then [(d.auxAddr.toNat, if d.headerOk i b then leAt fd.block 0 2 else 8)] else []
      if (given && !d.headerOk i b) || (failedRead fd.failure [.block]).isSome || (d.blockRes i n b).isInvalid then own
      else own ++ bufferReads d.sgl d.inAddr d.inLen fd.inList ++ bufferReads d.sgl d.outAddr d.outCap fd.outList

/-- The not-before time still to come (R238). -/
def notBeforeTime (us time : Nat) : Option Nat :=
  let k := (time + 2 ^ 32 - us % 2 ^ 32) % 2 ^ 32
  if k = 0 ∨ k ≥ 2 ^ 31 then none else some (us + k)

/-- Masking order of a job (R17, R92, R118, R243). -/
def State.orderOf (s : State) (d : Desc) (i : OpInfo) : Nat :=
  if !i.masked then 0
  else if d.maskord ≠ 0 then d.maskord
  else if s.profile = 0 then 2 else fld (s.reg .schProfile) 5 4

/-- The validation step of IMPORT and UNWRAP (R441, R683). -/
def Desc.validation (d : Desc) (b : Bytes) : Option Cls :=
  if d.opc = 0x3010 ∨ d.opc = 0x3030 then
    (if algFam (kmAlg b) = 1 then some .vce else if algFam (kmAlg b) = 8 then some .cle else none)
  else none

/-- The steps of the job's plan (R200). -/
def Desc.planSteps (d : Desc) (i : OpInfo) (b : Bytes) : List PStep :=
  let l := i.plan.map fun p => ({ cls := p.1, deps := p.2 } : PStep)
  match d.validation b with
  | some c => prepend c l
  | none => l

/-- The next number of the job table goes to `x`. DESIGN CHOICE, log entry 45, unsafe. -/
def State.addJob (s : State) (x : Job) : State :=
  { s with sch := { s.sch with jobs := mapInsert s.sch.jobs s.sch.nextJob x, nextJob := s.sch.nextJob + 1 } }

/-- A job that completes at consumption (R196, R228, R229). -/
def State.completeNow (s : State) (x : Job) (r : Result) : State :=
  let j := s.sch.nextJob
  (s.addJob { x with stage := .done, result := r, stamp := s.now, unadmitted := true }).takeRb j

/-- A descriptor that passes R89 is admitted; it goes on at once where no condition holds it (R198). -/
def State.admitJob (s : State) (x : Job) (i : OpInfo) (ins outs : List (Nat × Nat)) : State :=
  let d := x.desc
  let j := s.sch.nextJob
  let steps := d.planSteps i x.block
  let x := { x with
    order := s.orderOf d i, inSegs := ins, outSegs := outs, steps := steps, needScratch := decide (steps.length > 1) || s.fetchesContext x
    notBefore := if d.notBefore then notBeforeTime s.us d.time else none
    expiry := if d.deadline then some (s.us + d.time + 1) else none
    waitFlags := d.waitev }
  (s.addJob x).passOne j

/-- One descriptor is consumed (R196): HEAD moves, an entry is owed, and the job is refused, completes or is
admitted. -/
def State.consume (s : State) (n q : Nat) (fd : FetchedDesc) : State :=
  let d := parseDesc fd.words
  let full := fld (s.reg (.depth n)) 18 0 ≤ s.occupancy n
  let cq := s.cqOf n q
  let s := s.onSq n q fun x => { x with head := (x.head + 1) % s.sqSize n q }
  let s := s.onCq n cq fun c => { c with owed := c.owed + 1 }
  let s := s.onSlice n fun y => { y with lastSq := q }
  let x : Job := { slice := n, sq := q, cq := cq, desc := d, prot := d.prot && s.sqProt n q, sqProt := s.sqProt n q
                   admitted := s.el }
  if full then s.completeNow x (fail .refused)
  else
  let s := s.jobReads s.sch.nextJob n (s.descReads n q fd)
  match s.checkDesc n q fd with
  | .done r f =>
    let s := match f with
      | some (p, c) => s.accessFault n c.code p.code x.qid
      | none => s
    s.completeNow x r
  | .enter i ins outs =>
    let b := if !i.handle && d.auxAddr ≠ 0 then fd.block.take (leAt fd.block 0 2) else []
    s.admitJob { x with block := b } i ins outs

/-- The CQ of the SQ has room for one more entry (R86). DEDUCED, log entry 67, unsafe. -/
def State.cqRoom (s : State) (n q : Nat) : Bool :=
  (s.cq n q).unrel + (s.cq n q).owed < s.cqSize n q

/-- A lowered depth cap stops holding the slice once its occupancy lies below it (R217). -/
def State.capReleased (s : State) (n : Nat) : State :=
  if (s.slice n).capHold ∧ s.occupancy n < fld (s.reg (.depth n)) 18 0 then
    s.onSlice n fun x => { x with capHold := false }
  else s

/-- The conditions of R195 for the descriptor at HEAD. -/
def State.mayConsume (s : State) (n q : Nat) (d : Desc) : Bool :=
  let below := decide (s.occupancy n < fld (s.reg (.depth n)) 18 0)
  let ahead := d.ordered && s.sch.jobs.any fun (_, y) =>
    y.desc.ordered && decide (y.slice = n) && decide (y.desc.flow = d.flow)
  s.cqRoom n (s.cqOf n q) && decide (s.sch.jobs.length < 262144) && (!ahead || decide (s.rbUsed < 65536))
    && !(s.slice n).capHold && (below || fld (s.reg (.sqCfg n q)) 29 28 = 1)

/-- The SQ runs: its slice is ACTIVE, it is enabled and not stopped (R60, R82, R497). -/
def State.sqRuns (s : State) (n q : Nat) : Bool :=
  decide (s.sliceState n = .active) && s.sqEn n q && !(s.sq n q).err

/-- Descriptors that the next read covers: up to 16, not beyond the tail or the end of the ring (R85). -/
def State.descCount (s : State) (n q : Nat) : Nat :=
  let size := s.sqSize n q
  let h := (s.sq n q).head
  min 16 (min (((s.sq n q).tail + size - h) % size) (size - h))

/-- The next descriptor read of an SQ is issued, if there is something to read (R85). -/
def State.readDescs (s : State) (n q : Nat) : State :=
  let k := s.descCount n q
  if s.sqRuns n q && !(s.sq n q).reading && (s.sq n q).fetched.isEmpty && decide (k > 0) then
    let a := s.pair (.sqBase n q) + 64 * (s.sq n q).head
    (s.onSq n q fun x => { x with reading := true, readAt := s.el }).request (s.pasidOf n) a (64 * k)
      (.descRead n q (s.pasidOf n) a k)
  else s

end Sys2Proof.Machine
end

