-- ==== Sys2Proof/Machine/HostIf.lean ====
section
/-! DEFINITION. The host interface: doorbells and nudges, descriptor reads, failed accesses, the set-up of queues, the
gathering of completion entries, interrupt moderation (R52 to R105, R493, R654, R684). -/

namespace Sys2Proof.Machine

/-! Doorbells (R62 to R71) -/

/-- The doorbell page of slice `n` is read at all: the slice is ACTIVE, has an enabled SQ, and its reads are not
stopped (R60, R64, R497). DEDUCED, log entry 20, unsafe. -/
def State.dbRuns (s : State) (n : Nat) : Bool :=
  s.up && decide (s.sliceState n = .active) && ((List.range 16).any fun q => s.sqEn n q) && !(s.slice n).dbErr

/-- A doorbell read is issued, or one further read is noted while one is outstanding (R63, R71). The poll interval of R64
runs from the last read issued, a nudge's included. DESIGN CHOICE, log entry 86, unsafe. -/
def State.issueDb (s : State) (n : Nat) : State :=
  if (s.slice n).dbReading then s.onSlice n fun x => { x with dbAgain := true }
  else
    (s.onSlice n fun x => { x with dbReading := true, polled := s.el }).request (s.pasidOf n) (s.pair (.dbBase n)) 128
      (.doorbellRead n (s.pasidOf n) (s.pair (.dbBase n)))

/-- The poll interval of slice `n` in ns (R64). -/
def State.pollInterval (s : State) (n : Nat) : Nat :=
  let base := fld (s.reg .schPoll) 19 0
  if s.awakeEngines = 0 then fld (s.reg .schIdlePoll) 13 0 * 1000
  else if s.profile = 1 && (List.range 16).any fun q => s.sqEn n q && s.sqProt n q then min 500 base
  else base

/-- DOORBELL_POLL, R64: a poll of slice `n` falls due. -/
def execDoorbellPoll (n : Nat) (s : State) : Host.Outcome State Fault Refusal :=
  .next (if s.awake && s.dbRuns n && s.el ≥ (s.slice n).polled + s.pollInterval n then s.issueDb n else s)

/-- The slices that own the nudge window at a BAR2 offset (R68). -/
def nudgeOwners (offset : Nat) : List Nat :=
  ((List.range 64).map (· + 1) ++ [127]).filter fun n => n * 0x1000 % 0x40000 / 0x1000 = offset % 0x40000 / 0x1000

/-- A write into BAR2: the doorbell page of every slice that owns the window is read; nothing is stored (R69, R70). -/
def State.nudge (s : State) (offset : Nat) : State :=
  if s.up && (s.awake || s.pwr.st = .sleep) then
    (nudgeOwners offset).foldl (fun (s : State) (n : Nat) => if s.dbRuns n then s.issueDb n else s) s.wakeUp
  else s

/-- NUDGE, R69, R70. -/
def execNudge (offset : Nat) (s : State) : Host.Outcome State Fault Refusal := .next (s.nudge offset)

/-- The tail word of an enabled SQ is taken, or stops it (R62, R67). A queue that an error has stopped ignores its word.
DEDUCED, log entry 20, unsafe. DESIGN CHOICE, log entry 86, unsafe. -/
def State.takeTail (s : State) (n q : Nat) (w : Word) : State :=
  if !s.sqEn n q || (s.sq n q).err then s
  else if w.toNat ≥ s.sqSize n q then s.onSq n q fun x => { x with err := true, cause := .tailRange }
  else s.onSq n q fun x => { x with tail := w.toNat }

/-- The head word of an enabled CQ is taken, or stops it: it releases the entries from the head last read to its own
(R86, R102). An unchanged word releases nothing; a queue that an error has stopped ignores its word.
DEDUCED, log entries 20 and 67, unsafe. DESIGN CHOICE, log entry 86, unsafe. -/
def State.takeHead (s : State) (n q : Nat) (w : Word) : State :=
  if !s.cqEn n q || (s.cq n q).err then s
  else if w.toNat ≥ s.cqSize n q then s.onCq n q fun x => { x with err := true, cause := .headRange }
  else
    let k := (w.toNat + s.cqSize n q - (s.cq n q).head) % s.cqSize n q
    s.onCq n q fun x => { x with head := w.toNat, unrel := x.unrel - k, sent := x.sent.drop k }

/-- Descriptor reads of a slice: protection-class SQs first, then in turn after the SQ consumed last (R194). -/
def State.readQueues (s : State) (n : Nat) : State :=
  if s.schStopped then s
  else
    let order := (List.range 16).map fun i => ((s.slice n).lastSq + 1 + i) % 16
    (order.filter (s.sqProt n) ++ order.filter fun q => !s.sqProt n q).foldl (fun s q => s.readDescs n q) s

/-- DOORBELL_READ_DATA, R67, R71, R85, R102: the 32 words of the doorbell page arrive. -/
def execDoorbellReadData (n : Nat) (words : List Word) (s : State) : Host.Outcome State Fault Refusal :=
  .next (
    if !(s.slice n).dbReading then s
    else
      let again := (s.slice n).dbAgain
      let s := s.onSlice n fun x => { x with dbReading := false, dbAgain := false }
      let s := (List.range 16).foldl (fun (s : State) (q : Nat) =>
        (s.takeTail n q (dword words q)).takeHead n q (dword words (16 + q))) s
      let s := (s.capReleased n).readQueues n
      if again && s.dbRuns n then s.issueDb n else s)

/-- Nothing known keeps the part from consuming more of the ring. -/
def State.mayRead (s : State) (n q : Nat) : Bool :=
  s.cqRoom n (s.cqOf n q) && !(s.slice n).capHold && decide (s.sch.jobs.length < 262144)

/-- The slices and SQs in the turn in which the scheduler looks at them: by slice, and by SQ within a slice (R194). -/
def State.admitTurn (s : State) : List (Nat × Nat) :=
  let l := s.slicesPresent
  ((l.filter fun n => s.sch.lastSlice < n) ++ l.filter fun n => n ≤ s.sch.lastSlice).flatMap fun n =>
    (List.range 16).map fun i => (n, ((s.slice n).lastSq + 1 + i) % 16)

/-- The SQ whose next descriptor is admitted: one of protection class before any other, else the next in turn that may be
consumed (R194, R195). DESIGN CHOICE, log entry 54, unsafe. -/
def State.admitChoice (s : State) : Option (Nat × Nat × FetchedDesc) :=
  let l := s.admitTurn.filterMap fun (n, q) =>
    match (s.sq n q).fetched with
    | fd :: _ => if s.sqRuns n q && (s.capReleased n).mayConsume n q (parseDesc fd.words) then some (n, q, fd) else none
    | [] => none
  match l.find? fun c => s.sqProt c.1 c.2.1 with
  | some c => some c
  | none => l.head?

/-- Descriptors are admitted, 25 ns apart, as far as the time reached allows; those before elapsed time `t` are past
(R194). -/
def State.admitDue : Nat → State → Nat → State
  | 0, s, _ => s
  | fuel + 1, s, t =>
    let at_ := max s.sch.admitAt t
    if s.schStopped || !s.up || !s.awake || s.el < at_ then s
    else match s.admitChoice with
    | none => s
    | some (n, q, fd) =>
      let s := (s.capReleased n).onSq n q fun x => { x with fetched := x.fetched.drop 1 }
      let s := { s with sch := { s.sch with admitAt := at_ + 25, lastSlice := if s.sqProt n q then s.sch.lastSlice else n } }
      let s := s.consume n q fd
      (if s.mayRead n q then s.readDescs n q else s).admitDue fuel t

/-- DESCRIPTOR_ARRIVAL, R85, R89, R194, R195: the descriptors of an outstanding read arrive; they are consumed in their turn,
while they may be. -/
def execDescriptorArrival (n q : Nat) (descs : List FetchedDesc) (s : State) : Host.Outcome State Fault Refusal :=
  .next (
    if !(s.sq n q).reading then s
    else
      let k := s.descCount n q
      let s := s.onSq n q fun x => { x with reading := false, fetched := descs.take k }
      let s := s.admitDue 41 s.el
      if s.sch.jobs.length ≥ 262144 ∧ (s.sq n q).fetched ≠ [] then s.event 1 srcSch 5 else s)

/-! Failed accesses (R59 to R61, R684) -/

/-- A cause with which the completion of a read, or a write, fails (R59). A timeout comes with COMPLETION_TIMEOUT. -/
def failCause (c : HCause) (read : Bool) : Bool :=
  match c with
  | .urCa => true
  | .poisoned => read
  | _ => false

/-- The access reads host memory. -/
def Access.isRead : Access → Bool
  | .jobPart _ .output => false
  | .completion _ _ _ => false
  | _ => true

/-- The last `k` entries written into a CQ, from the failed one on, are taken back and held before every later one (R60).
DEDUCED, log entry 21, unsafe. -/
def Cq.takeBack (c : Cq) (size k : Nat) : Cq :=
  let n := c.sent.length - k
  { c with
    tail := (c.tail + size - k) % size, phase := if c.tail < k then !c.phase else c.phase
    owed := c.owed + k, unrel := c.unrel - k, unsig := c.unsig - k
    gather := c.sent.drop n ++ c.gather, sent := c.sent.take n }

/-- AER status bit of a failed access (R52, R59). PRESUMED, log entry 92, unsafe. -/
def HCause.aerBit : HCause → Nat
  | .timeout => 14 | .poisoned => 12 | _ => 31

/-- The error is logged in the AER capability and recorded (R52, R571 class 0x4 reason 3). -/
def State.logAer (s : State) (c : HCause) : State :=
  if c.aerBit = 31 then s
  else
    let aer := s.hif.aer ||| w32 (2 ^ c.aerBit)
    ({ s with hif := { s.hif with aer := aer } }).event 4 srcHif 3 0 0xFF (leBytes 4 aer.toNat)

/-- The consequence of a failed access (R60). The event of a doorbell read or a completion write, which have no SQ, names
16n, or 16n + the CQ's index, as its QID. DESIGN CHOICE, log entry 86, unsafe. -/
def State.accessFails (s : State) (a : Access) (c : HCause) : State :=
  match a with
  | .jobPart j p =>
    match s.job? j with
    | none => s
    | some x =>
      let r := fail .bufferFault (bufferDetail c p)
      if x.stage ≠ .done then (s.accessFault x.slice c.code p.code x.qid).finish j r
      else if p = .output ∧ (x.result.status = .ok ∨ x.result.status = .tagMismatch) then
        (s.accessFault x.slice c.code p.code x.qid).putJob j { x with result := r }
      else s
  | .descriptor n q =>
    if (s.sq n q).reading then
      (s.onSq n q fun x => { x with err := true, cause := c, reading := false }).accessFault n c.code 7 (16 * n + q)
    else s
  | .doorbell n =>
    if (s.slice n).dbReading then
      (s.onSlice n fun x => { x with dbErr := true, dbCause := c, dbReading := false, dbAgain := false }).accessFault n
        c.code 8 (16 * n)
    else s
  | .completion n q k =>
    if k = 0 || decide ((s.cq n q).sent.length < k) then s
    else
      (s.onCq n q fun x => { x.takeBack (s.cqSize n q) k with
        err := true, cause := if x.err then x.cause else c }).accessFault n c.code 9
        (16 * n + q)

/-- A request belongs to the access. -/
def State.requestOf (s : State) (a : Access) (o : Out) : Bool :=
  match a, o with
  | .jobPart j p, .jobRead i _ _ _ => decide (j = i) && decide (p ≠ .output)
  | .jobPart j .output, .memWrite q addr _ =>
    match s.job? j with
    | some x => decide (q = s.pasidOf x.slice) && x.outSegs.any fun g => decide (g.1 ≤ addr) && decide (addr < g.1 + g.2)
    | none => false
  | .descriptor n q, .descRead n' q' _ _ _ => decide (n = n') && decide (q = q')
  | .doorbell n, .doorbellRead n' _ _ => decide (n = n')
  | .completion n q _, .cqWrite n' q' _ _ _ => decide (n = n') && decide (q = q')
  | _, _ => false

/-- HOST_ACCESS_FAIL, R59, R60: the completion shows the failure, or a translation denied the request before it was issued
(R685). DESIGN CHOICE, log entry 86, unsafe. -/
def execHostAccessFail (a : Access) (c : HCause) (s : State) : Host.Outcome State Fault Refusal :=
  .next (
    if c = .translation then
      if s.hif.denied.any (s.requestOf a) then
        ({ s with hif := { s.hif with denied := s.hif.denied.filter fun o => !s.requestOf a o } }).accessFails a c
      else s
    else if failCause c a.isRead then (s.logAer c).accessFails a c
    else s)

/-- The time in ns after which a read completion times out, by the Completion Timeout Value (R684). -/
def timeoutNs (v : Nat) : Nat :=
  match v with
  | 0b0001 => 90000 | 0b0010 => 8000000 | 0b0101 => 50000000 | 0b0110 => 200000000
  | 0b1001 => 800000000 | 0b1010 => 3000000000 | 0b1101 => 12000000000 | 0b1110 => 60000000000
  | _ => 20000000

/-- Elapsed ns at which the read was issued; none where none is outstanding. -/
def State.issuedAt (s : State) (a : Access) : Option Nat :=
  match a with
  | .jobPart j _ => (s.job? j).bind Job.readAt
  | .descriptor n q => if (s.sq n q).reading then some (s.sq n q).readAt else none
  | .doorbell n => if (s.slice n).dbReading then some (s.slice n).polled else none
  | .completion _ _ _ => none

/-- COMPLETION_TIMEOUT, R684: a read whose completion did not come in time; none with Completion Timeout Disable. -/
def execCompletionTimeout (a : Access) (s : State) : Host.Outcome State Fault Refusal :=
  .next (
    if a.isRead && !s.hif.noTimeout && (s.issuedAt a).any fun t => decide (t + timeoutNs s.hif.timeout ≤ s.el) then
      (s.logAer .timeout).accessFails a .timeout
    else s)

/-- ATS_INVALIDATION, R57: the cached translations of the range are discarded and the request is completed. Requests are
issued as soon as they arise, so every one that used the range has been issued. DESIGN CHOICE, log entry 85, unsafe. -/
def execAtsInvalidation (pasid : Nat) (range : PageRange) (s : State) : Host.Outcome State Fault Refusal :=
  .next (
    if !s.up || !s.hif.linkUp then s
    else
      let s := s.wakeUp
      ({ s with hif := { s.hif with cache := s.hif.cache.filter fun t =>
        !(t.1 = pasid && decide (range.page ≤ t.2.1) && decide (t.2.1 < range.page + range.pages)) } }).emit .atsDone)

/-- A write of 1 to SLC_SQq_STATUS.ERR: the SQ resumes (R61). DEDUCED, log entry 67, unsafe. -/
def State.clearSq (s : State) (n q : Nat) : State :=
  if (s.sq n q).err then
    let s := s.onSq n q fun x => { x with err := false, cause := .none, fetched := [] }
    if s.schStopped then s else s.readDescs n q
  else s

def execSqErrClear (n q : Nat) (s : State) : Host.Outcome State Fault Refusal :=
  .next (if q < 16 then s.gate (Reg.sqStatus n q).addr fun s => s.clearSq n q else s)

/-- A write of 1 to SLC_CQq_STATUS.ERR: the CQ first writes its held entries (R61). DEDUCED, log entry 67, unsafe. -/
def State.clearCq (s : State) (n q : Nat) : State :=
  if (s.cq n q).err then
    let s := s.onCq n q fun x => { x with err := false, cause := .none }
    s.flushCq n q
  else s

def execCqErrClear (n q : Nat) (s : State) : Host.Outcome State Fault Refusal :=
  .next (if q < 16 then s.gate (Reg.cqStatus n q).addr fun s => s.clearCq n q else s)

/-- A write of 1 to SLC_DB_STATUS.ERR: polling and nudges resume (R61). -/
def State.clearDb (s : State) (n : Nat) : State :=
  if (s.slice n).dbErr then s.onSlice n fun x => { x with dbErr := false, dbCause := .none } else s

def execDbErrClear (n : Nat) (s : State) : Host.Outcome State Fault Refusal :=
  .next (s.gate (Reg.dbStatus n).addr fun s => s.clearDb n)

/-! The set-up of queues (R74 to R82, R493) -/

/-- `v` with the fields of `m` kept from the value in effect. -/
def frozen (old v m : Word) : Word := (v &&& ~~~m) ||| (old &&& m)

/-- A write of SLC_SQq_CFG (R74, R79, R81, R82, R493). Setting EN also clears ERR and CAUSE. DEDUCED, log entry 20, unsafe.
DEDUCED, log entry 68, unsafe. DESIGN CHOICE, log entry 86, unsafe. -/
def State.writeSqCfg (s : State) (n q : Nat) (v : Word) : State :=
  let r := Reg.sqCfg n q
  let v := v &&& r.mask
  let old := s.reg r
  let bad := s.configEvent (srcSlice n) n
  if s.reservedFor r v || (bitAt v 30 && !bitAt old 30 && !bitAt (s.reg (.perm n)) 0) then bad
  else if bitAt old 31 then
    let m : Word := 0x400F001F
    let s := if (v &&& m) ≠ (old &&& m) then bad else s
    let s := s.setReg r (frozen old v m)
    if bitAt v 31 then s else s.onSq n q fun x => { x with reading := false, fetched := [] }
  else if !bitAt v 31 then s.setReg r v
  else if s.sliceState n ≠ .active ∨ !s.cqEn n (fld v 19 16) then bad
  else (s.setReg r v).onSq n q fun _ => {}

/-- A write of SLC_CQq_CFG (R76, R79, R80, R82, R493). Setting EN also clears ERR and CAUSE. DEDUCED, log entry 68, unsafe.
DESIGN CHOICE, log entry 86, unsafe. -/
def State.writeCqCfg (s : State) (n q : Nat) (v : Word) : State :=
  let r := Reg.cqCfg n q
  let v := v &&& r.mask
  let old := s.reg r
  let bad := s.configEvent (srcSlice n) n
  if s.reservedFor r v then bad
  else if bitAt old 31 then
    if !bitAt v 31 && (List.range 16).any fun k => s.sqEn n k && s.cqOf n k = q then bad
    else
      let m : Word := 0x47FF001F
      (if (v &&& m) ≠ (old &&& m) then bad else s).setReg r (frozen old v m)
  else if !bitAt v 31 then s.setReg r v
  else if s.sliceState n ≠ .active then bad
  else (s.setReg r v).onCq n q fun x => { owed := x.owed, gather := x.gather, since := x.since }

/-- SQ_ENABLE, R81: a write of SLC_SQq_CFG with EN 1. -/
def execSqEnable (n q : Nat) (v : Word) (s : State) : Host.Outcome State Fault Refusal :=
  .next (if q < 16 ∧ bitAt v 31 then s.gate (Reg.sqCfg n q).addr fun s => s.writeSqCfg n q v else s)

/-- SQ_DISABLE, R82: a write with EN 0. -/
def execSqDisable (n q : Nat) (v : Word) (s : State) : Host.Outcome State Fault Refusal :=
  .next (if q < 16 ∧ !bitAt v 31 then s.gate (Reg.sqCfg n q).addr fun s => s.writeSqCfg n q v else s)

/-- CQ_ENABLE, R80. -/
def execCqEnable (n q : Nat) (v : Word) (s : State) : Host.Outcome State Fault Refusal :=
  .next (if q < 16 ∧ bitAt v 31 then s.gate (Reg.cqCfg n q).addr fun s => s.writeCqCfg n q v else s)

/-- CQ_DISABLE, R82. -/
def execCqDisable (n q : Nat) (v : Word) (s : State) : Host.Outcome State Fault Refusal :=
  .next (if q < 16 ∧ !bitAt v 31 then s.gate (Reg.cqCfg n q).addr fun s => s.writeCqCfg n q v else s)

/-- Any queue of the slice is enabled (R79). -/
def State.anyQueue (s : State) (n : Nat) : Bool := (List.range 16).any fun q => s.sqEn n q || s.cqEn n q

/-! Gathering and moderation (R101, R103) -/

/-- COALESCE_TIMEOUT, R101. -/
def execCoalesceTimeout (n q : Nat) (s : State) : Host.Outcome State Fault Refusal :=
  .next (
    if !(s.cq n q).gather.isEmpty && s.el ≥ (s.cq n q).since + fld (s.reg .hifCoal) 10 0 then s.flushCq n q
    else s)

/-- MODERATION_AGE, R103: the oldest unannounced entry reaches TIME_US. -/
def execModerationAge (n q : Nat) (s : State) : Host.Outcome State Fault Refusal :=
  .next (
    let md := s.reg (.cqMod n q)
    if fld md 9 0 ≠ 0 && s.el ≥ (s.cq n q).oldest + fld md 9 0 * 1000 then s.signal n q true else s)

/-- Entry `v` of the MSI-X table is unmasked; a message that waits for it is sent (R654). -/
def State.unmask (s : State) (v : Nat) : State :=
  let s := { s with hif := { s.hif with msix := mapUpd {} s.hif.msix v fun m => { m with mask := false } } }
  if mapGet false s.hif.pba v then
    ({ s with hif := { s.hif with pba := mapSet false s.hif.pba v false } }).message v
  else s

/-- VECTOR_UNMASK, R654. -/
def execVectorUnmask (v : Nat) (s : State) : Host.Outcome State Fault Refusal :=
  .next (if s.up && v < 2048 then s.unmask v else s)

end Sys2Proof.Machine
end

