-- ==== Sys2Proof/Machine/Pcie.lean ====
section
/-! DEFINITION. What the host reads outside BAR0: the MSI-X table and PBA of BAR4, BAR2, and the configuration space of the
function (R52, R53, R69, R654, R684). -/

namespace Sys2Proof.Machine

/-- A word of BAR4 (R53, R654): the table of 2,048 entries, the PBA, and 0 elsewhere. -/
def State.readMsix (s : State) (o : Nat) : Word :=
  let m := s.msix (o / 16)
  if o < 0x8000 then
    match o % 16 with
    | 0 => m.lo | 4 => m.hi | 8 => m.data | _ => w32 (bitOf m.mask)
  else if o < 0x8100 then
    w32 (((List.range 32).map fun i =>
      if mapGet false s.hif.pba (8 * (o - 0x8000) + i) then 2 ^ i else 0).sum)
  else 0

/-- Device Capabilities 2: ranges A to D and Completion Timeout Disable are supported (R684), and 10-bit tags (R52).
PRESUMED, log entry 92, unsafe. -/
def deviceCaps2 : Word := 0x3001F

/-- A word of configuration space at the model's offset `o`: identity and class code, Device Capabilities 2, Device
Control 2, ATS, the power state, AER status, the link, AER control with ECRC generation and checking, the invalidate queue
depth, for which 0 stands for 32, and Device Control with the largest payload of 512 and read request of 4,096 bytes. The
manual gives what they hold and no offsets.
DESIGN CHOICE, log entry 44, unsafe. -/
def State.readCfg (s : State) (o : Nat) : Word :=
  match o with
  | 0x00 => packWord [(if s.fuses.small then 0x3620 else 0x3640, 31, 16), (Config.vendorId, 15, 0)]
  | 0x08 => packWord [(0x108000, 31, 8)]
  | 0x40 => deviceCaps2
  | 0x44 => packWord [(bitOf s.hif.noTimeout, 4, 4), (s.hif.timeout, 3, 0)]
  | 0x48 => packWord [(bitOf s.hif.ats, 31, 31)]
  | 0x4C => if s.pwr.d3hot then 3 else 0
  | 0x50 => s.hif.aer
  | 0x54 => packWord [(s.hif.lanes, 9, 4), (s.hif.gen, 3, 0)]
  | 0x58 => packWord [(bitOf s.hif.ecrc, 8, 8), (1, 7, 7), (bitOf s.hif.ecrc, 6, 6), (1, 5, 5)]
  | 0x5C => packWord [(32 % 32, 4, 0)]
  | 0x60 => packWord [(5, 14, 12), (2, 7, 5)]
  | _ => 0

/-- A read outside BAR0: offsets from 0x400_0000 on stand for BAR4, from 0x500_0000 on for BAR2, whose reads return 0
(R69), from 0x600_0000 on for configuration space. DESIGN CHOICE, log entry 44, unsafe. -/
def State.farRead (s : State) (off : Nat) : Word :=
  if 0x6000000 ≤ off then s.readCfg (off - 0x6000000)
  else if 0x5000000 ≤ off then 0
  else s.readMsix (off - 0x4000000)

end Sys2Proof.Machine
end

