-- ==== Sys2Proof/Machine/Settings.lean ====
section
/-! DEFINITION. Settings images and the solstice commit (R620 to R635): STORE, DEFAULTS, the staging table, CHECK,
APPLY and DISCARD. -/

namespace Sys2Proof.Machine

/-! Stored images -/

/-- SYS_ID.PART. -/
def State.partNumber (s : State) : Nat := if s.fuses.small then 0x3620 else 0x3640

/-- Every setting of every present slice and block (R620, R622). -/
def State.settings (s : State) : List Reg := partSettings ++ s.slicesPresent.flatMap sliceSettings

/-- What STORE captures: the values in effect (R622). -/
def State.captured (s : State) : List (Nat × Word) := s.settings.map fun r => (r.addr, s.reg r)

/-- The body of an image: one entry of 8 bytes for each setting register (R623). -/
def Image.bodyBytes (i : Image) : Bytes := i.body.flatMap fun e => leBytes 4 e.1 ++ leBytes 4 e.2.toNat

/-- The image as it lies in NVM, VALID erased until it is programmed (R623). -/
def Image.bytes (i : Image) : Bytes :=
  let b := i.bodyBytes
  (if i.valid then leBytes 8 0xA55A5AA5C33C3CC3 else List.replicate 8 0xFF) ++ leBytes 4 0x53544553 ++ leBytes 4 i.gen
    ++ leBytes 2 i.part ++ leBytes 1 i.state ++ [1] ++ leBytes 4 (64 + b.length) ++ fit 32 i.digest ++ zeros 8 ++ b

/-- VALID, PART, STATE and DIGEST of an image are correct (R624). -/
def State.imageOk (s : State) (i : Image) : Bool :=
  i.valid && decide (i.part = s.partNumber) && decide (i.state = s.lcs.code)
    && decide (fit 32 i.digest = fit 32 (Config.sha3 2 i.bodyBytes))

/-- The blocks of an image place: the places alternate between copy A, blocks 0 to 31, and copy B (R623). -/
def placeBlocks (p : Nat) : List Nat := (List.range 4).map (32 * (p % 2) + 4 * (p / 2) + ·)

/-- Highest GEN of a valid image. -/
def State.topGen (s : State) : Nat := ((mapVals s.nvm.images).filter Image.valid).foldl (fun a i => max a i.gen) 0

/-- A STORE or DEFAULTS ends with RESULT `res` (R626, R635). -/
def State.endStore (s : State) (res : Nat) : State :=
  let s := { s with nvm := { s.nvm with op := none, result := res } }
  s.event 0xA srcNvm 2 0 0xFF (leBytes 4 res ++ leBytes 4 s.nvm.gen)

/-- The refusal of R626: 2 PFAIL, 3 BUSY, 0 none. -/
def State.storeRefusal (s : State) : Nat :=
  if s.pwr.pfail then 2
  else if s.lcs.trans.isSome || s.code.busy || s.storing then 3
  else 0

/-- An install of an owner key that is still running ends. -/
def State.endOwner (s : State) : State :=
  match s.nvm.op with
  | some (.ownerKey debug data ok) => ({ s with nvm := { s.nvm with op := none } }).ownerInstall debug data ok
  | _ => s

/-- Step 1 of R625: BUSY, and the values in effect are captured. -/
def State.startStore (s : State) : State :=
  let s := s.endOwner
  let body := s.captured
  { s with nvm := { s.nvm with
    op := some (.store (s.nvm.nextPlace % 16) (s.topGen + 1) s.lcs.code body 1) } }

/-- A store that runs when PFAIL_N falls stops at its current operation (R626). -/
def State.storeStops (s : State) : State :=
  match s.nvm.op with
  | some (.store ..) => s.endStore 2
  | _ => s

/-- The next step of a running store: erase, program, read back with VALID, end (R625). `ok` false: a block it needs
fails verification. DEDUCED, log entry 72, unsafe. -/
def State.storeStep (s : State) (ok : Bool) : State :=
  match s.nvm.op with
  | some (.store place gen code body step) =>
    let img : Image := { gen := gen, part := s.partNumber, state := code, body := body }
    let img : Image := { img with digest := fit 32 (Config.sha3 2 img.bodyBytes) }
    let blocks := placeBlocks place
    let at_ := fun (s : State) n => { s with nvm := { s.nvm with op := some (.store place gen code body n) } }
    if step ≥ 4 then ({ s with nvm := { s.nvm with gen := gen } }).endStore 1
    else if !ok || blocks.any (s.lostBlock 0) then s.endStore 4
    else if step = 1 then
      at_ ({ s with nvm := { s.nvm with
        images := mapErase s.nvm.images place, nextPlace := (place + 1) % 16 } }.eraseBlocks 0 blocks) 2
    else if step = 2 then at_ { s with nvm := { s.nvm with images := mapInsert s.nvm.images place img } } 3
    else at_ { s with nvm := { s.nvm with images := mapInsert s.nvm.images place { img with valid := true } } } 4
  | _ => s

/-- `n` steps of a running store. -/
def State.storeRun : Nat → State → Bool → State
  | 0, s, _ => s
  | n + 1, s, ok => (s.storeStep ok).storeRun n ok

/-- The command word of a shadowed register, if it holds the command `cmd`. -/
def State.commandIs (s : State) (r : Reg) (cmd : Nat) : Option (Word × State) :=
  match s.takeCommand r with
  | some (w, s') => if fld w 31 28 = cmd then some (w, s'.setReg r 0) else none
  | none => none

/-- STORE, R625, R626: an accepted command captures the settings and carries out `steps` of the five steps; with no
command waiting, a running store goes on by that many. -/
def execStore (steps : Nat) (ok : Bool) (s : State) : Host.Outcome State Fault Refusal :=
  .next (match s.commandIs .nvmCmd 1 with
    | some (_, s) =>
      let r := s.storeRefusal
      if r ≠ 0 then { s with nvm := { s.nvm with result := r } } else s.startStore.storeRun (steps - 1) ok
    | none => s.storeRun steps ok)

/-- DEFAULTS ends: every image place is erased; settings in effect keep their values (R627). -/
def State.eraseImages (s : State) : State :=
  let s := { s with nvm := { s.nvm with images := [], gen := 0 } }
  (s.eraseBlocks 0 (List.range 64)).endStore 1

/-- DEFAULTS, R627: refused as R626 refuses STORE; `now` also ends it. DEDUCED, log entry 72, unsafe. -/
def execDefaults (now : Bool) (s : State) : Host.Outcome State Fault Refusal :=
  .next (match s.commandIs .nvmCmd 2 with
    | some (_, s) =>
      let r := s.storeRefusal
      if r ≠ 0 then { s with nvm := { s.nvm with result := r } }
      else if now then s.endOwner.eraseImages
      else { s.endOwner with nvm := { s.endOwner.nvm with op := some .defaults } }
    | none => s)

/-! The solstice commit -/

/-- RESULT of SYS_COMMIT_STATUS takes a value. -/
def State.commitResult (s : State) (res : Nat) : State := { s with nvm := { s.nvm with cres := res } }

/-- The staging table is emptied; the state becomes IDLE. -/
def State.emptyStaging (s : State) : State :=
  { s with nvm := { s.nvm with staging := [], commit := .idle, storeAfter := false } }

/-- A write to a staged register (R19, R27, R621, R628): it enters the staging table, or is discarded with reason
CONFIG when its encoding is reserved, the commit is armed or the table has no room. DEDUCED, log entry 72, unsafe. -/
def State.stage (s : State) (r : Reg) (v : Word) : State :=
  let n := r.sliceOf.getD 0
  let v := v &&& r.mask
  if s.reservedFor r v then s.configEvent (blockSrc r.addr) n
  else if s.nvm.commit = .armed then s.configEvent srcSys
  else if (mapFind s.nvm.staging r.addr).isNone && s.nvm.staging.length ≥ 512 then s.configEvent srcSys
  else { s with nvm := { s.nvm with staging := mapInsert s.nvm.staging r.addr v, commit := .staged } }

/-- RWC_WRITE, R628. -/
def execRwcWrite (off : Nat) (v : Word) (s : State) : Host.Outcome State Fault Refusal :=
  .next (match regAt off with
    | some r =>
      if r.isRwc && (match r.sliceOf with | some n => s.present n || (1 ≤ n && n ≤ 64) || n = 127 | none => true) then
        s.gate off fun s => s.stage r v
      else s
    | none => s)

/-- The class fields of SCH_SLCn_CLASSCAP (R210). -/
def capFields (w : Word) : List (Cls × Nat) :=
  [(.vce, fld w 5 0), (.hse, fld w 12 8), (.cde, fld w 18 16), (.cle, fld w 22 20), (.ste, fld w 28 24)]

/-- A staged class cap has a field above the ACTIVE units of its class that differs from the value in effect (R630). -/
def State.capTooHigh (s : State) (off : Nat) (v : Word) : Bool :=
  match regAt off with
  | some (.classcap n) =>
    ((capFields v).zip (capFields (s.reg (.classcap n)))).any fun (a, b) =>
      a.2 ≠ b.2 && a.2 > s.activeUnits a.1
  | _ => false

/-- The tests of R630 in their order: 1 OK, 4 CLASS_CAP, 5 RESERVE. -/
def State.checkSet (s : State) : Nat :=
  if s.nvm.staging.any fun e => s.capTooHigh e.1 e.2 then 4
  else match mapFind s.nvm.staging Reg.schProfile.addr with
  | some p =>
    if fld p 1 0 = 1 && (fld p 10 8 ≥ s.activeUnits .vce || s.activeUnits .hse < 2 || s.activeUnits .ste < 2) then 5
    else 1
  | none => 1

/-- A failed CHECK or apply: STAGED, RESULT, and reason CHECK_FAIL (R632, R635). -/
def State.checkFails (s : State) (res : Nat) : State :=
  ({ s with nvm := { s.nvm with commit := .staged, cres := res } }).event 0xA srcSys 3 0 0xFF (leBytes 1 res)

/-- A depth cap that differs from the one `before` and lies below the occupancy of its slice holds consumption until occupancy
falls below it (R217). -/
def State.holdCaps (s before : State) : State :=
  s.slicesPresent.foldl (fun (s : State) (n : Nat) =>
    let cap := fld (s.reg (.depth n)) 18 0
    if cap ≠ fld (before.reg (.depth n)) 18 0 ∧ cap < s.occupancy n then s.onSlice n fun x => { x with capHold := true } else s) s

/-- When LATENCY is applied, the job staged on an engine that becomes reserved is READY again unless it is of protection
class (R244). -/
def State.clearReserved (s : State) (was : List Nat) : State :=
  allEngines.foldl (fun (s : State) (e : Nat) => if s.reserved e && !was.contains e then s.unstage e else s) s

/-- The staged values take effect and the table is emptied (R632, R633). -/
def State.takeStaged (s : State) : State :=
  let was := allEngines.filter s.reserved
  let before := s
  let s := s.nvm.staging.foldl (fun (s : State) (e : Nat × Word) =>
    match regAt e.1 with
    | some r => s.setReg r e.2
    | none => s) s
  ((s.emptyStaging.commitResult 1).holdCaps before).clearReserved was

/-- STORE follows the apply of a set, or is refused as R626 refuses it. -/
def State.storeFollows (s : State) : State :=
  let r := s.storeRefusal
  if r ≠ 0 then
    ({ s with nvm := { s.nvm with result := r } }).event 0xA srcNvm 2 0 0xFF (leBytes 4 r ++ leBytes 4 s.nvm.gen)
  else s.startStore

/-- Applies the staged set on this edge if it still passes (R632, R633). `timed`: APPLY_AT. -/
def State.applySet (s : State) (timed : Bool) : State :=
  let res := s.checkSet
  if res ≠ 1 then s.checkFails res
  else
    let count := s.nvm.staging.length
    let after := s.nvm.storeAfter
    let s := s.takeStaged
    let s := { s with sch := { s.sch with sources := 4 :: s.sch.sources } }
    let s := s.event 0xA srcSys 5 0 0xFF (leBytes 2 count ++ leBytes 1 (bitOf timed) ++ zeros 5 ++ leBytes 8 s.us)
    if after then s.storeFollows else s

/-- A command of SYS_COMMIT: refused ones leave the state unchanged and set RESULT (R629). In ARMED every command but
DISCARD returns ARMED; in IDLE every command returns EMPTY. DEDUCED, log entry 72, unsafe. -/
def State.commitCommand (s : State) (cmd : Nat) (f : Word → State → State) : State :=
  match s.commandIs .sysCommit cmd with
  | none => s
  | some (w, s) =>
    match s.nvm.commit with
    | .idle => s.commitResult 2
    | .armed => if cmd = 4 then f w s else s.commitResult 8
    | .staged => if cmd = 2 ∨ cmd = 3 then s.commitResult 3 else f w s
    | .checked => f w s

/-- CHECK, R630. -/
def execCheck (s : State) : Host.Outcome State Fault Refusal :=
  .next (s.commitCommand 1 fun _ s =>
    let res := s.checkSet
    if res = 1 then { s with nvm := { s.nvm with commit := .checked, cres := 1 } } else s.checkFails res)

/-- APPLY_NOW, R632. -/
def execApplyNow (s : State) : Host.Outcome State Fault Refusal :=
  .next (s.commitCommand 2 fun w s =>
    ({ s with nvm := { s.nvm with storeAfter := bitAt w 0 } }).applySet false)

/-- APPLY_AT, R631. DEDUCED, log entry 72, unsafe. -/
def execApplyAt (s : State) : Host.Outcome State Fault Refusal :=
  .next (s.commitCommand 3 fun w s =>
    let i := s.pair .commitAt
    if s.tim.st = .unset then s.commitResult 7
    else if i < s.us + 2 ∨ s.us + 2 ^ 40 < i then s.commitResult 6
    else
      ({ s with nvm := { s.nvm with commit := .armed, cres := 1, instant := i, storeAfter := bitAt w 0 } }).event
        0xA srcSys 4 0 0xFF (zeros 8 ++ leBytes 8 i))

/-- DISCARD, R629. -/
def execDiscard (s : State) : Host.Outcome State Fault Refusal :=
  .next (s.commitCommand 4 fun _ s => (s.emptyStaging.commitResult 1).event 0xA srcSys 6)

/-- An armed set whose instant has come is applied (R631, R632). -/
def State.commitDue (s : State) : State :=
  if s.nvm.commit = .armed ∧ s.nvm.instant ≤ s.us then s.applySet true else s

/-- COMMIT_INSTANT, R15, R632. -/
def execCommitInstant (s : State) : Host.Outcome State Fault Refusal :=
  .next (if s.onTick then s.commitDue else s)

end Sys2Proof.Machine
end

