-- ==== Sys2Proof/Machine/Packages.lean ====
section
/-! DEFINITION. Code packages (R381 to R390): their layout, the checks of an install and of a start, loading, and the
commands INSTALL and REMOVE. -/

namespace Sys2Proof.Machine

/-! Layout (R381 to R384) -/

/-- A section entry (R382). -/
structure Section where
  dest  : Nat
  start : Nat
  count : Nat
  off   : Nat
  clean : Bool
deriving DecidableEq, Repr

/-- Bytes of one element in the image; that of a DEST the table does not list is taken as 1. -/
def elemSize (dest : Nat) : Nat :=
  match dest with
  | 0 | 1 => 5 | 2 => 2 | 3 => 4 | _ => 1

/-- Fields of the header (R381). -/
def pkgType (b : Bytes) : Nat := leAt b 5 1
def pkgVersion (b : Bytes) : Nat := leAt b 8 4
def pkgSects (b : Bytes) : Nat := leAt b 16 1
def pkgImageLen (b : Bytes) : Nat := leAt b 12 4
def pkgDigest (b : Bytes) : Bytes := cut b 32 32

/-- Where the image begins. -/
def pkgImageAt (b : Bytes) : Nat := 64 + 16 * pkgSects b

def pkgImage (b : Bytes) : Bytes := cut b (pkgImageAt b) (pkgImageLen b)

/-- What the signature covers, and the signature (R384). -/
def pkgSigned (b : Bytes) : Bytes := b.take (pkgImageAt b + pkgImageLen b)
def pkgSignature (b : Bytes) : Bytes := b.drop (pkgImageAt b + pkgImageLen b)

def pkgSections (b : Bytes) : List Section :=
  (List.range (pkgSects b)).map fun i =>
    let o := 64 + 16 * i
    { dest := leAt b o 1, start := leAt b (o + 4) 4, count := leAt b (o + 8) 4, off := leAt b (o + 12) 4
      clean := zeroAt b (o + 1) (o + 4) }

/-- Signature length of a type (R384). -/
def pkgSigLen (type_ : Nat) : Nat := if type_ = 5 then 3309 else 4627

/-- The elements of a section. -/
def Section.elems (c : Section) (b : Bytes) : List Nat :=
  (List.range c.count).map fun i => leAt b (pkgImageAt b + c.off + elemSize c.dest * i) (elemSize c.dest)

/-- Ranges (first, length) of which no two meet. -/
def disjoint : List (Nat × Nat) → Bool
  | [] => true
  | a :: l => l.all (fun b => a.1 + a.2 ≤ b.1 || b.1 + b.2 ≤ a.1 || a.2 = 0 || b.2 = 0) && disjoint l

/-! The checks (R386, R389, R507) -/

/-- An element as its encoding asks: kernel words have bits [39:36] zero, control words their parity (R359, R382). -/
def Section.elemsOk (c : Section) (b : Bytes) : Bool :=
  if c.dest = 0 then (c.elems b).all fun w => w < 2 ^ 36
  else if c.dest = 1 then (c.elems b).all fun w => parityOk (BitVec.ofNat 40 w)
  else true

/-- The form of a package of `len` bytes: what BAD_FORMAT covers. DEDUCED, log entry 33, unsafe. -/
def pkgForm (b : Bytes) : Bool :=
  let l := pkgSections b
  let t := pkgType b
  leAt b 0 4 = 0x4B504C54 && leAt b 4 1 = 1 && 1 ≤ t && t ≤ 5 && [0, 0x3640, 0x3620].contains (leAt b 6 2)
    && 1 ≤ pkgVersion b && 1 ≤ pkgSects b && pkgSects b ≤ 16 && zeroAt b 17 32
    && b.length = pkgImageAt b + pkgImageLen b + pkgSigLen t && b.length ≤ pkgSlot t
    && l.all (fun c => c.clean && decide (c.off + elemSize c.dest * c.count ≤ pkgImageLen b))
    && disjoint (l.map fun c => (c.off, elemSize c.dest * c.count))
    && (List.range 256).all (fun d => disjoint ((l.filter fun c => c.dest = d).map fun c => (c.start, c.count)))
    && l.all (fun c => c.elemsOk b && (c.dest ≠ 5 || (c.start = 0 && c.count = 4544)))

/-- Every element of the section lies in [lo, hi]. -/
def Section.within (c : Section) (lo hi : Nat) : Bool := lo ≤ c.start && c.start + c.count ≤ hi + 1

/-- The addresses that a VCE_PATCH package gives: those of its decode entries lie in 0x0000 to 0x4FFF, the patch addresses of
its match entries in 0x4000 to 0x4FFF and their ROM addresses in ROM (R368, R369). -/
def Section.patchOk (c : Section) (b : Bytes) : Bool :=
  match c.dest with
  | 2 => (c.elems b).all fun w => w % 2 ^ 15 ≤ 0x4FFF
  | 3 => (c.elems b).all fun w => 0x4000 ≤ w / 2 ^ 16 % 2 ^ 15 && w / 2 ^ 16 % 2 ^ 15 ≤ 0x4FFF && w % 2 ^ 15 < 0x4000
  | _ => true

/-- The destinations that a type may load (R383). -/
def Section.allowed (c : Section) (type_ : Nat) (im : Bool) : Bool :=
  match type_, c.dest with
  | 1, 4 => c.within 0 0xFFFF
  | 2, 1 => c.within 0x4000 0x4FFF
  | 2, 2 => c.within 0 0xDF
  | 2, 3 => c.within 0 15
  | 3, 0 => c.within 0 0x2BFF
  | 4, 0 => c.within 0x2C00 0x2FFF
  | 4, 5 => true
  | 5, 0 => c.within (kernelRange .customer im).1 0x3FFF
  | 5, 1 => c.within 0x5000 0x5FFF
  | 5, 2 => c.within 0xE0 0xFF
  | _, _ => false

/-- A micro-operation that the customer window may hold (R363, R364, R389): a major allowed there, no reserved VOP, FN,
COND or selector, and targets in the window. DEDUCED, log entry 33, unsafe. -/
def customerMicro (w : Nat) : Bool :=
  let f := BitVec.ofNat 30 w
  let sel := fun (hi lo : Nat) => decide (mb f hi lo ≤ 0x16)
  let dst := decide (mb f 29 25 < 16)
  let inWin := 0x5000 ≤ mb f 14 0 && mb f 14 0 ≤ 0x5FFF
  match w / 2 ^ 30 % 64 with
  | 0x00 | 0x07 | 0x0A | 0x0B | 0x11 | 0x18 => true
  | 0x01 => dst && sel 24 20 && sel 19 15 && mb f 3 0 ≤ 7
  | 0x02 => dst && sel 24 20 && mb f 19 16 ≤ 7
  | 0x03 | 0x04 => dst
  | 0x05 => dst && sel 24 20
  | 0x06 => sel 24 20 && sel 19 15
  | 0x08 => mb f 29 26 ≤ 6 && sel 25 21 && sel 20 16 && inWin
  | 0x09 => inWin
  | 0x10 => (vop (mb f 29 24 + 0x20)).isSome && sel 15 11 && sel 10 6 && sel 5 1
  | 0x12 => sel 29 25 && sel 24 20
  | 0x16 => sel 24 20 && mb f 19 14 ≤ 7
  | 0x17 => true
  | _ => false

/-- The word at 0x5FFF ends a routine: BR ALWAYS, RET or NEXT. -/
def endsRoutine (w : Nat) : Bool :=
  let m := w / 2 ^ 30 % 64
  m = 0x0A || m = 0x0B || (m = 0x08 && w / 2 ^ 26 % 16 = 0)

/-- An entry word that the table of R349 takes, or one with VALID 0. -/
def entryWordOk (w : Nat) (im : Bool) : Bool :=
  let (lo, hi) := kernelRange .customer im
  w / 2 ^ 35 % 2 = 0 || (w / 2 ^ 28 % 32 ≤ 20 && w / 2 ^ 26 % 4 = 0 && w / 2 ^ 14 % 256 = 0 && lo ≤ w % 2 ^ 14 && w % 2 ^ 14 ≤ hi)

/-- The rules of R389 for one section. -/
def Section.customerOk (c : Section) (b : Bytes) (im : Bool) : Bool :=
  let l := (List.range c.count).zip (c.elems b)
  match c.dest with
  | 0 => l.all fun (i, w) => c.start + i < 0x3FC0 || entryWordOk w im
  | 1 => l.all fun (i, w) => customerMicro w && (c.start + i ≠ 0x5FFF || endsRoutine w)
  | 2 => l.all fun (_, w) => w / 2 ^ 15 = 1 && 0x5000 ≤ w % 2 ^ 15 && w % 2 ^ 15 ≤ 0x5FFF
  | _ => false

/-- The key that signs packages of a type (R383): none installed, none. -/
def State.signer (s : State) (type_ : Nat) : Bytes :=
  match type_ with
  | 4 => if s.mpInService then s.mp.authKey else []
  | 5 => s.lcs.codeKey
  | _ => Config.vendorKey 0

/-- The signature of a package verifies (R384). -/
def State.pkgVerifies (s : State) (b : Bytes) : Bool :=
  Config.mldsaVerify (if pkgType b = 5 then 6 else 8) (s.signer (pkgType b))
    (pureMessage (ascii "TRL-PKG") (pkgSigned b)) (pkgSignature b)

/-- The state takes packages of the type. -/
def State.pkgState (s : State) (type_ : Nat) : Bool :=
  !s.ended && (type_ ≠ 5 || s.lcs.code = 5 || s.lcs.code = 6)

/-- The digest of a package is that of its image. -/
def pkgDigestOk (b : Bytes) : Bool := fit 32 (Config.sha3 2 (pkgImage b)) = pkgDigest b

/-- The package breaks no rule of R383 and R389 on what it loads. DEDUCED, log entry 33, unsafe. -/
def State.pkgRange (s : State) (b : Bytes) : Bool :=
  (pkgSections b).all fun c => c.allowed (pkgType b) s.mpInService && (pkgType b ≠ 2 || c.patchOk b)
def State.pkgRules (s : State) (b : Bytes) : Bool :=
  pkgType b ≠ 5 || (pkgSections b).all fun c => c.customerOk b s.mpInService

/-- The checks of R386 in their order; 0 passes. DESIGN CHOICE, log entry 32, unsafe. -/
def State.pkgCheck (s : State) (b : Bytes) : Nat :=
  let t := pkgType b
  if b.length ≠ fld (s.reg .pkgLen) 20 0 || !pkgForm b then 1
  else if leAt b 6 2 ≠ 0 ∧ leAt b 6 2 ≠ s.partNumber then 2
  else if (t = 4 ∨ t = 5) ∧ s.signer t = [] then 3
  else if !s.pkgState t then 4
  else if !pkgDigestOk b then 5
  else if !s.pkgVerifies b then 6
  else if pkgVersion b ≤ mapGet 0 s.code.highest t then 7
  else if !s.pkgRange b then 8
  else if !s.pkgRules b then 9
  else 0

/-! The commands (R386, R387) -/

/-- The pending slot of a type can be programmed: NVM has lost none of its blocks (R643). -/
def State.slotWhole (s : State) (type_ : Nat) : Bool := !(slotBlocks type_ (s.pendingSide type_)).any (s.lostBlock 5)

/-- The programming of a package that passes every check begins: the pending slot of its type is erased, its valid mark
with it, so that a loss of power leaves it ignored (R386, R387). DESIGN CHOICE, log entry 76, unsafe. -/
def State.installBegin (s : State) (data : Option Bytes) : State :=
  match data with
  | none => s
  | some b =>
    let t := pkgType b
    if s.pkgCheck b ≠ 0 then s
    else ({ s with code := { s.code with pending := mapErase s.code.pending t } }).eraseBlocks 5 (slotBlocks t (s.pendingSide t))

/-- An install ends (R386): on success the package lies in the pending slot of its type, whose valid mark is programmed
last. -/
def State.installEnd (s : State) (data : Option Bytes) (ok : Bool) : State :=
  let t := match data with | some b => pkgType b % 16 | none => 0
  let ends := fun (s : State) (res : Nat) => { s with code := { s.code with busy := false, result := res, type_ := t } }
  match data with
  | none => ends s 1
  | some b =>
    match s.pkgCheck b with
    | 0 =>
      if !ok || !s.slotWhole (pkgType b) then ends s 0xA
      else
        let s := ends s 0
        { s with code := { s.code with
          pending := mapInsert s.code.pending (pkgType b) { version := pkgVersion b, bytes := b }
          highest := mapInsert s.code.highest (pkgType b) (pkgVersion b) } }
    | res => ends s res

/-- INSTALL, R386: `data` is what HDX reads at NVM_PKG_ADDR, none where the read fails; `ok` false: programming fails;
`now` also ends it. DESIGN CHOICE, log entry 60, safe. -/
def execInstall (data : Option Bytes) (ok now : Bool) (s : State) : Host.Outcome State Fault Refusal :=
  .next (match s.commandIs .pkgCmd 1 with
    | some (_, s) =>
      let s := (s.stewardRead (s.pair .pkgAddr) (s.reg .pkgLen).toNat).installBegin data
      if s.endsNow now then s.installEnd data ok
      else { s with code := { s.code with busy := true }, nvm := { s.nvm with op := some (.install data ok) } }
    | none => s)

/-- REMOVE, R387: the CUSTOMER packages are erased at the next reset. DESIGN CHOICE, log entry 34, unsafe. -/
def execRemovePackage (s : State) : Host.Outcome State Fault Refusal :=
  .next (match s.commandIs .pkgCmd 2 with
    | some (_, s) => { s with code := { s.code with removeAt := true, result := 0, type_ := 5 } }
    | none => s)

/-! Loading at a start (R388) -/

/-- The elements of a section, stored as `f` says, enter a map at their addresses. -/
def Section.into {n : Nat} (c : Section) (b : Bytes) (m : SMap (BitVec n)) (f : Nat → Nat := id) : SMap (BitVec n) :=
  ((List.range c.count).zip (c.elems b)).foldl (fun (m : SMap (BitVec n)) (e : Nat × Nat) =>
    mapInsert m (c.start + e.1) (BitVec.ofNat n (f e.2))) m

/-- One section is loaded into every VCE; steward RAM and metrology data lie with the steward. -/
def Code.loadSection (b : Bytes) (k : Code) (c : Section) : Code :=
  match c.dest with
  | 0 => { k with kernel := c.into b k.kernel }
  | 1 => { k with control := c.into b k.control }
  | 2 => { k with decode := c.into b k.decode (storedEntry 16) }
  | 3 => { k with match_ := c.into b k.match_ (storedEntry 32) }
  | _ => k

/-- The active package of a type passes its check at a start (R388): its digest, its signature, and for CUSTOMER the
state and the rules. -/
def State.pkgStarts (s : State) (b : Bytes) : Bool :=
  pkgDigestOk b && s.signer (pkgType b) ≠ [] && s.pkgVerifies b
    && (pkgType b ≠ 5 || (s.pkgState 5 && s.pkgRange b && s.pkgRules b))

/-- The active package of type `t` is checked and loaded, or a configuration event is recorded. -/
def State.loadPackage (s : State) (t : Nat) : State :=
  match mapFind s.code.active t with
  | none => s
  | some p =>
    if s.pkgStarts p.bytes then
      { s with code := { (pkgSections p.bytes).foldl (Code.loadSection p.bytes) s.code with
          loaded := s.code.loaded ++ [t] } }
    else s.configEvent srcNvm

end Sys2Proof.Machine
end

