-- ==== Sys2Proof/Machine/Partition.lean ====
section
/-! DEFINITION. The sealed metrology partition (R503 to R515, R520 to R522): the audit log, the metrology data of the
active package, and the commands of the MP block. -/

namespace Sys2Proof.Machine

/-! The audit log (R512, R513) -/

/-- The 64 bytes of an audit entry. -/
def AuditEntry.bytes (a : AuditEntry) : Bytes :=
  leBytes 8 0xA55A5AA5C33C3CC3 ++ leBytes 4 a.seq ++ leBytes 1 a.kind ++ zeros 3 ++ leBytes 8 a.time ++ leBytes 4 a.old
    ++ leBytes 4 a.new ++ fit 32 a.digest

/-- SHA3-256 of a byte string. -/
def digest32 (b : Bytes) : Bytes := fit 32 (Config.sha3 2 b)

/-- The copies in the metrology SRAM region follow what NVM holds (R504). -/
def State.copyRegion (s : State) : State :=
  { s with mp := { s.mp with ramTariffs := s.mp.tariffs, ramAudit := s.mp.audit } }

/-- The next audit entry is programmed, then copied, and recorded; the entry that fills the log for changes is recorded
too. DEDUCED, log entry 35, unsafe. -/
def State.audit (s : State) (kind old new : Nat) (digest : Bytes) : State :=
  let seq := s.mp.audit.length + 1
  let was := s.logFull
  let a : AuditEntry := { seq := seq, kind := kind, time := s.now, old := old, new := new, digest := digest }
  let s := { s with mp := { s.mp with audit := s.mp.audit ++ [a] } }.copyRegion
  let s := s.event 0xC srcMp 0 0 0xFF (leBytes 1 kind ++ zeros 3 ++ leBytes 4 seq ++ leBytes 4 new)
  if s.logFull && !was then s.event 0xC srcMp 2 else s

/-! Commands of the MP block (R509 to R511, R521, R522) -/

/-- A command of MP_CMD ends with RESULT `res`. -/
def State.mpEnd (s : State) (res : Nat) : State := { s with mp := { s.mp with busy := false, op := none, result := res } }

/-- MP_LEN. -/
def State.mpLength (s : State) : Nat := fld (s.reg .mpLen) 11 0

/-- The authority key is installed (R509). DESIGN CHOICE, log entry 32, unsafe. DEDUCED, log entry 35, unsafe. -/
def State.authorityEnd (s : State) (data : Option Bytes) (ok : Bool) : State :=
  if (s.lcs.code ≠ 3 ∧ s.lcs.code ≠ 5) ∨ s.mp.authKey ≠ [] then s.mpEnd 2
  else match data with
  | some k =>
    if s.mpLength ≠ 2592 ∨ k.length ≠ 2592 then s.mpEnd 1
    else if !ok then s.mpEnd 7
    else { s.mpEnd 0 with mp := { (s.mpEnd 0).mp with authKey := k } }
  | none => s.mpEnd 1

/-- Fields of a tariff table (R510). -/
def tariffVersion (t : Bytes) : Nat := leAt t 4 4
def tariffActivate (t : Bytes) : Nat := leAt t 8 8
def tariffOffset (t : Bytes) : Nat := leAt t 16 4
def tariffBands (t : Bytes) : Nat := leAt t 20 4

/-- START_S, IMPORT_PRICE and EXPORT_PRICE of band `b`. -/
def tariffBand (t : Bytes) (b : Nat) : Nat × Nat × Nat :=
  (leAt t (32 + 16 * b) 4, leAt t (36 + 16 * b) 4, leAt t (40 + 16 * b) 4)

/-- The rules of R510 for the 160 bytes of a table, its VERSION apart. -/
def tariffForm (t : Bytes) : Bool :=
  let n := tariffBands t
  leAt t 0 4 = 0x54464154 && tariffOffset t < 86400 && 1 ≤ n && n ≤ 8 && zeroAt t 24 32 && (tariffBand t 0).1 = 0
    && (List.range 8).all fun b =>
      if b < n then
        (tariffBand t b).1 < 86400 && zeroAt t (44 + 16 * b) (48 + 16 * b)
          && (b = 0 || (tariffBand t (b - 1)).1 < (tariffBand t b).1)
      else zeroAt t (32 + 16 * b) (48 + 16 * b)

/-- Puts a table into the history: the four with the highest VERSION, highest first. -/
def keepTariff (l : List Bytes) (t : Bytes) : List Bytes := (t :: l).take 4

/-- A tariff table is checked in the order of R521 and, with its audit entry, in force.
DESIGN CHOICE, log entry 32, unsafe. -/
def State.tariffEnd (s : State) (data : Option Bytes) (ok : Bool) : State :=
  let t := (data.getD []).take 160
  let sig := (data.getD []).drop 160
  if !s.code.loaded.contains 4 then s.mpEnd 6
  else if s.mpLength ≠ 3469 ∨ (data.getD []).length ≠ 3469 ∨ !tariffForm t then s.mpEnd 1
  else if !Config.mldsaVerify 6 s.mp.tariffKey (pureMessage (ascii "TRL-MTT") t) sig then s.mpEnd 3
  else if s.mp.tariffs ≠ [] ∧ tariffVersion t ≤ s.mp.topTariff then s.mpEnd 4
  else if s.logFull then s.mpEnd 5
  else if !ok then s.mpEnd 7
  else
    let old := s.mp.topTariff
    let s := { s with mp := { s.mp with tariffs := keepTariff s.mp.tariffs t, topTariff := tariffVersion t } }
    (s.audit 2 old (tariffVersion t) (digest32 t)).mpEnd 0

/-- The SEPARATED entry, then the separation fuse (R522). DEDUCED, log entry 35, unsafe. -/
def State.separateEnd (s : State) (ok : Bool) : State :=
  if s.lcs.code ≠ 5 ∨ s.pwr.pfail then s.mpEnd 2
  else if s.mp.sepFuse then s.mpEnd 0
  else if !ok then s.mpEnd 7
  else
    let s := s.audit 5 0 0 []
    { s with mp := { s.mp with sepFuse := true } }.mpEnd 0

/-- A command of MP_CMD starts, or starts and ends. An install reads MP_LEN bytes at MP_ADDR (R509, R511); SEPARATE while
PFAIL_N is low returns STATE at once (R521). -/
def State.mpCommand (s : State) (cmd : Nat) (now : Bool) (op : MpOp) (f : State → State) : State :=
  match s.commandIs .mpCmd cmd with
  | some (_, s) =>
    if !s.mpInService then s
    else
    let s := if cmd = 3 then s else s.stewardRead (s.pair .mpAddr) s.mpLength
    if (now && !s.pwr.pfail) || (decide (cmd = 3) && s.pwr.pfail) then f s
    else { s with mp := { s.mp with busy := true, op := some op } }
  | none => s

/-- INSTALL_AUTHORITY, R509, R521: `data` is what HDX reads at MP_ADDR, none where the read fails; `ok` false:
programming fails; `now` also ends it. -/
def execInstallAuthority (data : Option Bytes) (ok now : Bool) (s : State) : Host.Outcome State Fault Refusal :=
  .next (s.mpCommand 1 now (.authority data ok) fun s => s.authorityEnd data ok)

/-- LOAD_TARIFF, R511, R521. -/
def execLoadTariff (data : Option Bytes) (ok now : Bool) (s : State) : Host.Outcome State Fault Refusal :=
  .next (s.mpCommand 2 now (.tariff data ok) fun s => s.tariffEnd data ok)

/-- SEPARATE, R521, R522. -/
def execSeparate (ok now : Bool) (s : State) : Host.Outcome State Fault Refusal :=
  .next (s.mpCommand 3 now (.separate ok) fun s => s.separateEnd ok)

/-! At a start (R506 to R509, R514, R515, R522) -/

/-- The metrology data of a package (R507): TARIFF_KEY and SUCCESSOR. -/
def pkgMetrology (b : Bytes) : Bytes × Bytes :=
  match (pkgSections b).find? fun c => c.dest = 5 with
  | some c =>
    let d := cut b (pkgImageAt b + c.off) 4544
    (d.take 1952, d.drop 1952)
  | none => ([], [])

/-- A pending METROLOGY package becomes active with its audit entry, and its SUCCESSOR with its own (R508, R509); with a
full log it stays pending. DEDUCED, log entry 35, unsafe. -/
def State.activateMetrology (s : State) (p : Package) : State :=
  if s.logFull then s.event 0xC srcMp 1
  else
    let old := ((mapFind s.code.active 4).map Package.version).getD 0
    let s := s.audit 1 old p.version (pkgDigest p.bytes)
    let s := s.switchPackage 4
    let next := (pkgMetrology p.bytes).2
    if next = [] ∨ next.all (· = 0) then s
    else
      let s := { s with mp := { s.mp with authKey := next } }
      if s.logFull then s else s.audit 3 0 0 (digest32 next)

/-- Pending packages become active, and a REMOVE erases the CUSTOMER packages (R387, R508). -/
def State.activatePackages (s : State) : State :=
  let s := [1, 2, 3, 5].foldl (fun (s : State) (t : Nat) => s.switchPackage t) s
  let s := match mapFind s.code.pending 4 with
    | some p => if s.mpInService then s.activateMetrology p else s
    | none => s
  if s.code.removeAt then
    let s := s.erasePackages 5
    { s with code := { s.code with removeAt := false } }
  else s

/-- What the partition takes from a loaded METROLOGY package: its identification and the tariff key; without one both read 0
(R506, R507). -/
def State.openPartition (s : State) : State :=
  match mapFind s.code.active 4 with
  | some p =>
    if s.code.loaded.contains 4 then
      { s with mp := { s.mp with
        swVer := p.version, swDigest := pkgDigest p.bytes, tariffKey := (pkgMetrology p.bytes).1 } }
    else { s with mp := { s.mp with swVer := 0, swDigest := [], tariffKey := [] } }
  | none => { s with mp := { s.mp with swVer := 0, swDigest := [], tariffKey := [] } }

/-- A statement key is generated in PROVISION and FIELD when a METROLOGY package is active, the state has none, the log has
room for its entry, and KEY and the instance of slice 127 can make it; its entry is programmed before its blob (R513,
R514). DEDUCED, log entry 35, unsafe. -/
def State.statementKey (s : State) : State :=
  if !(s.lcs.code = 5 || s.lcs.code = 6) || !s.mpInService || !s.code.loaded.contains 4 || s.logFull
      || (s.mp.stState = s.lcs.code && s.mp.stBlob ≠ []) || s.root?.isNone || !s.canServe (256 + 127) then s
  else
    let (b, s) := s.generate (256 + 127) 32
    let pk := fit 1952 (Config.mldsaPk 6 b)
    let (kid, s) := s.newKeyId
    let blob := (s.sealBlob (statementSlot (s.epoch 127) kid (fit 4032 (Config.mldsaSk 6 b)))).2
    let s := s.audit 4 0 s.lcs.code (digest32 pk)
    { s with mp := { s.mp with stPub := pk, stBlob := blob, stState := s.lcs.code } }

/-- NEXT takes the end of the committed range, and the next range is being committed (R515); the region is copied (R504). -/
def State.startCounter (s : State) : State :=
  if s.mpInService then
    { s.copyRegion with mp := { s.copyRegion.mp with
      ctrNext := s.mp.ctrEnd, ctrBusy := s.code.loaded.contains 4, ctrLast := none } }
  else s

/-- Separation is carried out at a start (R522): the log is copied into the journal's retained area, and packages,
region and key are erased. -/
def State.carryOutSeparation (s : State) : State :=
  if !s.mp.sepFuse || s.mp.separated then s
  else
    let s := s.mp.audit.foldl (fun (s : State) (a : AuditEntry) =>
      (s.event 0xC srcMp 3 0 0xFF (cut a.bytes 8 16)).flushRing) s
    let s := s.erasePackages 4
    { s with mp := { sepFuse := true, separated := true, authKey := s.mp.authKey } }

end Sys2Proof.Machine
end

