-- ==== Sys2Proof/Machine/Time.lean ====
section
/-! DEFINITION. The time base and the tick (R212 to R214, R233 to R241, R603 to R616): the advance of station time, what
each tick does, steps, loads and PPS edges. -/

namespace Sys2Proof.Machine

/-! The advance of time (R598, R605) -/

/-- TIM_TRIM + F + P in eighths of a ppb. -/
def State.rate8 (s : State) : Int := s.freq8 + (if s.el < s.tim.slewEnd then 8 * s.tim.slew else 0)

/-- What one ns of elapsed time adds to station time, in units of 2^-32 ns. DESIGN CHOICE, log entry 14, unsafe. -/
def State.increment (s : State) : Nat := ((2 : Int) ^ 32 + s.rate8 * 2 ^ 32 / 8000000000).toNat

/-- ns of elapsed time in one cycle of the time base's clock: FABCLK, or REFCLK in SLEEP. -/
def State.cycleNs (s : State) : Nat := if s.pwr.st = .sleep then 10 else 1

/-- XTAL32 cycles, or those of the AON RC oscillator, in `ns` of elapsed time. DESIGN CHOICE, log entry 15, unsafe. -/
def State.aonCycles (s : State) (ns : Nat) : Nat := ns * (if s.aon.rc then 32000 else 32768) / 1000000000

/-- `k` cycles pass: station time, elapsed time, operating time and the Winter Hold time counter advance.
DESIGN CHOICE, log entry 14, unsafe. -/
def State.advance (s : State) (k : Nat) : State :=
  let d := k * s.cycleNs
  let total := s.tim.ns * 2 ^ 32 + s.tim.frac + d * s.increment
  let el := s.el + d
  let op := s.pwr.opNs + d
  { s with
    tim := { s.tim with
      ns := total / 2 ^ 32, frac := total % 2 ^ 32, elapsed := el, tsync := s.tim.tsync && decide (el < s.tim.pulseEnd) }
    pwr := { s.pwr with opSec := s.pwr.opSec + op / 1000000000, opNs := op % 1000000000 }
    aon := { s.aon with counter := (s.aon.counter + s.aonCycles el - s.aonCycles s.el) % 2 ^ 48 } }

/-- Cycles until station time reaches its next whole µs. -/
def State.toBoundary (s : State) : Nat :=
  let left := (s.us + 1) * 1000 * 2 ^ 32 - (s.tim.ns * 2 ^ 32 + s.tim.frac)
  ceilDiv left (s.cycleNs * s.increment)

/-- The time base runs: the part has its main rails. -/
def State.timed (s : State) : Bool := s.awake || decide (s.pwr.st = .sleep)

/-! The tick (R240) -/

/-- One flag request is applied (R233). -/
def Slice.applyReq (x : Slice) (r : FlagReq) : Slice :=
  { x with flags := if r.set then x.flags ||| r.mask else x.flags &&& ~~~r.mask }

/-- A mapped source sets its flag on this tick (R235, R236); a periodic one when a multiple of PERIOD lies after the
last tick and up to this one (R612). -/
def State.sourceFires (s : State) (w : Word) : Bool :=
  let p := fld w 23 8
  bitAt w 31 &&
    (if fld w 30 28 = 2 then p ≠ 0 && (s.us % p = 0 || s.sch.lastTick / p < s.us / p)
    else s.sch.sources.contains (fld w 30 28))

/-- Flags of slice `n` on the tick: requests in order, then mapped sources. -/
def State.tickFlags (s : State) (n : Nat) : State :=
  let on := (List.range 4).filterMap fun m =>
    let w := s.reg (.evmap n m)
    if s.sourceFires w then some (fld w 5 0) else none
  s.onSlice n fun x =>
    let x := x.flagReqs.foldl Slice.applyReq x
    { x with flagReqs := [], flags := on.foldl (fun f b => f ||| BitVec.ofNat 64 (2 ^ b)) x.flags }

/-- The wait of a job is satisfied (R234). -/
def Job.waitMet (x : Job) (flags : BitVec 64) : Bool :=
  let m := flagMask x.desc.evgroup x.desc.evwait
  if x.desc.waitany then (flags &&& m) ≠ 0 else (flags &&& m) = m

/-- The not-before time of a held job has come (R238). -/
def State.notBeforeOne (s : State) (j : Nat) : State :=
  s.onJob j fun x =>
    match x.notBefore with
    | some t => if x.stage = .held ∧ t ≤ s.us then { x with notBefore := none } else x
    | none => x

/-- The flag wait of a held job is tested; one satisfied on its expiry tick drops the expiry. -/
def State.waitOne (s : State) (j : Nat) : State :=
  s.onJob j fun x =>
    if x.stage = .held ∧ x.waitFlags ∧ x.waitMet (s.slice x.slice).flags then
      { x with
        waitFlags := false
        expiry := match x.expiry with
          | some t => if t ≤ s.us then none else some t
          | none => none }
    else x

/-- The expiry tick of a job has come (R239). -/
def State.expireOne (s : State) (j : Nat) : State :=
  match s.job? j with
  | some x =>
    match x.expiry with
    | some t =>
      if x.stage = .done ∨ s.us < t then s
      else if x.waitFlags then s.finish j (fail .timedOut)
      else if !x.started then s.finish j (fail .deadlineMissed)
      else s.putJob j { x with expiry := none }
    | none => s
  | none => s

/-- The long NVM operations that need no further command end on a tick; a store takes its next step. None goes on while
PFAIL_N is low (R583). DESIGN CHOICE, log entry 53, safe. -/
def State.nvmTick (s : State) : State :=
  if s.pwr.pfail then s
  else
    let s := match s.nvm.op with
      | some (.store ..) => s.storeStep true
      | some .defaults => s.eraseImages
      | some (.ownerKey ..) => s.endOwner
      | some (.install data ok) => ({ s with nvm := { s.nvm with op := none } }).installEnd data ok
      | none => s
    match s.mp.op with
    | some (.authority data ok) => s.authorityEnd data ok
    | some (.tariff data ok) => s.tariffEnd data ok
    | some (.separate ok) => s.separateEnd ok
    | none => s

/-- What the tick of the current µs does: the armed set (R632), then R240. The flags of a commit that is done now are set on
the following tick (R236). -/
def State.tickWork (s : State) : State :=
  let seen := s.sch.sources
  let s := ({ s with sch := { s.sch with sources := [] } }).commitDue
  let later := s.sch.sources
  let s := { s with sch := { s.sch with sources := seen } }
  let s := s.slicesPresent.foldl State.tickFlags s
  let s := { s with sch := { s.sch with sources := later, lastTick := s.us, tickEl := s.el } }.endTests
  let s := ((s.eachJob State.notBeforeOne).eachJob State.waitOne).eachJob State.expireOne
  s.passHeld

/-- The tick as the power state lets it act: SCH's clock stops in SLEEP, which a commit due in 100 µs ends (R596).
DESIGN CHOICE, log entry 5, unsafe. DEDUCED, log entry 52, safe. -/
def State.tick (s : State) : State :=
  let s := if s.pwr.st = .sleep ∧ s.nvm.commit = .armed ∧ s.nvm.instant ≤ s.us + 100 then s.wakeUp else s
  if s.up && s.awake && !s.ended then s.tickWork else { s with sch := { s.sch with lastTick := s.us, tickEl := s.el } }

/-! What ends as time passes: builds of traversal state, lends, restores, the draining of a unit, admissions (R139, R194,
R283, R289, R397) -/

/-- A build whose time has come ends: the traversal state is there, the key's owner is charged as for a job, and the VCE is
free (R139, R213). -/
def State.endBuild (s : State) (e : Nat) : State :=
  match (s.engine e).build with
  | some (r, t) =>
    if s.el < t then s
    else
      let n := (mapGet {} s.kmg.stf r).owner
      let d := s.el - (s.engine e).since
      let s := (s.onRecord r fun r => { r with built := true }).writePlace (s.treePlace r)
      let s := s.onEngine e fun x => { x with build := none, idleAt := s.el }
      s.onSlice n fun y => { y with usage := mapUpd 0 y.usage Cls.vce.num (· + d) }
  | none => s

/-- A lend whose time has come ends: μ is in the incoming slot of the VCE, which goes on (R397). -/
def State.endLend (s : State) (h : Nat) : State :=
  match (s.engine h).lend with
  | some (e, t, mu) =>
    if s.el < t then s
    else (s.onEngine h fun x => { x with lend := none, lendIn := none, idleAt := s.el }).onVce e fun v =>
      if v.lent then { v with lent := false, mu := mu } else v
  | none => s

/-- A restore whose time has come ends: RESTORE goes on at the resume address (R283, R358, R374). -/
def State.endRestore (s : State) (e : Nat) : State :=
  let t := (s.engine e).restEnd
  if t = 0 ∨ s.el < t then s
  else
    let s := s.onEngine e fun x => { x with restEnd := 0 }
    if clsOf e = .vce then s.onVce e fun v => { v with upc := v.resume, safe := true } else s

/-- `k` cycles pass, with what ends in them. -/
def State.elapse (s : State) (k : Nat) : State :=
  let t := s.el
  let s := allEngines.foldl (fun (s : State) (e : Nat) => ((s.endBuild e).endLend e).endRestore e) (s.advance k)
  s.retireDrained.admitDue 41 t

/-- NOT_BEFORE_REACHED, R15, R238. -/
def execNotBeforeReached (j : Nat) (s : State) : Host.Outcome State Fault Refusal :=
  .next (if s.onTick then (s.notBeforeOne j).passOne j else s)

/-- EXPIRY_TICK, R15, R239, R240. -/
def execExpiryTick (j : Nat) (s : State) : Host.Outcome State Fault Refusal :=
  .next (if s.onTick then s.expireOne j else s)

/-! Accounting windows (R212 to R214) -/

/-- The slice has an enabled SQ. -/
def State.anySq (s : State) (n : Nat) : Bool := (List.range 16).any fun q => s.sqEn n q

/-- WEIGHT of a slice. -/
def State.weight (s : State) (n : Nat) : Nat := fld (s.reg (.share n)) 15 0

/-- E(s, c) in engine-ns. -/
def State.entitlement (s : State) (n : Nat) (c : Cls) : Nat :=
  let sum := ((s.slicesPresent.filter s.anySq).map s.weight).sum
  if sum = 0 then 0 else s.activeUnits c * 1000000 * s.weight n / sum

/-- CAPPED of a slice. DEDUCED, log entry 51, safe. -/
def State.capped (s : State) (n : Nat) : Bool := bitAt (s.reg (.share n)) 31

def allCls : List Cls := [.vce, .hse, .cde, .cle, .ste]

/-- Usage of slice `n` in class `c`. -/
def State.usage (s : State) (n : Nat) (c : Cls) : Nat := mapGet 0 (s.slice n).usage c.num

/-- The usages of every slice as a new window begins. -/
def State.newWindow (s : State) : State :=
  let after := fun (n : Nat) =>
    if s.capped n then
      allCls.foldl (fun (m : SMap Nat) c =>
        mapSet 0 m c.num (min (s.usage n c - s.entitlement n c) (s.entitlement n c))) []
    else []
  let s' := s.slicesPresent.foldl (fun (t : State) (n : Nat) => t.onSlice n fun x => { x with usage := after n }) s
  { s' with sch := { s'.sch with window := s'.us / 1000 + 1 } }

/-- ACCOUNTING_WINDOW_START, R212, R214: a station time that is a whole multiple of 1,000 µs is reached. -/
def execAccountingWindowStart (s : State) : Host.Outcome State Fault Refusal :=
  .next (if s.up && s.awake && s.sch.window ≤ s.us / 1000 then s.newWindow else s)

/-! The AON anchor (R610) -/

/-- The time base writes the anchor. -/
def State.writeAnchor (s : State) : State :=
  { s with aon := { s.aon with anchor := some { time := s.now, counter := s.aon.counter, freq := s.tim.freq } } }

/-- ANCHOR_WRITE, R610. -/
def execAnchorWrite (s : State) : Host.Outcome State Fault Refusal := .next (if s.timed then s.writeAnchor else s)

/-- A part in RUN all of whose engines are gated is in DOZE (R590). DEDUCED, log entry 52, safe. -/
def State.dozes (s : State) : State :=
  if s.pwr.st = .run ∧ s.up ∧ s.awakeEngines = 0 then { s with pwr := { s.pwr with st := .doze, dozeAt := s.el } } else s

/-- STATION_TICK, R240: station time reaches its next whole µs. A PURGE sequence and the long NVM operations go on, and
the anchor is written at each whole second. DESIGN CHOICE, log entry 5, unsafe. -/
def State.nextTick (s : State) : State :=
  let s := (s.elapse s.toBoundary).tick.dozes
  let s := s.purgeStep.nvmTick
  if s.us % 1000000 = 0 then s.writeAnchor else s

def execStationTick (s : State) : Host.Outcome State Fault Refusal := .next (if s.timed then s.nextTick else s)

/-- One cycle of the clock that runs: on an empty queue time passes by it. DESIGN CHOICE, log entry 5, unsafe. -/
def State.cycle (s : State) : State :=
  if s.timed then
    let old := s.us
    let s := s.elapse 1
    if s.us = old then s
    else
      let s := s.tick.dozes.purgeStep.nvmTick
      if s.us % 1000000 = 0 then s.writeAnchor else s
  else if s.pwr.st = .winter then { s with aon := { s.aon with counter := (s.aon.counter + 1) % 2 ^ 48 } }
  else s

/-! States, steps and loads (R606 to R612) -/

/-- The time base takes a state; a change is recorded (R616). -/
def State.timeState (s : State) (st : TimeSt) : State :=
  if s.tim.st = st then s
  else
    let old := s.tim.st
    let s := { s with tim := { s.tim with
      st := st, goodRun := if st = TimeSt.holdover then 0 else s.tim.goodRun
      expected := if st = TimeSt.holdover then none else s.tim.expected } }
    s.event 0xB srcTim 3 0 0xFF (leBytes 1 old.code ++ leBytes 1 st.code)

/-- F takes a value within the limit of R605; RANGE shows that the correction is held there (R602). -/
def State.setFreq (s : State) (f : Int) : State :=
  let lim : Int := 2000000
  let f' := max (-lim - 8 * s.trim) (min (lim - 8 * s.trim) f)
  let held := decide (f' ≠ f)
  let was := s.tim.range
  let s := { s with tim := { s.tim with freq := f', range := held } }
  if held && !was then s.event 0xB srcTim 6 else s

/-- The ticks that remained to a job's expiry remain after a step to `new` (R612). -/
def Job.restamp (old new : Nat) (x : Job) : Job :=
  { x with expiry := x.expiry.map fun t => ceilDiv new 1000 + (t - old / 1000) - 1 }

/-- Station time takes a new value at once: a step (R612). A debug grant ends (R543). A new value on a boundary makes
this edge its tick. DESIGN CHOICE, log entry 22, unsafe. DEDUCED, log entry 81, unsafe. -/
def State.stepTime (s : State) (new : Nat) : State :=
  let old := s.now
  let s := { s with
    tim := { s.tim with ns := new, frac := 0 }
    sch := { s.sch with
      jobs := mapAll {} s.sch.jobs fun _ (x : Job) => x.restamp old new
      window := ceilDiv new 1000000 } }
  let s := (s.event 0xB srcTim 4 0 0xFF (leBytes 8 old ++ leBytes 8 new)).endGrant 2
  let s := if new % 1000 = 0 then s.tick else s
  if new % 1000000000 = 0 then s.writeAnchor else s

/-- A write of TIM_NEXT_HI arms or makes a load (R609). -/
def State.loadTime (s : State) (hi : Word) : State :=
  let lo := (mapFind s.loHeld 0x20010).getD (s.reg (.timNext false))
  let v := lo.toNat + 2 ^ 32 * hi.toNat
  let s := { (s.setPair .timNext v) with loHeld := mapErase s.loHeld 0x20010 }
  let s := { s with tim := { s.tim with goodRun := 0, badRun := 0, expected := none } }
  if bitAt (s.reg .timCtrl) 31 then ({ s with tim := { s.tim with armed := none } }.stepTime v).timeState .free
  else ({ s with tim := { s.tim with armed := some (v, s.el), holdFrom := s.el } }).timeState .locking

/-- TIME_LOAD, R609. -/
def execTimeLoad (hi : Word) (s : State) : Host.Outcome State Fault Refusal :=
  .next (s.gate 0x20014 fun s => s.loadTime hi)

/-- LOAD_EXPIRED, R609: no edge came within 2 s of arming. -/
def execLoadExpired (s : State) : Host.Outcome State Fault Refusal :=
  .next (match s.tim.armed with
    | some (_, t) =>
      if s.el ≥ t + 2000000000 then
        ({ s with tim := { s.tim with armed := none, expired := true } }).event 0xB srcTim 5
      else s
    | none => s)

/-- HOLDOVER_ENTRY, R608. -/
def execHoldoverEntry (s : State) : Host.Outcome State Fault Refusal :=
  .next (
    if (s.tim.st = .locked ∨ s.tim.st = .locking) ∧ s.tim.holdFrom + 1500000000 ≤ s.el then s.timeState .holdover
    else s)

/-! PPS edges (R607) -/

/-- The expected time of an edge that no load names. DEDUCED, log entry 62, unsafe. -/
def State.edgeTime (s : State) : Nat :=
  match s.tim.expected with
  | some t => t + 1000000000
  | none => (s.now + 500000000) / 1000000000 * 1000000000

/-- An edge rejected in LOCKED for |e| > 1 µs; the fourth in a row makes the state LOCKING. -/
def State.rejectEdge (s : State) : State :=
  let s := { s with tim := { s.tim with
    rejected := sat 0xFFFF (s.tim.rejected + 1), badRun := s.tim.badRun + 1, goodRun := 0, expected := none } }
  if s.tim.badRun ≥ 4 then ({ s with tim := { s.tim with badRun := 0 } }).timeState .locking else s

/-- An accepted edge of error `e` with expected time `exp`: slewed, or stepped. -/
def State.acceptEdge (s : State) (e : Int) (exp : Nat) (load : Bool) : State :=
  let slewed := !load && decide (e.natAbs ≤ fld (s.reg .timCtrl) 7 0 * 1000)
  let s := { s with
    tim := { s.tim with
      accepted := sat 0xFFFF (s.tim.accepted + 1), badRun := 0, phase := e, lastEdge := some s.el, holdFrom := s.el, holdBase := s.el
      expected := some exp, armed := if load then none else s.tim.armed
      goodRun := if slewed && decide (e.natAbs ≤ 50) then s.tim.goodRun + 1 else 0 }
    sch := { s.sch with sources := 1 :: s.sch.sources } }
  let s := if slewed then
      ({ s with tim := { s.tim with slew := -e, slewEnd := s.el + 1000000000 } }).setFreq (s.tim.freq - e)
    else s.stepTime exp
  if s.tim.st = .locked then s
  else if s.tim.goodRun ≥ 8 then s.timeState .locked
  else s.timeState .locking

/-- One edge of PPS_IN. -/
def State.edge (s : State) : State :=
  let early := match s.tim.lastEdge with
    | some t => decide (s.el < t + 500000000)
    | none => false
  if early then { s with tim := { s.tim with rejected := sat 0xFFFF (s.tim.rejected + 1) } }
  else match s.tim.armed with
  | some (v, _) => s.acceptEdge ((s.now : Int) - v) v true
  | none =>
    let exp := s.edgeTime
    let e : Int := (s.now : Int) - exp
    if s.tim.st = .locked ∧ e.natAbs > 1000 then s.rejectEdge else s.acceptEdge e exp false

/-- PPS_EDGE, R607. -/
def execPpsEdge (s : State) : Host.Outcome State Fault Refusal :=
  .next (if s.timed && bitAt (s.reg .timCtrl) 29 then s.edge else s)

/-- PHASE_SLEW_END, R607: the 10^9 ns of a slew have passed. -/
def execPhaseSlewEnd (s : State) : Host.Outcome State Fault Refusal :=
  .next (if s.tim.slewEnd ≤ s.el then { s with tim := { s.tim with slew := 0 } } else s)

/-! TSYNC_OUT and the AON clock (R603, R613) -/

/-- TSYNC_PULSE, R613: station time is a whole second plus OFFSET, within one cycle of the time base's clock. -/
def execTsyncPulse (s : State) : Host.Outcome State Fault Refusal :=
  .next (
    let w := s.reg .timTsync
    let off := signed 21 (fld w 20 0)
    let past := (((s.now : Int) - off) % 1000000000).toNat
    if s.timed && bitAt w 31 && s.tim.st ≠ .unset && (!bitAt w 30 || s.tim.st = .locked) && !s.tim.tsync
        && past ≤ s.cycleNs then
      ({ s with tim := { s.tim with tsync := true, pulseEnd := s.el + fld w 29 21 * 1000000 } }).emit (.pulse s.now)
    else s)

/-- XTAL_RC, R603: the XTAL monitor shows its condition, or its window holds no such sample any more. -/
def execXtalRc (rc : Bool) (s : State) : Host.Outcome State Fault Refusal :=
  .next (
    let was := s.aon.rc
    let s := { s with aon := { s.aon with rc := rc } }
    if rc && !was && s.timed then s.event 0xB srcPwr 7 else s)

end Sys2Proof.Machine
end

