-- ==== Sys2Proof/Machine/RegWrite.lean ====
section
/-! DEFINITION. Writes and reads of registers by the host: access types, pairs, shadowed writes and bad accesses
(R18 to R27, R528, R530, R560, R561, R654). -/

namespace Sys2Proof.Machine

/-! Shadowed registers (R22 to R24) -/

/-- A write of an accepted command that its block discards: a command is in progress (R386, R521), or a transition is
accepted (R530). DEDUCED, log entry 16, safe. -/
def State.commandBlocked (s : State) (r : Reg) : Bool :=
  match r with
  | .pkgCmd => s.code.busy || s.lcs.trans.isSome
  | .mpCmd => s.mp.busy || s.lcs.trans.isSome
  | .lcsTransition | .dbgCmd => s.lcs.trans.isSome
  | _ => false

/-- A shadowed write takes effect: its command waits to be carried out (R22). A reserved encoding discards it (R27); a CMD of
SLC_CTRL that R490 does not list is refused (R492). -/
def State.acceptWrite (s : State) (r : Reg) (w : Word) : State :=
  let w := w &&& r.mask
  let n := r.sliceOf.getD 0
  if s.reservedFor r w || s.commandBlocked r then s.configEvent (blockSrc r.addr) n
  else
    let s := { s with accepted := mapInsert s.accepted r.addr w }
    match r with
    | .monCfg _ => s
    | .slcCtrl m =>
      if outside 1 5 (fld w 31 28) then
        ({ s with accepted := mapErase s.accepted (Reg.slcCtrl m).addr }).badState m
      else s
    | _ => s.setReg r w

/-- A write to the companion of the register at `name`. -/
def State.writeInv (s : State) (name : Nat) (v : Word) : State :=
  match mapFind s.held name with
  | none => s.shadow (name + 4)
  | some (w, t) =>
    let s := { s with held := mapErase s.held name }
    if s.el > t + 64 then (s.shadow name).shadow (name + 4)
    else if v ≠ ~~~w then s.shadow (name + 4)
    else match regAt name with
    | some r => s.acceptWrite r w
    | none => s

/-- A write to a shadowed register is held; a write held before it is discarded (R22, R24). -/
def State.holdWrite (s : State) (r : Reg) (v : Word) : State :=
  let s := if (mapFind s.held r.addr).isSome then s.shadow r.addr else s
  { s with held := mapInsert s.held r.addr (v, s.el) }

/-! Pairs (R20) -/

/-- A write of NAME_LO: nothing in effect changes. -/
def State.writeLo (s : State) (r : Reg) (v : Word) : State :=
  { s with loHeld := mapInsert s.loHeld r.addr (v &&& r.mask) }

/-- A write of NAME_HI: the pair takes the low half last written and this high half. -/
def State.writeHi (s : State) (f : Bool → Reg) (v : Word) : State :=
  let lo := (mapFind s.loHeld (f false).addr).getD (s.reg (f false))
  { (s.setPair f (lo.toNat + 2 ^ 32 * v.toNat)) with loHeld := mapErase s.loHeld (f false).addr }

/-- A write of a half of a pair that a condition freezes (R79). -/
def State.writeHalf (s : State) (f : Bool → Reg) (hi : Bool) (v : Word) (isFrozen : Bool) : State :=
  if isFrozen then s.configEvent (blockSrc (f false).addr) ((f false).sliceOf.getD 0)
  else if hi then s.writeHi f v
  else s.writeLo (f false) v

/-! Other registers -/

/-- A plain write takes effect at once unless its encoding is reserved (R22, R27). -/
def State.writePlain (s : State) (r : Reg) (v : Word) : State :=
  if s.reservedFor r (v &&& r.mask) then s.configEvent (blockSrc r.addr) (r.sliceOf.getD 0)
  else s.setReg r (v &&& r.mask)

/-- A register of the binding of a slice is written only in DISABLED and QUIESCED (R493). -/
def State.writeBinding (s : State) (r : Reg) (n : Nat) (v : Word) : State :=
  if s.sliceState n = .disabled ∨ s.sliceState n = .quiesced then s.writePlain r v else s.configEvent (srcSlice n) n

/-- A write of EVR_CMD (R586). -/
def State.writeEvrCmd (s : State) (v : Word) : State :=
  match fld v 31 28 with
  | 1 => s.clearByGrant
  | 2 => s.clearByToken (fld v 13 0)
  | _ => s.configEvent srcEvr

/-- A word of DBG_MBOX (R545). -/
def State.writeMbox (s : State) (i : Nat) (v : Word) : State :=
  let m := (List.range 4).foldl (fun (m : SMap Byte) k => mapSet 0 m (4 * i + k) (BitVec.ofNat 8 (v.toNat / 256 ^ k)))
    s.dbg.mbox
  { s with dbg := { s.dbg with mbox := m } }

/-- A write of SLC_STATUS: each bit written 1 is cleared (R22, R490). -/
def State.writeSlcStatus (s : State) (n : Nat) (v : Word) : State :=
  s.onSlice n fun x => { x with
    badState := x.badState && !bitAt v 31, badConfig := x.badConfig && !bitAt v 30 }

/-- A write of a writable register that the gate has passed. -/
def State.writeReg (s : State) (r : Reg) (v : Word) : State :=
  match r with
  | .sysReset => s.sysReset v
  | .inv name => s.writeInv name v
  | .timNext true => s.loadTime v
  | .rdSeq true => s.lookup v
  | .commitAt h => s.writeHalf .commitAt h v false
  | .timNext h => s.writeHalf .timNext h v false
  | .pkgAddr h => s.writeHalf .pkgAddr h v false
  | .ownerAddr h => s.writeHalf .ownerAddr h v false
  | .rdSeq h => s.writeHalf .rdSeq h v false
  | .clrUpto h => s.writeHalf .clrUpto h v false
  | .mpAddr h => s.writeHalf .mpAddr h v false
  | .dbBase n h => s.writeHalf (.dbBase n) h v (s.anyQueue n)
  | .sqBase n q h => s.writeHalf (.sqBase n q) h v (s.sqEn n q)
  | .cqBase n q h => s.writeHalf (.cqBase n q) h v (s.cqEn n q)
  | .sqCfg n q => s.writeSqCfg n q v
  | .cqCfg n q => s.writeCqCfg n q v
  | .timStatus => if bitAt v 27 then { s with tim := { s.tim with expired := false } } else s
  | .timTrim =>
    let s := s.writePlain .timTrim v
    s.setFreq s.tim.freq
  | .dbStatus n => if bitAt v 31 then s.clearDb n else s
  | .sqStatus n q => if bitAt v 31 then s.clearSq n q else s
  | .cqStatus n q => if bitAt v 31 then s.clearCq n q else s
  | .slcStatus n => s.writeSlcStatus n v
  | .evrCmd => s.writeEvrCmd v
  | .mbox i => s.writeMbox i v
  | .snapCtrl i => s.snapWrite (.snapCtrl i) v
  | .snapMatch i => s.snapWrite (.snapMatch i) v
  | .snapReg i j => s.snapWrite (.snapReg i j) v
  | .pasid n => s.writeBinding (.pasid n) n v
  | .vec n => s.writeBinding (.vec n) n v
  | .winBase n => s.writeBinding (.winBase n) n v
  | .winSize n => s.writeBinding (.winSize n) n v
  | .sess n => s.writeBinding (.sess n) n v
  | .perm n => s.writeBinding (.perm n) n v
  | r => if r.isRws then s.holdWrite r v else if r.isRwc then s.stage r v else s.writePlain r v

/-- A write of configuration space, at the model's offset `o` (R52, R684). DESIGN CHOICE, log entry 44, unsafe. -/
def State.writeCfg (s : State) (o : Nat) (v : Word) : State :=
  match o with
  | 0x44 => { s with hif := { s.hif with timeout := fld v 3 0, noTimeout := bitAt v 4 } }
  | 0x48 => { s with hif := { s.hif with ats := bitAt v 31, cache := if bitAt v 31 then s.hif.cache else [] } }
  | 0x4C => { s with pwr := { s.pwr with d3hot := decide (fld v 1 0 = 3) } }
  | 0x50 => { s with hif := { s.hif with aer := s.hif.aer &&& ~~~v } }
  | 0x58 => { s with hif := { s.hif with ecrc := bitAt v 8 } }
  | _ => s

/-- A write to the MSI-X table of BAR4 (R654), at offset `o` of that BAR; unmasking sends a message that waits. -/
def State.writeMsix (s : State) (o : Nat) (v : Word) : State :=
  let i := o / 16
  let on := fun (f : Msix → Msix) => { s with hif := { s.hif with msix := mapUpd {} s.hif.msix i f } }
  if o ≥ 0x8000 then s
  else match o % 16 with
  | 0 => on fun m => { m with lo := v &&& 0xFFFFFFFC }
  | 4 => on fun m => { m with hi := v }
  | 8 => on fun m => { m with data := v }
  | _ => if bitAt v 0 then on fun m => { m with mask := true } else s.unmask i

/-- REGISTER_WRITE, R22: an aligned write of a BAR0 word. Offsets from 0x400_0000 on stand for BAR4, from 0x500_0000 on for
BAR2, from 0x600_0000 on for configuration space. -/
def State.write (s : State) (off : Nat) (v : Word) : State :=
  if 0x6000000 ≤ off then (if s.powered then s.wakeUp.writeCfg (off - 0x6000000) v else s)
  else if 0x5000000 ≤ off then s.nudge (off - 0x5000000)
  else if 0x4000000 ≤ off then (if s.powered then s.wakeUp.writeMsix (off - 0x4000000) v else s)
  else s.gate off fun s =>
    if off % 4 ≠ 0 then s.badAccess off 0
    else match regAt off with
    | some r => if (match r.sliceOf with | some n => s.present n | none => true) then s.writeReg r v else s
    | none => s

def execRegisterWrite (off : Nat) (v : Word) (s : State) : Host.Outcome State Fault Refusal := .next (s.write off v)

/-- BAD_ACCESS, R18: an access that is not an aligned 32-bit word. -/
def execBadAccess (off : Nat) (write : Bool) (s : State) : Host.Outcome State Fault Refusal :=
  .next (
    let s := if s.up then s.wakeUp.badAccess off 0 else s
    if write then s else s.emit (.readReply 0))

/-- NAME_LO_READ, R21: the low half is returned and the upper half captured. -/
def State.readLo (s : State) (off : Nat) : State :=
  let hi := ({ s with loCap := mapErase s.loCap off }).bar0 (off + 4)
  ({ s with loCap := mapInsert s.loCap off hi }).emit (.readReply (s.bar0 off))

/-- The offset is the low half of a 64-bit value. -/
def State.isLo (s : State) (off : Nat) : Bool :=
  off % 8 = 0 && ((s.wide off).isSome
    || (match regAt off with | some (.dbBase ..) | some (.sqBase ..) | some (.cqBase ..) => true | _ => false)
    || (match engineAt off with | some (_, o) => o = 0x20 || o = 0x28 | none => false))

/-- A read of any other word; the captured upper half serves the read of NAME_HI that follows it and no later one (R21). -/
def State.readWord (s : State) (off : Nat) : State :=
  ({ s with loCap := if off % 8 = 4 then mapErase s.loCap (off - 4) else s.loCap }).emit (.readReply (s.bar0 off))

/-- NAME_LO_READ, R21; one that LOST or SCRAP answers with 0 is recorded (R532, R571). Every read wakes the part (R596).
DEDUCED, log entry 73, unsafe. -/
def execNameLoRead (off : Nat) (s : State) : Host.Outcome State Fault Refusal :=
  .next (if 0x4000000 ≤ off then (if s.powered then s.wakeUp.emit (.readReply (s.wakeUp.farRead off)) else s.emit (.readReply 0))
    else if s.up then
      (if s.ended && !s.endedReads off then (s.wakeUp.badAccess off 2).emit (.readReply 0)
        else if s.wakeUp.isLo off then s.wakeUp.readLo off else s.wakeUp.readWord off)
    else s.emit (.readReply (s.bar0 off)))

end Sys2Proof.Machine
end

