-- ==== Sys2Proof/Machine/Cmc.lean ====
section
/-! DEFINITION. Context memory at work: the overwrite that follows a start, corrections, the patrol scrub and what an error
in the internal region costs (R404 to R412). -/

namespace Sys2Proof.Machine

/-! The overwrite (R411) -/

/-- OVERWRITE_REACHES_GROUP, R411: the overwrite, in ascending order, has passed group `g`. -/
def execOverwriteReachesGroup (g : Nat) (s : State) : Host.Outcome State Fault Refusal :=
  .next (
    if s.cmc.ready && !s.cmc.ovwDone && s.awake && decide (s.cmc.done ≤ g) && decide (g < s.groups) then
      { s with cmc := { s.cmc with done := g + 1, onDemand := s.cmc.onDemand.filter fun h => decide (g < h) }.rewritten fun b =>
          decide (s.cmc.done ≤ b / 31) && decide (b / 31 ≤ g) && !s.cmc.onDemand.contains (b / 31) }
    else s)

/-- OVW_DONE, R411: every group is overwritten; `ms` is the duration. -/
def execOvwDone (ms : Nat) (s : State) : Host.Outcome State Fault Refusal :=
  .next (
    if s.cmc.ready && !s.cmc.ovwDone && s.awake then
      ({ s with cmc := { s.cmc with ovwDone := true, done := s.groups, onDemand := [] }.rewritten fun b =>
          decide (s.cmc.done ≤ b / 31) && !s.cmc.onDemand.contains (b / 31) }).event 3 srcCmc 3 0 0xFF (leBytes 4 ms)
    else s)


/-- PATROL_SCRUB, R410: the scrub of channel `ch` corrects so many errors and finds the data blocks `bad` uncorrectable.
DESIGN CHOICE, log entry 60, safe. -/
def execPatrolScrub (ch corrected : Nat) (bad : List Nat) (s : State) : Host.Outcome State Fault Refusal :=
  .next (
    if s.cmc.ready && s.awake && (if ch = 0 then s.cmc.chA.active else decide (ch = 1) && s.cmc.chB.active) then
      let s := (List.range corrected).foldl (fun (s : State) _ => s.correction ch) s
      (bad.filter fun b => decide (b * 512 < s.cmc.usable) && decide (s.blockChannel b = ch)).foldl
        (fun (s : State) (b : Nat) => s.blockFails b false) s
    else s)

end Sys2Proof.Machine
end

