-- ==== Sys2Proof/Machine/Sched.lean ====
section
/-! DEFINITION. The scheduler: scratch, keys and randomness on the way to the ready lists, dispatch, staging, the start of
a job, pre-emption and saving, the collector and the release of entries (R194 to R247, R273 to R285, R427, R476, R681,
R682). -/

namespace Sys2Proof.Machine

/-! On the way to READY -/

/-- SCRATCH_ALLOCATED, R200: areas are given in order of admission. -/
def execScratchAllocated (j : Nat) (s : State) : Host.Outcome State Fault Refusal :=
  .next (match s.job? j with
    | some x =>
      if x.needScratch && !(s.sch.jobs.any fun (i, y) => decide (i < j) && y.needScratch) then
        let s := s.putJob j { x with needScratch := false, scratch := true }
        if x.stage = .keyload then s.toReady j else s.passOne j
      else s
    | none => s)

/-- Operations whose key becomes LOADED, not CACHED (R184, R433, R445). -/
def Job.loadsKey (x : Job) : Bool := x.desc.opc = 0x3070 || x.desc.opc = 0x2000

/-- The blob that job `j` names has been read (R427, R433, R437). -/
def State.takeBlob (s : State) (j : Nat) (x : Job) (b : Bytes) : State :=
  if x.keepsBlob b then
    match s.checkBlobLive x.slice b with
    | .err st d => s.finish j (fail st d)
    | .ok k =>
      if x.desc.fam = 7 ∧ !x.mayUse k then s.finish j (fail .keyPolicy)
      else match x.tooSmall (s.keyedLen x k) with
      | some r => s.finish j r
      | none => (s.putJob j { x with keyBlob := b }).toReady j
  else
    let fresh := (s.sameBlob x.slice b).isNone && decide (x.desc.opc = 0x2000)
    let s := s.putJob j (x.withBlob b)
    match s.loadBlob x.slice b x.loadsKey x.accepts with
    | (.err st d, s) => s.finish j (fail st d)
    | (.ok i, s) => (if fresh then s.onSlot i fun k => { k with bySession := true } else s).keyTaken j i

/-- A load of a secret waits until SHARE can serve it, a session creation in ENTROPY_WAIT and every other one in KEYLOAD; with
no noise source left it ends (R431, R473, R474). -/
def State.awaitHarvest (s : State) (j : Nat) (x : Job) : State :=
  if x.harvestWait then s
  else if s.rng.noSource then s.noEntropy j
  else
    let st := if x.desc.opc = 0x2000 then Stage.entropyWait else Stage.keyload
    s.putJob j { x with harvestWait := true, waitUntil := s.waitLimit, stage := st }

/-- The blob of a KEYREF is in the part, or its read has failed (R104, R409). A secret body waits for the shares'
randomness (R431). -/
def State.blobArrives (s : State) (j : Nat) (x : Job) : Except HCause Bytes → State
  | .error c =>
    (s.accessFault x.slice c.code Part.blob.code x.qid).finish j (fail .bufferFault (bufferDetail c .blob))
  | .ok b => if algKind (leAt b 6 2) ≠ 1 && !s.canServe 4 then s.awaitHarvest j x else s.takeBlob j x b

/-- KEYLOAD_DONE, R427, R431: the blob that the job names is in the part; a blob in the window is read from there. -/
def execKeyloadDone (j : Nat) (blob : Bytes) (s : State) : Host.Outcome State Fault Refusal :=
  .next (match s.job? j with
    | some x =>
      if !(decide (x.stage = .keyload) || x.loadWaits) ∨ x.key.isSome then s
      else match keyForm x.desc.keyref with
      | .window off =>
        let r := s.blobRange x.slice off
        if s.groupsWait r.1 r.2 then s
        else ((s.openGroups r.1 r.2).noteRead r.1 r.2).blobArrives j x (s.windowBlob x.slice off)
      | .host a =>
        let s := if x.harvestWait then s else s.jobRead j x.slice (a + 64) (16 + leAt blob 36 4)
        let x := { x with readAt := none }
        (s.putJob j x).blobArrives j x (.ok (blob.take (80 + leAt blob 36 4)))
      | _ => s
    | none => s)

/-- Job `j` waits in ENTROPY_WAIT, and its randomness has become available: it is READY (R198, R477). -/
def State.entropyFor (s : State) (j : Nat) (x : Job) : Option State :=
  if x.stage ≠ .entropyWait ∨ x.harvestWait then none
  else if x.takesFresh then
    if s.rng.granted.any fun g => g.1 = j then some (s.enterReady j)
    else if s.rng.ready ∧ nextFresh s.rng.waiting = some (.job j x.prot) then
      s.takePool.map fun (b, s) => (s.giveTo b (.job j x.prot)).enterReady j
    else none
  else if s.canRun x then some (s.enterReady j)
  else none

/-- The wait of job `j` for randomness ends without it: DEADLINE_MISSED where its expiry tick has come too (R198, R476). -/
def State.waitEnds (s : State) (j : Nat) (x : Job) : State :=
  if x.expiry.any (· ≤ s.us) then s.finish j (fail .deadlineMissed) else s.noEntropy j

/-- ENTROPY_WAIT_LIMIT, R476: randomness that has become available by the tick of the limit is passed on first. -/
def execEntropyWaitLimit (j : Nat) (s : State) : Host.Outcome State Fault Refusal :=
  .next (match s.job? j with
    | some x =>
      if ((x.stage = .entropyWait ∧ !x.harvestWait) ∨ (x.loadWaits ∧ !s.canServe 4)) ∧ x.waitUntil ≤ s.el ∧ s.onTick then
        (s.entropyFor j x).getD (s.waitEnds j x)
      else s
    | none => s)

/-! Dispatch (R203 to R206, R210, R218, R229, R242 to R245) -/

/-- A job that signs with a stateful key waits until the key's traversal state is built (R139). -/
def State.traversalReady (s : State) (x : Job) : Bool :=
  if (x.desc.fam = 4 ∨ x.desc.fam = 5) ∧ x.desc.op = 1 then
    match x.key with
    | some i =>
      match s.recordOf (s.slot i).keyId with
      | some r => (mapGet {} s.kmg.stf r).built
      | none => true
    | none => true
  else true

/-- The job needs a release buffer entry and none is free (R229). -/
def State.rbWaits (s : State) (j : Nat) (x : Job) : Bool :=
  !x.rbEntry && s.flowAhead j x && (s.rbUsed ≥ 65536 || s.rbOwed j)

/-- Steps of job `x` that class `c` may take. -/
def Job.readySteps (x : Job) (c : Cls) : List Nat :=
  (List.range x.steps.length).filter fun k =>
    match x.steps[k]? with
    | some p => decide (p.cls = some c) && (decide (p.st = .ready) || decide (p.st = .suspended))
    | none => false

/-- The combiner of a hybrid KEM runs on the VCE of the ML-KEM step, while that unit is ACTIVE (R147). -/
def State.combinesOn (s : State) (x : Job) (k e : Nat) : Bool :=
  match x.steps[k]?, x.steps[0]? with
  | some p, some p0 => !(decide (x.desc.fam = 0xA) && decide (p.cls = some .vce) && p.deps.contains 0)
      || p0.cls ≠ some .vce || p0.engine = e || x.faultyUnits.contains p0.engine
      || (s.engine p0.engine).unit ≠ .active
  | _, _ => true

/-- Steps that engine `e` may be given: job and step. -/
def State.candidates (s : State) (e : Nat) : List (Nat × Nat) :=
  s.sch.jobs.flatMap fun (j, x) =>
    if x.stage = .active && !x.faultyUnits.contains e && s.traversalReady x && !s.rbWaits j x then
      ((x.readySteps (clsOf e)).filter fun k => s.combinesOn x k e).map fun k => (j, k)
    else []

/-- Lowest PRIO, then earliest ready time, then order of admission (R203, R204). -/
def State.bestOf (s : State) (l : List (Nat × Nat)) : Option (Nat × Nat) :=
  leastBy (fun (c : Nat × Nat) =>
    match s.job? c.1 with
    | some x => (x.desc.prio * 2 ^ 80 + x.readyAt) * 2 ^ 48 + c.1
    | none => 0) l

def State.isProt (s : State) (j : Nat) : Bool := match s.job? j with | some x => x.prot | none => false
def State.prioOf (s : State) (j : Nat) : Nat := match s.job? j with | some x => x.desc.prio | none => 0
def State.sliceOfJob (s : State) (j : Nat) : Nat := match s.job? j with | some x => x.slice | none => 0

/-- Engines of class `c` that hold a non-protection job of slice `n` in STAGED or RUNNING (R210). -/
def State.holding (s : State) (n : Nat) (c : Cls) : Nat :=
  ((enginesOf c).filter fun e =>
    [(s.engine e).incoming, (s.engine e).running].any fun o =>
      match o with
      | some (j, _) => !s.isProt j && decide (s.sliceOfJob j = n)
      | none => false).length

/-- The class cap of slice `n` in class `c`; 0: none. One above the ACTIVE units acts as their count (R641). -/
def State.classCap (s : State) (n : Nat) (c : Cls) : Nat :=
  min (((capFields (s.reg (.classcap n))).find? fun f => f.1 = c).elim 0 (·.2)) (s.activeUnits c)

/-- Slice `n` is eligible in class `c`. -/
def State.eligible (s : State) (n : Nat) (c : Cls) : Bool :=
  (s.classCap n c = 0 || s.holding n c < s.classCap n c)
    && !(s.capped n && s.entitlement n c ≤ s.usage n c)

/-- Power of an engine of a class in units of 0.05 W (R245). -/
def unitPower : Cls → Nat
  | .vce => 19 | .hse => 5 | .cde => 24 | .cle => 12 | .ste => 8

def State.engaged (s : State) (e : Nat) : Bool :=
  (s.engine e).incoming.isSome || (s.engine e).running.isSome || (s.engine e).build.isSome

/-- power_allows(e) of R245. -/
def State.powerAllows (s : State) (e : Nat) : Bool :=
  let used := ((allEngines.filter s.engaged).map fun i => unitPower (clsOf i)).sum
  let own := if s.engaged e then 0 else unitPower (clsOf e)
  250 + used + own ≤ 20 * fld (s.reg .pwrCapW) 5 0 || !(enginesOf (clsOf e)).any s.engaged

/-- The slice with the least usage ÷ weight among `l`, the first of `l` among equals.
DESIGN CHOICE, log entry 57, unsafe. -/
def State.leastUsed (s : State) (c : Cls) : List Nat → Option Nat
  | [] => none
  | n :: r =>
    match State.leastUsed s c r with
    | none => some n
    | some m => if s.usage m c * s.weight n < s.usage n c * s.weight m then some m else some n

/-- The job on VCE `e` has a message input of more than 1 KiB whose hashing it has not handed to an HSE yet (R272, R397). -/
def State.wantsLend (s : State) (e : Nat) : Bool :=
  match (s.engine e).running with
  | some (j, k) =>
    (match s.job? j with
    | some x => decide (clsOf e = .vce) && decide (x.lendBytes > 1024) && decide (k < (s.jobInfo x).plan.length)
        && decide (x.stage = .active) && !(s.vce e).lent && decide ((s.vce e).mu = [])
    | none => false)
  | none => false

/-- A lend waits for HSE `h`, ahead of every non-protection job; a reserved HSE serves the lends of protection-class jobs only
(R398). DESIGN CHOICE, log entry 57, unsafe. -/
def State.lendFirst (s : State) (h : Nat) : Bool :=
  decide (clsOf h = .hse) && (enginesOf .vce).any fun e => s.wantsLend e
    && (match (s.engine e).running with | some (j, _) => s.isProt j || !s.reserved h | none => false)

/-- The step that a dispatch decision gives engine `e`, by the rule of R203; a lend that waits goes first (R398). -/
def State.choose (s : State) (e : Nat) : Option (Nat × Nat) :=
  let c := clsOf e
  let l := s.candidates e
  let prots := l.filter fun x => s.isProt x.1
  if s.reserved e then s.bestOf prots
  else if prots ≠ [] then s.bestOf prots
  else if s.lendFirst e then none
  else if s.profile = 2 && !s.powerAllows e then none
  else
    let last := mapGet 0 s.sch.chosen c.num
    let turn := (s.slicesPresent.filter fun n => last < n) ++ s.slicesPresent.filter fun n => n ≤ last
    let ok := turn.filter fun n => (l.any fun x => s.sliceOfJob x.1 = n) && s.eligible n c
    match s.leastUsed c ok with
    | some n => s.bestOf (l.filter fun x => s.sliceOfJob x.1 = n)
    | none => none

/-- The unit takes jobs at all. -/
def Engine.takes (x : Engine) : Bool := x.unit = .active && !x.halted && x.retiring = 0 && !x.contained

/-- The engine's incoming slot is free for a new job; a job that streams its input occupies it (R278). -/
def State.slotEmpty (s : State) (e : Nat) : Bool :=
  (s.engine e).takes && (s.engine e).incoming.isNone && !(s.vce e).streaming

/-- The trace ring keeps a dispatch decision: the last 4,096 of them (R541). -/
def State.traceDispatch (s : State) (e j : Nat) : State :=
  if !s.dbg.traceOn then s
  else match s.job? j with
  | none => s
  | some x =>
    let t : TraceEntry := { time := s.now, slice := x.slice, qid := x.qid, cls := (clsOf e).num
                            logical := (s.engine e).logical, state := 4 }
    { s with dbg := { s.dbg with trace := (s.dbg.trace ++ [t]).drop (s.dbg.trace.length + 1 - 4096) } }

/-- The ranges from byte `skip` on. -/
def rangesFrom : List (Nat × Nat) → Nat → List (Nat × Nat)
  | [], _ => []
  | (a, n) :: r, skip => if skip ≥ n then rangesFrom r (skip - n) else (a + skip, n - skip) :: r

/-- What a pre-empted or retried job reads again beside its input (R279, R284): its parameter block, and a key blob in host
memory. -/
def State.againRead (s : State) (x : Job) : List (Nat × Nat) :=
  (if x.block = [] then [] else [(x.desc.auxAddr.toNat, x.block.length)])
    ++ (match keyForm x.desc.keyref, x.key with
      | .host a, some i => [(a, 80 + (s.slot i).body.length)]
      | _, _ => [])

/-- The incoming slot is filled from host memory (R275). A job staged again reads its block, input and blob again, a streamed
input from the position held in its image on (R279, R284). DESIGN CHOICE, log entry 55, unsafe. -/
def State.readStaged (s : State) (j k : Nat) : State :=
  match s.job? j with
  | some x =>
    let again := (x.steps[k]?).map PStep.restore = some true ∨ x.attempts > 1
    let from_ := if (x.steps[k]?).map PStep.restore = some true then
        ((mapFind s.cmc.saves j).map fun v => if v.streaming then 576 * v.released else 0).getD 0 else 0
    (if again then s.jobReads j x.slice (s.againRead x) else s).jobReads j x.slice (rangesFrom x.inSegs from_)
  | none => s

/-- Step `k` of job `j` is staged on engine `e`; a gated engine begins to thaw (R198, R229, R593). -/
def State.stageOn (s : State) (e j k : Nat) : State :=
  let s := s.takeRb j
  let area := if clsOf e = .vce ∧ (s.engine e).running.isSome ∧ (s.vce e).ctx.area = 0 then 1
    else if (s.engine e).running.isSome then 0 else (s.engine e).area
  let s := s.onEngine e fun x => { x with
    incoming := some (j, k), loaded := false, thawing := x.thawing || x.gated, area := area }
  let s := s.onJob j fun x => x.onStep k fun p =>
    { p with st := .staged, engine := e, stagedAt := s.el, restore := p.restore || decide (p.st = .suspended) }
  let s := (s.traceDispatch e j).readStaged j k
  if s.isProt j then s else { s with sch := { s.sch with chosen := mapSet 0 s.sch.chosen (clsOf e).num (s.sliceOfJob j) } }

/-- LEGACY of a slice (R208). DEDUCED, log entry 51, safe. -/
def State.legacy (s : State) (n : Nat) : Bool := bitAt (s.reg (.share n)) 30

/-- The step staged on `e` is the one of its slice that R224 displaces: the highest PRIO value, then staged last. -/
def State.lastStaged (s : State) (e : Nat) : Bool :=
  let key := fun (i : Nat) =>
    match (s.engine i).incoming with
    | some (j, k) =>
      match s.job? j with
      | some x => (x.desc.prio + 1) * 2 ^ 80 + ((x.steps[k]?).map PStep.stagedAt).getD 0
      | none => 0
    | none => 0
  let same := (enginesOf (clsOf e)).filter fun i =>
    match (s.engine i).incoming, (s.engine e).incoming with
    | some (j, _), some (j', _) => !s.isProt j && decide (s.sliceOfJob j = s.sliceOfJob j')
    | _, _ => false
  greatestBy key same = some e

/-- The staged job of `e` is displaced (R206): for a protection-class job that finds no empty slot, or under R224. -/
def State.displaces (s : State) (e : Nat) : Option (Nat × Nat) :=
  match (s.engine e).incoming with
  | none => none
  | some (j, _) =>
    let l := s.candidates e
    if s.isProt j || (enginesOf (clsOf e)).any s.slotEmpty then none
    else match s.bestOf (l.filter fun x => s.isProt x.1) with
    | some c => some c
    | none =>
      let n := s.sliceOfJob j
      if s.legacy n && s.lastStaged e then
        s.bestOf (l.filter fun x => decide (s.sliceOfJob x.1 = n) && decide (s.prioOf x.1 < s.prioOf j))
      else none

/-- Protection-class steps staged on a reserved engine whose previous job still runs, which engine `e` of the class may
take instead: `e` runs nothing, and no ready protection-class step is there for it (R223). -/
def State.heldBehind (s : State) (e : Nat) : List (Nat × Nat) :=
  if s.profile ≠ 1 || s.reserved e || (s.engine e).running.isSome || (s.vce e).streaming
      || (match (s.engine e).incoming with | some (j, _) => s.isProt j | none => false)
      || (s.candidates e).any (fun x => s.isProt x.1) then []
  else (enginesOf (clsOf e)).filterMap fun i =>
    if s.reserved i && (s.engine i).running.isSome then
      match (s.engine i).incoming with
      | some (j, k) =>
        match s.job? j with
        | some x => if x.prot && !x.faultyUnits.contains e && s.combinesOn x k e then some (j, k) else none
        | none => none
      | none => none
    else none

/-- The step that leaves a reserved engine's slot for engine `e`, and that engine (R223). DEDUCED, log entry 75, unsafe. -/
def State.movesTo (s : State) (e : Nat) : Option (Nat × Nat × Nat) :=
  match s.bestOf (s.heldBehind e) with
  | some c => ((enginesOf (clsOf e)).find? fun i => (s.engine i).incoming = some c).map fun i => (i, c.1, c.2)
  | none => none

/-- A job waits because no release buffer entry is free: it is recorded (R571). -/
def State.noteRb (s : State) : State :=
  match s.sch.jobs.find? fun (j, x) => decide (x.stage = .active) && s.rbWaits j x with
  | some (_, x) => s.event 1 srcSch 4 x.slice 0xFF (leBytes 1 x.slice)
  | none => s

/-- A SPARE action of an active grant waits for engine `e` to drain (R289, R541). DEDUCED, log entry 80, unsafe. -/
def State.swapWaits (s : State) (e : Nat) : Bool :=
  match mapFind s.accepted Reg.dbgAct.addr with
  | some w => s.dbg.active && bitAt s.dbg.rights 6 && fld w 31 28 = 4 && fld w 15 0 = e
  | none => false

/-- DISPATCH_DECISION, R203, R223: a step staged behind a running job moves to engine `e`, or `e`'s incoming slot is
filled if it is empty, or its staged job displaced. -/
def State.dispatch (s : State) (e : Nat) : State :=
  if !s.up || !s.awake || s.schStopped || !(s.engine e).takes || s.swapWaits e then s
  else
    let s := if s.rbUsed ≥ 65536 then s.noteRb else s
    match s.movesTo e with
    | some (i, j, k) => ((s.unstage i).unstage e).stageOn e j k
    | none =>
      if s.slotEmpty e then
        match s.choose e with
        | some (j, k) => s.stageOn e j k
        | none => s
      else match s.displaces e with
      | some (j, k) => (s.unstage e).stageOn e j k
      | none => s

def execDispatchDecision (e : Nat) (s : State) : Host.Outcome State Fault Refusal := .next (s.dispatch e)

/-- The data of a slot whose read failed is frosted and its handle is stale; where jobs hold it, its entry stays until the last
of them has completed (R432, R436). -/
def KeySlot.wiped (k : KeySlot) : KeySlot :=
  let k := k.freed
  if k.inUse then { k with share0 := [], share1 := [], pads := ([], []), pub := none, lost := true } else k

/-- A read of key slot `i` for job `j` meets an uncorrectable error: the row is marked and recorded (R637, R639), the slot is
frosted and freed, and the job completes KEY_STATE (R432). DESIGN CHOICE, log entry 78, safe. -/
def State.arenaUncorr (s : State) (j i : Nat) : State :=
  let n := (s.slot i).owner
  let (row, s) := (s.markShared srcKey).draw 4
  (((s.event 3 srcKey 5 0 0xFF row).event 6 srcKey 1 n 0xFF (leBytes 2 i ++ leBytes 1 n)).onSlot i KeySlot.wiped).finish j
    (fail .keyState)

/-- The key slots that KEY reads for job `x`: its own, those of its session, and the slot that SUBJECT names (R36, R185,
R442). -/
def State.slotsRead (s : State) (x : Job) : List Nat :=
  let sess := if x.desc.fam = 0x20 ∧ 3 ≤ x.desc.op ∧ x.desc.op ≤ 6 then
      (match s.sessionBy x.slice x.desc.session with
      | some i =>
        let y := s.session i
        (s.bySlot x.slice y.key).toList ++ (if y.nextValid then (s.bySlot x.slice y.keyNext).toList else [])
      | none => [])
    else []
  let subj := if x.desc.opc = 0x3020 then
      (match keyForm (BitVec.ofNat 64 (leAt x.block 40 8)) with
      | .handle h => (s.bySlot x.slice h).toList
      | _ => [])
    else []
  x.key.toList ++ sess ++ subj

/-- A slot's body in `k` Boolean shares under fresh masks of SHARE (R276, R431). DESIGN CHOICE, log entry 58, unsafe. -/
def State.shares (s : State) : Nat → Bytes → List Bytes × State
  | 0, b => ([b], s)
  | 1, b => ([b], s)
  | k + 1, b =>
    let (r, s) := s.generate 4 b.length
    let (l, s) := s.shares k (xorBytes b r)
    (r :: l, s)

/-- Shares in which KEY delivers a secret to step `step` of the job on engine `e`: K of them to a VCE, where K = 1 takes two,
which
the loader recombines; two to another engine (R276, R681). -/
def State.shareCount (s : State) (e : Nat) (x : Job) : Nat :=
  if clsOf e = .vce ∧ (s.jobInfo x).masked then max 2 (x.order + 1) else 2

/-- The last step of a statement signs with the statement key (R514, R519). -/
def Job.signsStatement (x : Job) (k : Nat) : Bool :=
  decide (x.desc.fam = 0x60) && (x.desc.op = 1 || x.desc.op = 2) && decide (k + 1 = x.steps.length)

/-- Bytes of a half of the working buffer of a class; a CDE has one buffer (R38, R682). -/
def halfBytes : Cls → Nat
  | .hse => 8 * 1024 | .cle | .ste => 16 * 1024 | .cde => 512 * 1024 | .vce => 0

/-- What of the block and the input of a job lies in the buffer of its engine: as much as a half holds. An encapsulation of
Classic McEliece streams the public key through it in pieces of 4 KiB (R144). DESIGN CHOICE, log entry 26, unsafe. -/
def Job.buffered (x : Job) (c : Cls) : Bytes :=
  let inp := x.input.getD []
  (x.block ++ (if x.desc.fam = 7 ∧ x.desc.op = 3 then inp.take 4096 else inp)).take (halfBytes c)

/-- KEY reads slot `i`, its shares re-randomised, and delivers it to the incoming slot of engine `e` (R36, R431, R681). -/
def State.deliverSlot (s : State) (e : Nat) (x : Job) (i : Nat) : State :=
  let s := s.readSlot i
  let k := s.slot i
  let (l, s) := if k.kind = 1 then ([k.body], s) else s.shares (s.shareCount e x) k.body
  s.onEngine e fun y => { y with next := { y.next with
    keys := mapInsert y.next.keys i l, pads := if k.pads = ([], []) then y.next.pads else mapInsert y.next.pads i k.pads } }

/-- The statement key is delivered to the incoming slot of engine `e`. -/
def State.deliverStatement (s : State) (e : Nat) (x : Job) : State :=
  let (l, s) := s.shares (s.shareCount e x) (s.stKey.getD [])
  s.onEngine e fun y => { y with next := { y.next with keys := mapInsert y.next.keys 16384 l } }

/-- The randomness of an attempt is drawn once and in full: by the slice's instance, which a fresh block reseeds first where the
operation takes one (R469); the seed of each masked step, the blinding seed and the masks of a RAW output by theirs (R117). A
bad
inline key draws nothing (R122). -/
def State.drawFor (s : State) (j : Nat) (x : Job) : State :=
  if x.drawn then s
  else
    let l := x.instances (s.jobInfo x)
    let s := match s.rng.granted.find? fun g => g.1 = j with
      | some g => s.freshSlice x.slice g.2
      | none => s
    let (b, s) := if x.inlineKem && x.badInline then ([], s) else s.generate (256 + x.slice) x.drawLen
    let (m, s) := if l.contains 2 then s.generate 2 (32 * x.steps.length) else ([], s)
    let (r, s) := if l.contains 3 then s.generate 3 32 else ([], s)
    let (k, s) := if x.masksRaw && l.contains 4 then s.generate 4 x.maskLen else ([], s)
    let s := { s with rng := { s.rng with granted := s.rng.granted.filter (·.1 ≠ j) } }
    s.onJob j fun x => { x with drawn := true, rand := b, seeds := m, blind := r, rawMask := k }

/-- The staged step on engine `e` is in place: KEY and RNG have delivered the shares and the seed, and an HSE, CDE, CLE or STE
has
the block and the input in the half that fills (R36, R431, R681). -/
def State.deliverStaged (s : State) (e j : Nat) (x : Job) : State :=
  let k := ((s.engine e).incoming.map (·.2)).getD 0
  let s := s.onEngine e fun y => { y with next := { data := x.buffered (clsOf e) } }
  let s := (s.slotsRead x).foldl (fun (s : State) i => s.deliverSlot e x i) (s.drawFor j x)
  let s := if x.signsStatement k then s.deliverStatement e x else s
  let y := (s.job? j).getD x
  s.onEngine e fun z => { z with
    loaded := true
    next := { z.next with seed := if clsOf e = .vce then cut y.seeds (32 * k) 32 else y.blind } }

/-- RNG and KEY can deliver what the staged job needs: its draw is made or can be, and SHARE serves the reads of its secrets
(R117, R431, R468, R473). -/
def State.deliverable (s : State) (x : Job) : Bool :=
  (x.drawn || x.takesFresh || s.canRun x)
    && (s.canServe 4 || ((s.slotsRead x).all fun i => (s.slot i).kind = 1) && decide (x.desc.fam ≠ 0x60))

/-- The input of job `j` is in the part: what is staged is put in place. Where an instance cannot serve, the delivery waits, and
with no noise source left the job ends (R473, R474). A slot whose data an error has frosted ends it too (R432).
DESIGN CHOICE, log entry 89, unsafe. -/
def State.inputReady (s : State) (j : Nat) (x : Job) : State :=
  match allEngines.find? fun e => ((s.engine e).incoming.map (·.1)) = some j && !(s.engine e).loaded with
  | none => s
  | some _ =>
    if (s.slotsRead x).any fun i => (s.slot i).lost then s.finish j (fail .keyState)
    else if !s.deliverable x then (if s.rng.noSource then s.noEntropy j else s)
    else allEngines.foldl (fun (s : State) (e : Nat) =>
      if ((s.engine e).incoming.map (·.1)) = some j && !(s.engine e).loaded then s.deliverStaged e j x else s) s

/-- The rest of the blob that SUBJECT of a WRAP names in host memory is read, and its length decides OUT_CAP (R99, R439). -/
def State.subjectArrives (s : State) (j : Nat) (x : Job) : State :=
  match x.subjectRead with
  | (a, _) :: _ =>
    (match x.tooSmall (some (roundUp (leAt x.subject 36 4) 8 + 8)) with
    | some r => s.finish j r
    | none => s.jobRead j x.slice (a + 64) (16 + leAt x.subject 36 4))
  | [] => s

/-- INPUT_STAGED, R275, R681: the job's parameter block, input, key shares and seed are in place; or a key slot was read
with an error, its own or another that KEY reads for it (R432). -/
def execInputStaged (j : Nat) (d : StagedData) (s : State) : Host.Outcome State Fault Refusal :=
  .next (match s.job? j with
    | some x =>
      if x.stage = .done ∨ x.stage = .held then s
      else match (if d.keyBad then (s.slotsRead x).head? else if d.otherBad then (s.slotsRead x).getLast? else none) with
      | some i => s.arenaUncorr j i
      | none =>
        let x := { x with input := some (fit x.desc.inLen d.input), subject := d.subject, readAt := none }
        ((s.putJob j x).inputReady j x).subjectArrives j x
    | none => s)

/-- ENTROPY_AVAILABLE, R198, R473, R477: the job that waits has its randomness, in ENTROPY_WAIT or for its delivery. -/
def execEntropyAvailable (j : Nat) (s : State) : Host.Outcome State Fault Refusal :=
  .next (match s.job? j with
    | some x => (s.entropyFor j x).getD (if x.input.isSome ∧ x.stage = .active then s.inputReady j x else s)
    | none => s)

/-! The start of a job (R117, R199, R219, R250, R275, R276, R347, R681) -/

/-- Bytes as rows of 576 bytes. -/
def rowsOf : Nat → Bytes → List Row
  | 0, _ => []
  | n + 1, b => BitVec.ofNat 4608 (leVal (b.take 576)) :: rowsOf n (b.drop 576)

/-- Puts the rows of a byte string from row `at_` on. -/
def Vce.putBytes (v : Vce) (at_ : Nat) (b : Bytes) (secret : Bool) (share : Nat) : Vce :=
  let l := rowsOf (ceilDiv b.length 576) b
  (List.range l.length).foldl (fun (v : Vce) i =>
    v.setRow (at_ + i) { bits := (l[i]?).getD 0, secret := secret, share := share }) v

/-- The address at which the kernel of a job is entered: by its entry word for a customer call, else in the vendor or the
metrology range (R346, R348, R349). -/
def State.kernelEntry (s : State) (x : Job) : Nat :=
  if x.desc.fam = 0x70 then ((s.callEntry (x.desc.opc.toNat % 256)).map CallEntry.entry).getD 0
  else if x.desc.fam = 0x60 then 0x2C00 + Config.vendorEntry x.desc.opc.toNat % 0x400
  else Config.vendorEntry x.desc.opc.toNat % 0x2C00

/-- The kernel context of a job on engine `e`, and the engine's rows (R275 to R280, R347, R350). -/
def State.loadKernel (s : State) (e : Nat) (x : Job) (step slot : Nat) : State :=
  let area := 160 * (s.engine e).area
  let call := if x.desc.fam = 0x70 then s.callEntry (x.desc.opc.toNat % 256) else none
  let k := if (s.jobInfo x).masked then x.order + 1 else 1
  let stmt := x.signsStatement step
  let key := if stmt then some (statementSlot (s.epoch 127) [] (s.stKey.getD [])) else x.key.map s.slot
  let body := (key.map KeySlot.body).getD []
  let secret := (key.map fun y => decide (y.kind ≠ 1)).getD false
  let copies := if secret then k else 1
  let given := mapGet [body] (s.engine e).next.keys (if stmt then 16384 else x.key.getD 0)
  let sh := if copies = 1 then [if given.length = 2 then xorBytes (given.getD 0 []) (given.getD 1 []) else given.getD 0 []] else given
  let inp := x.input.getD []
  let br := ceilDiv x.block.length 576
  let kr := ceilDiv body.length 576
  let ir := ceilDiv inp.length 576
  let streamed := br + ir + kr * copies > 160
  let keyRow := area + br + (if streamed then 0 else ir)
  let ctx : KernelCtx := {
    kind := if x.desc.fam = 0x70 then .customer else if x.desc.fam = 0x60 then .metrology else .vendor
    k := k, area := area, slot := 340 + 16 * slot
    blockRow := if x.block = [] then 0 else area, blockLen := x.block.length
    inRow := if streamed then 0 else area + br, inLen := x.desc.inLen
    keyRow := if key.isSome then keyRow else 0, keyLen := body.length, keyDist := if secret then kr else 0
    outCap := x.desc.outCap, hasKey := key.isSome
    keyKcall := (key.map fun y => decide ((y.usage &&& BitVec.ofNat 32 rKERNEL) ≠ 0)).getD false
    keySeal := (key.map fun y => y.policyBit pSEAL).getD false
    destHost := x.dest = 0, limit := (call.map fun c => 2 ^ (16 + c.limit)).getD 0, spill := (call.map CallEntry.spill).getD 20 }
  let seed := if k ≥ 2 ∧ (s.engine e).next.seed ≠ [] then some (s.engine e).next.seed else none
  s.onVce e fun v =>
    let v := { v.jobStart ctx seed (s.kernelEntry x) with entered := x.desc.fam ≠ 0x70 }
    let v := v.putBytes area x.block false 0
    let v := if streamed then { v with streaming := true, arrived := 0, released := 0 }
      else v.putBytes (area + br) inp false 0
    let v := (List.range sh.length).foldl (fun (v : Vce) i =>
      v.putBytes (keyRow + i * kr) ((sh[i]?).getD []) secret i) v
    let regs := [ctx.blockRow, ctx.blockLen, ctx.inRow, ctx.inLen, ctx.keyRow, ctx.keyLen, ctx.keyDist, ctx.slot,
      ctx.outCap, ctx.k, 320, 372]
    (List.range 12).foldl (fun (v : Vce) i => v.setScal (i + 1) (BitVec.ofNat 36 ((regs[i]?).getD 0))) v

/-- A saved job takes up its image on engine `e`, its block, input and key shares delivered again (R283, R284). -/
def State.restoreKernel (s : State) (e j : Nat) (x : Job) (step slot : Nat) : State :=
  match mapFind s.cmc.saves j with
  | none => s.loadKernel e x step slot
  | some old =>
    let s := s.loadKernel e x step slot
    let fresh := s.vce e
    let s := s.onVce e fun v => { old with
      ctx := v.ctx, rows := v.rows.foldl (fun (m : SMap RowCell) c => mapInsert m c.1 c.2) old.rows
      streaming := old.streaming || fresh.streaming, entered := true, upc := 0xC0 }
    { (s.onVce e fun v => if v.streaming then { v with arrived := v.released } else v) with
      cmc := { s.cmc with saves := mapErase s.cmc.saves j } }

/-! Stateful leaves at the start (R136, R453) -/

/-- A commit of RESV_END starts, or is held back (R453, R529). -/
def StfRecord.startCommit (r : StfRecord) (hold : Bool) : StfRecord :=
  { r with pending := true, target := min (r.log.getLastD 0 + 64) r.total, heldBack := hold }

/-- A leaf is given out; a background commit starts when 16 leaves or fewer remain. -/
def StfRecord.giveLeaf (r : StfRecord) (hold : Bool) : StfRecord :=
  let r := { r with next := r.next + 1 }
  let e := r.log.getLastD 0
  if e - r.next ≤ 16 ∧ e < r.total ∧ !r.pending then r.startCommit hold else r

/-- A stateful signature obtains its leaf as it starts (R136). DEDUCED, log entry 69, unsafe. -/
def State.startLeaf (s : State) (j : Nat) (x : Job) : State :=
  match x.key.bind fun i => s.recordOf (s.slot i).keyId with
  | none => s.finish j (fail .keyState)
  | some i =>
    let r := mapGet {} s.kmg.stf i
    if r.next = r.total then s.finish j (fail .statefulExhausted)
    else if r.next = r.log.getLastD 0 then
      if r.pending then s.finish j (fail .statefulBusy)
      else (s.onRecord i fun r => r.startCommit s.commitsHeld).onJob j fun x => { x with waitCommit := true }
    else (s.onRecord i fun r => r.giveLeaf s.commitsHeld).onJob j fun x => { x with leaf := some r.next }

/-! Sessions at the start (R185, R186) -/

/-- The context of session `i` as a job at station time `t` finds it: EXPIRED when its time has come, and the next key
in place of the old one after the grace period (R185). -/
def State.sessionTime (s : State) (i t : Nat) : State :=
  let x := s.session i
  let s := if x.st = .active ∧ x.expiry ≠ 0 ∧ x.expiry ≤ t then s.onSession i fun x => { x with st := .expired } else s
  if x.nextValid ∧ x.activate + x.graceUs * 1000 ≤ t then
    (s.unpin x.key).onSession i fun x => { x with key := x.keyNext, keyNext := 0, nextValid := false }
  else s

/-- A family 0x20 job on an existing session starts at time `t`. -/
def State.startSession (s : State) (j : Nat) (x : Job) : State :=
  match s.sessionBy x.slice x.desc.session with
  | none => s.finish j (fail .keyState)
  | some i =>
    let s := (s.sessionTime i s.now).onJob j fun x => { x with startAt := s.now }
    let y := s.session i
    if x.desc.op ≥ 3 ∧ y.st = .expired then s.finish j (fail .keyExpired)
    else if x.desc.op = 3 ∨ x.desc.op = 5 then
      if y.txCounter ≥ 2 ^ 64 - 1 then s.finish j (fail .keyState)
      else
        (s.onSession i fun y => { y with txCounter := y.txCounter + 1 }).onJob j fun x =>
          { x with counter := some y.txCounter }
    else s

/-- What a job takes at the moment it first starts in an attempt. -/
def State.startTakes (s : State) (j : Nat) : State :=
  match s.job? j with
  | none => s
  | some x =>
    if (x.desc.fam = 4 ∨ x.desc.fam = 5) ∧ x.desc.op = 1 then (if x.leaf.isNone && !x.waitCommit then s.startLeaf j x else s)
    else if x.desc.fam = 0x20 ∧ x.desc.op ≠ 0 then (if x.counter.isNone then s.startSession j x else s)
    else s

/-- The record of a job that starts: it counts as started, with its attempt. -/
def Job.begun (x : Job) (el : Nat) : Job :=
  { x with started := true, attempts := max 1 x.attempts, begunAt := if x.started then x.begunAt else el }

/-- What the running job derives in its buffer from what it was given: on a CDE the order of its visits (R400) and the first
rows of
the matrix of a key generation (R401), on an HSE the states and nodes that it works on (R396).
DESIGN CHOICE, log entry 26, unsafe. -/
def Job.working (x : Job) (c : Cls) (b : EngBuf) : EngBuf :=
  match c with
  | .cde => { b with
      order := Config.visitOrder x.desc.opc.toNat b.seed
      work := if x.desc.fam = 7 ∧ x.desc.op = 0 then (Config.mceMatrix x.desc.set x.rand 0).take (2 ^ 19) else [] }
  | .hse => { b with work := (Config.hseStates x.desc.opc.toNat b.data).take (halfBytes .hse) }
  | _ => b

/-- An HSE, CDE, CLE or STE takes the half of its buffer that the staged job has filled, or the buffer areas of a save (R395,
R681); a key generation of Classic McEliece takes a scratch area for its matrix (R401). -/
def State.takeHalf (s : State) (e j : Nat) (x : Job) : State :=
  let c := clsOf e
  let s := s.onEngine e fun y => { y with
    cur := (mapFind s.cmc.buffers j).getD (x.working c y.next), next := {} }
  let mat := if c = .cde ∧ x.desc.fam = 7 ∧ x.desc.op = 0 ∧ (mapFind s.cmc.scratch j).isNone then
      mapInsert s.cmc.scratch j (Config.mceMatrix x.desc.set x.rand 0, 0)
    else s.cmc.scratch
  let s := if (mapFind mat j).isSome then s.writePlace (s.scratchPlace e) else s
  { s with cmc := { s.cmc with buffers := mapErase s.cmc.buffers j, scratch := mat } }

/-- A round boundary of a key generation of Classic McEliece on CDE `e`: the rows worked on go back to the scratch area and the
next 512 KiB of rows come in (R395, R401, R412). DESIGN CHOICE, log entry 26, unsafe. -/
def State.matrixRound (s : State) (e j : Nat) (x : Job) : State :=
  match mapFind s.cmc.scratch j with
  | none => s
  | some (_, r) =>
    let m := Config.mceMatrix x.desc.set x.rand (r + 1)
    ({ s with cmc := { s.cmc with scratch := mapInsert s.cmc.scratch j (m, r + 1) } }).onEngine e fun y =>
      { y with cur := { y.cur with work := cut m (2 ^ 19 * ((r + 1) % 4)) (2 ^ 19) } }

/-- ns in which the fabric port of engine `e` reads the save image of job `j` at 32 GB/s (R35, R222, R283, R395). -/
def State.restoreNs (s : State) (e j : Nat) : Nat :=
  if clsOf e = .vce then ceilDiv (18432 + 1536 + 576 * (mapGet {} s.cmc.saves j).ctx.spill) 32
  else max 1 (ceilDiv (mapGet {} s.cmc.buffers j).data.length 32)

/-- Step `k` of job `j` begins on engine `e` with result slot `slot`. -/
def State.beginOn (s : State) (e j k slot : Nat) : State :=
  match s.job? j with
  | none => s
  | some x =>
    let p := (x.steps[k]?).getD {}
    let s := s.drawFor j x
    let x := (s.job? j).getD x
    let s := s.onEngine e fun y => { y with incoming := none, loaded := false, running := some (j, k), since := s.el }
    let s := s.onJob j fun x => (x.begun s.el).onStep k fun p => { p with st := .running, restore := false }
    let s := s.onJob j fun x => { x with areas := x.areas.filter fun a => a.step ≠ k }
    let t := if p.restore then s.el + s.restoreNs e j else 0
    let s := if clsOf e = .vce then (if p.restore then s.restoreKernel e j x k slot else s.loadKernel e x k slot)
      else s.takeHalf e j x
    let s := s.onEngine e fun y => { y with restEnd := t }
    if p.restore then s else s.startTakes j

/-! Reads of the internal region that fail (R409) -/

/-- The session that a job names, where its context cannot be read. -/
def State.lostContext (s : State) (x : Job) : Option Nat :=
  if x.desc.fam = 0x20 ∧ x.desc.op ≠ 0 then
    match s.sessionBy x.slice x.desc.session with
    | some i => if (s.session i).unread then some i else none
    | none => none
  else none

/-- The read of a save image fails: the suspended job completes ENGINE_FAULT without retry. -/
def State.imageLost (s : State) (j b : Nat) : State := (s.readFails b).finish j (fail .engineFault)

/-- What a job that starts or resumes step `k`, `p`, needs cannot be read: the state in which it has completed. -/
def State.startLoss (s : State) (j k : Nat) (x : Job) (p : PStep) : Option State :=
  if p.restore then ((x.areas.find? fun a => a.step = k).bind SaveArea.bad).map fun b => s.imageLost j b
  else (s.lostContext x).map fun i => s.contextLost j i

/-- The save area of step `k` of a job (R226). -/
def State.stepArea (s : State) (k : Nat) (x : Job) : Option (Nat × Nat) :=
  (x.areas.find? fun a => a.step = k).map fun a => s.areaPlace a.cde a.num

/-- The read of a save image waits for its group (R411). -/
def State.imageWaits (s : State) (k : Nat) (x : Job) : Bool :=
  (s.stepArea k x).any fun p => s.groupsWait p.1 p.2

/-- Step `k` of job `j` begins, carried out by the scheduler, KEY or the steward. -/
def State.beginHere (s : State) (j k : Nat) (x : Job) : State :=
  let s := (s.takeRb j).drawFor j x
  (s.onJob j fun x => (x.begun s.el).onStep k fun p => { p with st := .running }).startTakes j

/-- A result slot of engine `e` that no result occupies. -/
def Engine.freeSlot (x : Engine) : Option Nat := [0, 1].find? fun k => !x.results.any fun r => decide (r.2 = k)

/-- The engine may start its staged job (R219, R297, R681). -/
def Engine.mayStart (x : Engine) : Bool :=
  x.running.isNone && x.build.isNone && x.lend.isNone && x.loaded && !x.gated && !x.thawing && x.takes && !x.saving

/-- JOB_START, R199, R219, R681: the staged step starts, or a step that the scheduler, KEY or the steward carries out. -/
def State.startStep (s : State) (j k : Nat) : State :=
  match s.job? j with
  | none => s
  | some x =>
    match x.steps[k]? with
    | none => s
    | some p =>
      if !s.awake || s.schStopped || x.stage ≠ .active || x.waitCommit then s
      else if p.cls.isNone then
        if p.st = .ready ∧ (x.desc.inLen = 0 ∨ x.input.isSome) ∧ !s.rbWaits j x then
          if !x.drawn && !s.canRun x && !x.takesFresh then (if s.rng.noSource then s.noEntropy j else s)
          else (s.startLoss j k x p).getD (s.beginHere j k x)
        else s
      else if (s.engine p.engine).incoming = some (j, k) ∧ (s.engine p.engine).mayStart ∧ !s.imageWaits k x
          ∧ (x.prot ∨ !s.lendFirst p.engine) then
        match (s.engine p.engine).freeSlot with
        | some slot => (s.startLoss j k x p).getD (s.beginOn p.engine j k slot)
        | none => s
      else s

def execJobStart (j k : Nat) (s : State) : Host.Outcome State Fault Refusal := .next (s.startStep j k)

/-- STREAM_ROW_ARRIVAL, R278, R314: the next row of a streamed input arrives. At most as
many rows lie unreleased as the window has. -/
def execStreamRowArrival (e : Nat) (bits : Row) (s : State) : Host.Outcome State Fault Refusal :=
  .next (
    let v := s.vce e
    if v.streaming ∧ v.arrived < v.released + v.ctx.windowRows ∧ v.arrived < ceilDiv v.ctx.inLen 576 then
      s.onVce e fun v => { v with
        arrived := v.arrived + 1, rows := mapInsert v.rows (1000 + v.arrived) { bits := bits } }
    else s)

/-! Pre-emption and saving (R222 to R226, R283 to R285) -/

/-- The numbers of the save areas of a kind that are taken. -/
def State.areasTaken (s : State) (cde : Bool) : List Nat :=
  s.sch.jobs.flatMap fun (_, x) => (x.areas.filter fun a => decide (a.cde = cde)).map SaveArea.num

/-- Save areas of that kind in use. -/
def State.areasUsed (s : State) (e : Nat) : Nat := (s.areasTaken (clsOf e = .cde)).length

/-- The lowest free save area of that kind. DESIGN CHOICE, log entry 29, unsafe. -/
def State.freeArea (s : State) (e : Nat) : Nat :=
  let taken := s.areasTaken (clsOf e = .cde)
  ((List.range 512).find? fun k => !taken.contains k).getD 0

/-- Protection-class jobs of a class that wait: ready, or staged behind a running job on a reserved engine (R223). -/
def State.protWaiting (s : State) (c : Cls) : Nat :=
  let ready := (s.sch.jobs.filter fun (_, x) => x.prot && decide (x.stage = .active) && (x.readySteps c) ≠ []).length
  let staged := ((enginesOf c).filter fun e => s.reserved e && (s.engine e).running.isSome &&
    (match (s.engine e).incoming with | some (j, _) => s.isProt j | none => false)).length
  ready + staged

/-- A reserved engine of the class can start a job at once. -/
def State.reservedFree (s : State) (c : Cls) : Bool :=
  (enginesOf c).any fun e => s.reserved e && (s.engine e).takes && (s.engine e).running.isNone
    && (s.engine e).incoming.isNone && (s.engine e).freeSlot.isSome

/-- The order in which running jobs are pre-empted: highest PRIO value, then started last, its first entry to RUNNING
counting (R199, R223). -/
def State.victimKey (s : State) (e : Nat) : Nat :=
  match (s.engine e).running with
  | some (j, _) => match s.job? j with | some x => (x.desc.prio + 1) * 2 ^ 80 + x.begunAt | none => 0
  | none => 0

/-- Engines of a class whose running job may be pre-empted: not of protection class, not saving or restoring (R223), the unit
not draining (R289). -/
def State.victims (s : State) (c : Cls) : List Nat :=
  (enginesOf c).filter fun e => !(s.engine e).saving && (s.engine e).restEnd = 0 && (s.engine e).retiring = 0 &&
    (match (s.engine e).running with | some (j, _) => !s.isProt j | none => false)

/-- The running job of `e` is pre-empted now under R223 or R224. -/
def State.preempts (s : State) (e : Nat) : Bool :=
  let c := clsOf e
  let saving := ((enginesOf c).filter fun i => (s.engine i).saving).length
  let native := s.profile = 1 && c ≠ .cde && s.protWaiting c > saving && !s.reservedFree c
    && greatestBy s.victimKey (s.victims c) = some e
  let legacy := match (s.engine e).running with
    | some (j, _) =>
      let n := s.sliceOfJob j
      let own := (s.victims c).filter fun i =>
        match (s.engine i).running with | some (j', _) => decide (s.sliceOfJob j' = n) | none => false
      let lowerStaged := fun (p : Nat) => (enginesOf c).any fun i =>
        match (s.engine i).incoming with
        | some (j', _) => decide (s.sliceOfJob j' = n) && !s.isProt j' && decide (p < s.prioOf j')
        | none => false
      let begun := ((enginesOf c).filter fun i => (s.engine i).saving &&
        (match (s.engine i).running with | some (j', _) => decide (s.sliceOfJob j' = n) | none => false)).length
      let waiting := (s.sch.jobs.filter fun (_, x) => decide (x.slice = n) && !x.prot && decide (x.stage = .active)
        && (x.readySteps c) ≠ [] && decide (x.desc.prio < s.prioOf j) && !lowerStaged x.desc.prio).length
      s.legacy n && !s.isProt j && greatestBy s.victimKey own = some e && !(enginesOf c).any s.slotEmpty
        && decide (waiting > begun)
    | none => false
  native || legacy

/-- A save of step `st` begins: it takes a save area (R226), and a VCE enters SAVE (R358, R374). `halt`: the reserve may be
used. -/
def State.beginSave (s : State) (e j st : Nat) (halt : Bool) : State :=
  let (all, keep) := s.saveAreas (clsOf e = .cde)
  if s.areasUsed e + (if halt then 0 else keep) ≥ all then (if halt then s else s.event 1 srcSch 7)
  else
    let s := s.onEngine e fun x => { x with saving := true }
    let s := if clsOf e = .vce then s.onVce e fun v => { v with resume := v.upc, upc := 0x80, safe := false } else s
    let k := s.freeArea e
    let s := s.onJob j fun x => { x with areas := x.areas ++ [{ step := st, cde := clsOf e = .cde, num := k }] }
    if halt then s
    else match s.job? j with
    | some x => s.event 1 srcSch 6 x.slice e (leBytes 2 x.qid ++ leBytes 1 (engineCode (clsOf e) (s.engine e).logical))
    | none => s

/-- The save image of the job on a VCE that has run for `ran` cycles (R283, R353). -/
def Vce.image (v : Vce) (ran : Nat) : Vce :=
  { v with rows := mapKeep v.rows fun n _ => 320 ≤ n && n < 320 + v.ctx.spill, wd := 0, dp := 0, spent := v.spent + ran }

/-- SAVE_DONE, R225, R226, R283, R284: the image is in its save area; the job is SUSPENDED and the engine frosted, with the
result slot that the job had reserved (R355). -/
def execSaveDone (e : Nat) (s : State) : Host.Outcome State Fault Refusal :=
  .next (match (s.engine e).running with
    | some (j, k) =>
      let place := (s.stepArea k ((s.job? j).getD {})).getD (0, 0)
      if !(s.engine e).saving || s.groupsWait place.1 place.2 then s
      else
        let s := s.writePlace place
        let m := if clsOf e = .vce then { s.cmc with saves := mapInsert s.cmc.saves j ((s.vce e).image (engCycles (s.el - (s.engine e).since))) }
          else { s.cmc with buffers := mapInsert s.cmc.buffers j (s.engine e).cur }
        let s := { s with cmc := m }
        let s := ((s.leaveRunning e).frostJob e true).onEngine e fun x => { x with saving := false }
        s.onJob j fun x => x.onStep k fun p => { p with st := .suspended, engine := 0, restore := true }
    | none => s)

/-! The collector and the release (R49, R98, R220, R227 to R229) -/

/-- A buffer's segments from byte `skip` on, with the bytes that go there. -/
def segWrites : List (Nat × Nat) → Nat → Bytes → List (Nat × Bytes)
  | [], _, _ => []
  | (a, n) :: r, skip, b =>
    if skip ≥ n then segWrites r (skip - n) b
    else
      let k := n - skip
      if b = [] then [] else (a + skip, b.take k) :: segWrites r 0 (b.drop k)

/-- Bytes are written into the output of job `x` from offset `o`. DESIGN CHOICE, log entry 55, unsafe. -/
def State.writeOut (s : State) (x : Job) (o : Nat) (b : Bytes) : State :=
  (segWrites x.outSegs o b).foldl (fun (s : State) w =>
    (writePieces w.1 w.2.length).foldl (fun (s : State) (g : Nat × Nat) =>
      s.request (s.pasidOf x.slice) g.1 g.2 (.memWrite (s.pasidOf x.slice) g.1 (cut w.2 (g.1 - w.1) g.2))) s) s

/-- A result of `e` that the collector has not taken: the job. -/
def State.waitingResult (s : State) (e : Nat) : Option Nat :=
  ((s.engine e).results.find? fun r =>
    match s.job? r.1 with | some x => decide (x.stage ≠ .done) && x.computed.isSome | none => false).map (·.1)

/-- The port that the collector serves next. -/
def State.nextPort (s : State) : Option Nat :=
  ((List.range 71).map fun i => (s.sch.lastPort + 1 + i) % 71).find? fun e => (s.waitingResult e).isSome

/-- The engine whose result slot holds the result of job `j`. -/
def State.resultOn (s : State) (j : Nat) : Option Nat :=
  allEngines.find? fun e => (s.engine e).results.any fun r => decide (r.1 = j)

/-- The result that is delivered: an output longer than OUT_CAP is not written (R98). -/
def Job.delivered (x : Job) (r : Result) : Result :=
  if r.status = .ok ∧ r.out.length > x.desc.outCap then { status := .outTooSmall, need := r.out.length } else r

/-- A statement that is given out issues its counter value (R517 to R519). DESIGN CHOICE, log entry 36, safe. -/
def State.issueCounter (s : State) (x : Job) (r : Result) : State :=
  if x.desc.opc = 0x6010 ∧ r.status = .ok then { s with mp := { s.mp with ctrLast := some (leAt r.out 8 8) } } else s

/-- The result of job `j` is taken: output written, DONE, stamped (R96 to R98, R220); output written before a tag failed is
overwritten with zeros (R98). Of steps that run side by side, ENGINE names the one whose result slot is found.
DESIGN CHOICE, log entry 86, unsafe. -/
def State.collect (s : State) (j : Nat) (x : Job) (r : Result) : State :=
  let r := x.delivered r
  let s := if r.status = .ok then s.writeOut x x.wrote (r.out.drop x.wrote)
    else if r.status = .tagMismatch then s.writeOut x 0 (zeros x.wrote) else s
  let (code, onEngine, s) := match s.resultOn j with
    | some e => (engineCode (clsOf e) (s.engine e).logical, true, { s with sch := { s.sch with lastPort := e } })
    | none => (0x7E, false, s)
  let s := ((s.issueCounter x r).lapse j).onJob j fun x => { x with
    stage := .done, result := { r with key := [] }, stamp := s.now, engineCode := code, frosted := !onEngine, computed := none
    areas := [], abort := none, stopReq := false, scratch := false, passed := [], drawn := false, rand := []
    seeds := [], blind := [], rawMask := [], needScratch := false, waitCommit := false, readAt := none
    steps := x.steps.map fun p => { p with st := .finished } }
  s.takeRb j

/-- JOB_RESULT, R220: the collector takes the result of job `j`, which the round-robin over the ports allows now. -/
def execJobResult (j : Nat) (s : State) : Host.Outcome State Fault Refusal :=
  .next (match s.job? j with
    | some x =>
      match x.computed with
      | some r =>
        if x.stage ≠ .active then s
        else match s.resultOn j with
        | some e => if s.nextPort = some e ∧ s.waitingResult e = some j then s.collect j x r else s
        | none => s.collect j x r
      | none => s
    | none => s)

/-- FROST_DONE, R49, R282, R682: every local row of the job is frosted and its result slot is free. -/
def execFrostDone (j : Nat) (s : State) : Host.Outcome State Fault Refusal :=
  .next (match s.job? j with
    | some x =>
      if x.stage = .done ∧ !x.frosted ∧ (s.runningOn j).isNone then
        (allEngines.foldl (fun (s : State) (e : Nat) => s.freeResult e j) s).onJob j fun x => { x with frosted := true }
      else s
    | none => s)

/-- FLOW_RELEASE, R227, R228: the entry of job `j` is issued in its place; jobs that waited for it go on. -/
def execFlowRelease (j : Nat) (s : State) : Host.Outcome State Fault Refusal :=
  .next (
    let s' := s.issue j
    if (s'.job? j).isNone ∧ (s.job? j).isSome then s'.passHeld else s)

/-- RB_ENTRY_FREE, R229: the earliest job that reached DONE without an entry takes one that is free. -/
def execRbEntryFree (s : State) : Host.Outcome State Fault Refusal :=
  .next (
    if s.rbUsed ≥ 65536 then s
    else match s.sch.jobs.find? fun (j, x) => decide (x.stage = .done) && !x.rbEntry && s.flowAhead j x with
    | some (j, x) => s.putJob j { x with rbEntry := true }
    | none => s)

/-- The result of a job on VCE `e` lies in its result slot, after what was streamed; key material for KEY in marked rows, in
K fresh shares of a masked job (R276, R280, R313). DEDUCED, log entry 91, unsafe. -/
def State.placeResult (s : State) (e slot : Nat) (r : Result) : State :=
  if clsOf e ≠ .vce then s
  else
    let c := (s.vce e).ctx
    let b := (r.out.drop (s.vce e).streamed.length).take 9216
    let at_ := 340 + 16 * slot
    let (sh, s) := if r.key = [] then ([], s) else s.shares (if c.k ≥ 2 then c.k else 0) r.key
    let keyAt := at_ + ceilDiv b.length 576
    let kr := ceilDiv r.key.length 576
    s.onVce e fun v => (List.range sh.length).foldl (fun (v : Vce) i =>
      v.putBytes (keyAt + i * kr) ((sh[i]?).getD []) (decide (c.k ≥ 2)) i) (v.putBytes at_ b false 0)

/-- A step that has computed leaves its engine, whose result slot keeps what it gives (R219, R282). -/
def State.stepLeaves (s : State) (e j slot : Nat) : State :=
  let r := match s.job? j with | some x => x.computed.getD {} | none => {}
  (((s.placeResult e slot r).leaveRunning e).frostJob e false).onEngine e fun x =>
    { x with results := x.results ++ [(j, slot)] }

end Sys2Proof.Machine
end

