-- ==== Sys2Proof/Machine/Engines.lean ====
section
/-! DEFINITION. Engines as units: faults and machine checks, retries, quarantine, retirement and spares, aging, gating and
thaw (R42 to R45, R269, R285 to R298, R339 to R341, R353, R372 to R380, R392 to R397, R592 to R594, R636 to R644). -/

namespace Sys2Proof.Machine

/-! Faults of a kernel (R339 to R341, R353) -/

/-- What an instruction fault makes of the job: an index for causes 0x01 and 0x02. -/
def faultResult (kd : KernelKind) (cause index : Nat) : Result :=
  if cause = 1 ∨ cause = 2 then fail .gatherFault index
  else match kd with
  | .customer => fail .kernelFault cause
  | _ => fail .engineFault

/-- An instruction fault is taken on VCE `e`: it is recorded and ends the job; the unit stays in service (R341). -/
def State.instrFault (s : State) (e cause index : Nat) : State :=
  match (s.engine e).running with
  | none => s
  | some (j, _) =>
    let n := s.sliceOfJob j
    let v := s.vce e
    let s := s.event 2 (srcEngine e) 0 n e (leBytes 1 cause ++ zeros 1 ++ leBytes 2 v.kaddr ++ leBytes 1 n)
    s.finish j (faultResult v.ctx.kind cause index) (some e)

/-- A customer kernel has spent its cycles in RUNNING, counted across pre-emptions (R353). DESIGN CHOICE, log entry 54,
unsafe. -/
def State.limitReached (s : State) (e : Nat) (v : Vce) : Bool :=
  v.ctx.kind = .customer && v.ctx.limit ≠ 0
    && decide (v.ctx.limit ≤ max v.cycles (v.spent + engCycles (s.el - (s.engine e).since)))

/-- RUN_LIMIT, R353, R372: a customer kernel has spent its cycles in RUNNING; it faults at its next POLL or NEXT, unless an
abort,
which is more urgent, is due there. -/
def execRunLimit (e : Nat) (s : State) : Host.Outcome State Fault Refusal :=
  .next (
    let v := s.vce e
    match (s.engine e).running with
    | some (j, _) =>
      if clsOf e = .vce ∧ v.safe ∧ !v.waiting ∧ !v.lent ∧ ((s.job? j).bind Job.abort).isNone ∧ s.limitReached e v then
        s.instrFault e 0x22 0
      else s
    | none => s)

/-! Safe points (R202, R222, R223, R372) -/

/-- Engine `e` reaches a safe point: a VCE at a POLL, a NEXT or a wait for external data, of which a restore in progress is
none (R222, R372). -/
def State.atSafePoint (s : State) (e : Nat) : Bool :=
  (s.engine e).restEnd = 0 && (clsOf e ≠ .vce || (s.vce e).safe)

/-- An aborted job of a slice that its quiesce limit or its containment ends is counted in ABORTED (R497, R551).
DEDUCED, log entry 47, unsafe. -/
def State.countAborted (s : State) (x : Job) : State :=
  let due : Bool := match x.abort with
    | some r => decide (r.status = .sliceQuiesced) || (decide (r.status = .abortedTamper) && decide ((s.slice x.slice).st = .quiescing))
    | none => false
  if due then s.onSlice x.slice fun y => { y with aborted := sat 0xFFFF (y.aborted + 1) } else s

/-- The job that runs on `e` is at a safe point, on a CDE with `round` at a round boundary. An abort is taken there, else, but
in
a wait for data from outside the engine, a run limit that is reached; else a stop asked for by HALT, or a pre-emption, begins a
save, on a CDE only at a round boundary (R202, R222, R223, R353, R372, R395, R497). An aborted job of a slice that is quiesced
or
contained is counted. DEDUCED, log entry 47, unsafe. -/
def State.safePoint (s : State) (e : Nat) (round : Bool) : State :=
  match (s.engine e).running with
  | none => s
  | some (j, st) =>
    match s.job? j with
    | none => s
    | some x =>
      let s := if clsOf e = .vce then s.onVce e fun v => { v with wd := 0, dp := 0 } else s
      match x.abort with
      | some r =>
        let s := (s.countAborted x).finish j r (some e)
        if (s.engine e).contained then s.frostEngine e else s
      | none =>
        if x.stage = .done then s.dropRunning e
        else if (s.engine e).saving || x.computed.isSome then s
        else if clsOf e = .vce ∧ !(s.vce e).lent ∧ !(s.vce e).waiting ∧ s.limitReached e (s.vce e) then s.instrFault e 0x22 0
        else if clsOf e = .cde && !round then s
        else if (s.engine e).stopReq then s.beginSave e j st true
        else if s.preempts e then s.beginSave e j st false
        else if clsOf e = .cde then s.matrixRound e j x
        else s

/-- SAFE_POINT_STOP, R222, R372: the running job of an engine reaches a safe point. -/
def execSafePointStop (p : SafePoint) (s : State) : Host.Outcome State Fault Refusal :=
  .next (if s.atSafePoint p.unit then s.safePoint p.unit p.round else s)

/-- A stop of the job running on `e` is due at its next safe point: asked for by HALT, or a pre-emption for which a save area
is free (R222, R226, R372). -/
def State.stopDue (s : State) (e : Nat) : Bool :=
  (s.engine e).stopReq ||
    (s.preempts e && decide (s.areasUsed e + (s.saveAreas (clsOf e = .cde)).2 < (s.saveAreas (clsOf e = .cde)).1))

/-! Retirement and spares (R45, R289, R636 to R644) -/

/-- RETIRE_UNIT, R289, R637: the steward decides to retire an active unit. Its staged job is READY again, its running job
runs to its end and its result slots drain; then it is retired. -/
def execRetireUnit (e criterion : Nat) (s : State) : Host.Outcome State Fault Refusal :=
  .next (
    let x := s.engine e
    if x.unit ≠ .active then s
    else if x.running.isSome ∨ x.build.isSome ∨ x.results ≠ [] then
      (s.unstage e).onEngine e fun x => { x with retiring := criterion }
    else s.retire e criterion)

/-- SPARE_BRING_IN, R45, R638, R641: a spare takes the logical number of a retired unit of its class. The new map is in
the spare records before the spare thaws. DESIGN CHOICE, log entry 57, unsafe. -/
def execSpareBringIn (spare old : Nat) (s : State) : Host.Outcome State Fault Refusal :=
  .next (
    let o := s.engine old
    if s.awake ∧ (s.engine spare).unit = .spare ∧ o.unit = .retired ∧ o.logical ≠ 0xFF ∧ clsOf spare = clsOf old then
      let s := s.onEngine old fun x => { x with logical := 0xFF }
      let s := (s.onEngine spare fun x => { x with unit := .active, logical := o.logical }).recordMap
      let s := ((s.frostEngine spare).ungate spare).event 0xE (srcEngine spare) 0 0 spare
      if s.spareUnits (clsOf old) = 0 then s.event 0xE (srcEngine spare) 4 0 spare else s
    else s)

/-- Three of the counted times lie within 24 hours of operating time (R379, R637). -/
def thriceIn24h (l : List Nat) : Bool :=
  match l with
  | a :: _ :: c :: _ => a ≤ c + 86400
  | _ => false

/-- Spare rows are mapped over the marked rows of a unit (R637, R639, R644). DEDUCED, log entry 77, unsafe. -/
def State.repairRows (s : State) (e : Nat) : State :=
  let n := (s.engine e).marked
  if n = 0 then s
  else
    let s := s.onEngine e fun x => { x with marked := 0 }
    ({ s with nvm := { s.nvm with repaired := sat 0xFFFF (s.nvm.repaired + n) } }).event 0xE (srcEngine e) 6 0 e
      (leBytes 2 n)

/-- At a start the steward maps spare rows over every marked row (R45, R639). DEDUCED, log entry 77, unsafe. -/
def State.repairAll (s : State) : State :=
  let s := allEngines.foldl State.repairRows s
  let l := s.nvm.rows
  l.foldl (fun (s : State) (e : Nat × Nat) =>
    ({ s with nvm := { s.nvm with repaired := sat 0xFFFF (s.nvm.repaired + e.2) } }).event 0xE e.1 6 0 0xFF (leBytes 2 e.2))
    { s with nvm := { s.nvm with rows := [] } }

/-- QUARANTINE_TEST_END, R287, R379, R637, R639: marked rows are replaced; the unit is ACTIVE again, or RETIRED. -/
def execQuarantineTestEnd (e : Nat) (pass : Bool) (s : State) : Host.Outcome State Fault Refusal :=
  .next (
    let x := s.engine e
    if x.unit ≠ .quarantined ∨ x.halted ∨ x.contained then s
    else
    let s := s.repairRows e
    if !pass then s.retire e 1
    else if x.retiring ≠ 0 then s.retire e x.retiring
    else if thriceIn24h x.checks then s.retire e 2
    else if thriceIn24h x.faults then s.retire e 3
    else
      ((s.loadConsts e).onEngine e fun x => { x with unit := .active, idleAt := s.el, results := [] }).event 0xE (srcEngine e) 2 0 e)

/-- POOL_LOW, R641: an aging retirement that waits on an empty pool is recorded again after 24 hours of operating time.
DEDUCED, log entry 63, unsafe. -/
def execPoolLow (e : Nat) (s : State) : Host.Outcome State Fault Refusal :=
  .next (match s.nvm.waiting.find? fun (w : Nat × Nat) => w.1 = e with
    | some (_, t) =>
      if s.pwr.opSec ≥ t + 86400 then
        let s := { s with nvm := { s.nvm with
          waiting := s.nvm.waiting.map fun (w : Nat × Nat) => if w.1 = e then (e, s.pwr.opSec) else w } }
        s.event 0xE (srcEngine e) 4 0 e
      else s
    | none => s)

/-- A sample of 20 ps or less at 85 °C or below, the temperature as the register holds it, °C + 64 (R294, R637). -/
def lowSample (x : Nat × Nat) : Bool := x.1 ≤ 10 && x.2 ≤ 149

/-- A sample of the timing-margin monitors of unit `e`, the lowest margin counting, and of its temperature as °C + 64: kept in
NVM. Two low ones in a row retire the unit while a spare of its class exists; else the retirement waits (R288, R294, R637,
R641). DESIGN CHOICE, log entry 60, safe. DEDUCED, log entry 63, unsafe. -/
def State.sampleAging (s : State) (e : Nat) (margins : List Nat) (temp : Nat) : State :=
  let x := s.engine e
  let now := margins.foldl min 0xFF
  let low := lowSample (now, temp) && (match mapGet [] s.nvm.aging e with | y :: _ => lowSample y | [] => false)
  let s := s.onEngine e fun x => { x with ageNow := now, ageWorst := min x.ageWorst now, temp := temp % 256 }
  let s := { s with nvm := { s.nvm with aging := mapInsert s.nvm.aging e ((now, temp) :: mapGet [] s.nvm.aging e) } }
  if !low || x.unit ≠ .active then s
  else if s.spareUnits (clsOf e) > 0 then
    (if x.build.isSome ∨ x.results ≠ [] then (s.unstage e).onEngine e fun x => { x with retiring := 4 } else s.retire e 4)
  else if s.nvm.waiting.any fun (w : Nat × Nat) => w.1 = e then s
  else
    ({ s with nvm := { s.nvm with waiting := s.nvm.waiting ++ [(e, s.pwr.opSec)] } }).event 0xE (srcEngine e) 4 0 e

/-- AGING_SAMPLE, R288: the monitors of a unit that is not gated, sampled between jobs.
DESIGN CHOICE, log entry 60, safe. -/
def execAgingSample (e : Nat) (margin : List Nat) (temp : Nat) (s : State) : Host.Outcome State Fault Refusal :=
  .next (
    let x := s.engine e
    if x.unit = .absent ∨ x.running.isSome ∨ x.gated ∨ !s.awake then s else s.sampleAging e margin temp)

/-! Engine faults (R221, R286, R287, R376 to R380, R392 to R394) -/

/-- A job whose engine has faulted runs once more on another unit: READY at the head of its list, with what its attempt
drew, took or counted given up (R120, R159, R198, R352, R378). DEDUCED, log entry 27, unsafe. -/
def State.retryJob (s : State) (e j k : Nat) : State :=
  let s := s.onJob j fun x =>
    { x with
      attempts := x.attempts + 1, faultyUnits := e :: x.faultyUnits, drawn := false, rand := [], seeds := [], leaf := none, counter := none
      waitCommit := false, blind := [], areas := x.areas.filter fun a => a.step ≠ k, computed := none, wrote := 0
      steps := modifyAt x.steps k fun p => { p with st := .ready, engine := 0, restore := false } }
  match s.job? j with
  | some x => s.event 2 (srcEngine e) 2 x.slice e (leBytes 2 x.qid ++ leBytes 1 x.attempts)
  | none => s

/-- The running job of a faulted engine is run again, or completes with `st`. DEDUCED, log entry 27, unsafe. -/
def State.faultJob (s : State) (e : Nat) (st : Status) (retry : Bool) : State :=
  match (s.engine e).running with
  | none => s
  | some (j, k) =>
    match s.job? j with
    | none => s
    | some x =>
      if x.stage = .done then s.dropRunning e
      else if x.abort.isSome then s.finish j (x.abort.getD {}) (some e)
      else if retry ∧ x.attempts ≤ 1 ∧ !x.scattered then ((s.leaveRunning e).frostJob e true).retryJob e j k
      else s.finish j (fail st) (some e)

/-- The engine's fault register, with the cause of the last fault and their count (R291). -/
def State.countFault (s : State) (e cause : Nat) : State :=
  s.onEngine e fun x => { x with fcause := cause % 256, fcount := sat 0xFFFF (x.fcount + 1), saving := false }

/-- A row of engine `e` with an uncorrectable error: counted, marked and recorded (R293, R395, R637).
DESIGN CHOICE, log entry 78, safe. -/
def State.markRow (s : State) (e : Nat) : State :=
  let (row, s) := s.draw 4
  (s.onEngine e fun x => { x with uncorr := sat 0xFFFF (x.uncorr + 1), marked := x.marked + 1 }).event
    3 (srcEngine e) 5 0 e row

/-- `n` rows of engine `e` have an uncorrectable error. -/
def State.markRows (s : State) (e n : Nat) : State := (List.range n).foldl (fun (s : State) (_ : Nat) => s.markRow e) s

/-- The cause is an uncorrectable error of an SRAM row (R286, R393). DEDUCED, log entry 77, unsafe. -/
def rowCause (c : Cls) (cause : Nat) : Bool := if c = .vce then cause = 1 || cause = 2 else cause = 0xC

/-- The first step that runs, where job `x` has given its result. -/
def Job.resultStep (x : Job) : Nat := ((List.range x.steps.length).find? fun k => (x.steps[k]?).map PStep.st = some .running).getD 0

/-- What a lost result of job `j` had placed is given up: its key slot, and a new stateful record (R121).
DEDUCED, log entry 77, unsafe. -/
def State.retract (s : State) (j : Nat) (x : Job) (r : Result) : State :=
  let s :=
    if x.dest % 2 = 1 ∧ r.status = .ok ∧ ((s.jobInfo x).kind = .keyOut ∨ (s.jobInfo x).kind = .kdf) then
      match s.bySlot x.slice (leAt r.out (r.out.length - 8) 4) with
      | some i => s.freeSlot i
      | none => s
    else s
  s.dropRecords fun _ k => decide (k.firstOf = some j)

/-- The result of job `j` on engine `e` is lost: the job is READY again, or completes with `st` (R287, R377).
DEDUCED, log entry 77, unsafe. -/
def State.loseResult (s : State) (e j : Nat) (st : Status) : State :=
  let s := s.freeResult e j
  match s.job? j with
  | none => s
  | some x =>
    match x.computed with
    | none => s
    | some r =>
      if x.stage ≠ .active then s
      else
        let s := s.retract j x r
        if x.abort.isSome then s.finish j (x.abort.getD {})
        else if x.attempts ≤ 1 ∧ !x.scattered then s.retryJob e j x.resultStep
        else s.finish j (fail st)

/-- Step 3 of R287 and of R377: result slots `bad` of engine `e` read back with an uncorrectable error; the results in
the others are offered to the collector as usual. DEDUCED, log entry 77, unsafe. -/
def State.readBack (s : State) (e : Nat) (st : Status) (bad : List Nat) : State :=
  let l := (s.engine e).results.filter fun r => bad.contains r.2
  l.foldl (fun (s : State) r => s.loseResult e r.1 st) (s.markRows e l.length)

/-- The causes of an engine fault that a class detects, those of a machine check apart (R286, R393). -/
def causesOf (c : Cls) : List Nat :=
  match c with
  | .vce => [0x01, 0x02, 0x03, 0x07, 0x08, 0x09, 0x0A, 0x0B]
  | .hse => [0x08, 0x09, 0x0A, 0x0C, 0x0D]
  | .cde => [0x09, 0x0A, 0x0C, 0x0E]
  | .cle => [0x09, 0x0A, 0x0C, 0x0E, 0x0F]
  | .ste => [0x09, 0x0A, 0x0C, 0x0D]

/-- The sequence of R287 on engine `e`. -/
def State.engineFault (s : State) (e cause : Nat) (bad : List Nat) : State :=
  let n := match (s.engine e).running with | some (j, _) => s.sliceOfJob j | none => 0
  let s := ((s.countFault e cause).markRows e (bitOf (rowCause (clsOf e) cause))).reportUnit e cause n
  let s := ((s.faultJob e .engineFault true).unstage e).readBack e .engineFault bad
  let s := (s.frostEngine e).onEngine e fun x => { x with faults := s.pwr.opSec :: x.faults.take 2 }
  s.quarantine e

/-- ENGINE_FAULT_DETECT, R287, R393, R394: causes of the engine's class apart from those of a machine check; `bad`: result
slots that read back with an error. A read-back of frost that fails after step 3 is recorded and stops nothing. -/
def execEngineFaultDetect (e cause : Nat) (bad : List Nat) (s : State) : Host.Outcome State Fault Refusal :=
  .next (
    let x := s.engine e
    if e ≥ 71 ∨ !(causesOf (clsOf e)).contains cause then s
    else if x.unit = .quarantined ∧ cause = 0x09 then (s.countFault e cause).reportUnit e cause 0
    else if x.unit ≠ .active then s
    else s.engineFault e cause bad)

/-- The region of a micro-address: 0 ROM, 1 patch, 2 customer (R357). -/
def microRegion (a : Nat) : Nat := if 0x5000 ≤ a ∧ a ≤ 0x5FFF then 2 else if 0x4000 ≤ a then 1 else 0

/-- A machine check on VCE `e` at a micro-address; `bad`: result slots that read back with an error (R376 to R380). -/
def State.machineCheck (s : State) (e cause addr : Nat) (bad : List Nat := []) : State :=
  let n := match (s.engine e).running with | some (j, _) => s.sliceOfJob j | none => 0
  let s := (s.countFault e cause).reportUnit e cause n (leBytes 2 addr ++ leBytes 1 (microRegion addr))
  if microRegion addr = 2 ∧ cause ≠ 4 then
    -- the fault lies in customer code: not counted, not retried, the unit stays ACTIVE
    ((((s.faultJob e .machineCheck false).unstage e).readBack e .machineCheck bad).frostEngine e).loadConsts e
  else
    let s := ((s.faultJob e .machineCheck true).unstage e).readBack e .machineCheck bad
    let s := (s.frostEngine e).onEngine e fun x => { x with checks := s.pwr.opSec :: x.checks.take 2 }
    s.quarantine e

/-- MACHINE_CHECK, R376, R377: cause CS_PARITY, USTACK or WATCHDOG. -/
def execMachineCheck (e cause addr : Nat) (bad : List Nat) (s : State) : Host.Outcome State Fault Refusal :=
  .next (
    if clsOf e = .vce ∧ (s.engine e).unit = .active ∧ 4 ≤ cause ∧ cause ≤ 6 then s.machineCheck e cause addr bad else s)

/-- WATCHDOG, R373: 256 cycles have passed without a safe point; waits for external data do not count. -/
def execWatchdog (e : Nat) (s : State) : Host.Outcome State Fault Refusal :=
  .next (
    if clsOf e = .vce ∧ (s.engine e).unit = .active ∧ (s.engine e).running.isSome ∧ (s.vce e).wd ≥ 257 ∧ !(s.vce e).lent then
      s.machineCheck e 6 (s.vce e).upc
    else s)

/-! Gating and thaw (R296, R297, R592 to R594) -/

/-- The conditions of R296. -/
def Engine.idle (x : Engine) : Bool :=
  x.running.isNone && x.build.isNone && x.lend.isNone && x.incoming.isNone && !x.saving && x.results.isEmpty

/-- Gates engine `e`, frosted first; with the last engine the part is in DOZE (R591). -/
def State.gateEngine (s : State) (e : Nat) : State :=
  let s := (s.frostEngine e).onEngine e fun x => { x with gated := true }
  if s.awakeEngines = 0 ∧ s.pwr.st = .run then { s with pwr := { s.pwr with st := .doze, dozeAt := s.el } } else s

/-- ENGINE_GATE, R592: the engine has been idle for GATE_US µs. DEDUCED, log entry 73, unsafe. -/
def execEngineGate (e : Nat) (s : State) : Host.Outcome State Fault Refusal :=
  .next (
    let x := s.engine e
    let w := s.reg .pwrCtrl
    if e < 71 && x.unit ≠ .absent && !x.gated && !x.thawing && x.idle && !s.reserved e && !bitAt w 30 && s.up && s.awake
        && s.el ≥ x.idleAt + fld w 13 0 * 1000 then
      s.gateEngine e
    else s)

/-- THAW, R297, R593: a gated engine for which a job is staged begins to thaw; so does a reserved one, which is never
gated. -/
def execThaw (e : Nat) (s : State) : Host.Outcome State Fault Refusal :=
  .next (
    let x := s.engine e
    if x.gated && x.unit = .active && s.awake && (x.incoming.isSome || s.reserved e) then
      s.onEngine e fun x => { x with thawing := true }
    else s)

/-- THAW_COMPLETE, R269, R288, R297, R591: the engine is powered, its rows frosted and its constant rows loaded; the generator
of a VCE has run its test, and the monitors are sampled. -/
def execThawComplete (t : ThawEnd) (s : State) : Host.Outcome State Fault Refusal :=
  .next (
    let e := t.unit
    if (s.engine e).thawing then
      let s := ((s.frostEngine e).loadConsts e).onEngine e fun x => { x with gated := false, thawing := false, idleAt := s.el }
      let s := if s.pwr.st = .doze then { s with pwr := { s.pwr with st := .run } } else s
      let s := if t.margins = [] then s else s.sampleAging e t.margins t.temp
      if clsOf e = .vce ∧ !t.testOk ∧ (s.engine e).unit = .active then s.engineFault e 0x07 [] else s
    else s)

end Sys2Proof.Machine
end

