-- ==== Sys2Proof/Machine/Produce.lean ====
section
/-! DEFINITION. How an operation of the opcode table ends: the step that computes its result, the engine that it leaves,
the keys and secrets that it makes, and the intermediate steps of a plan (R112 to R114, R200, R201, R219, R220, R426). -/

namespace Sys2Proof.Machine

/-! The end of a plan -/

/-- The steps of a plan that have not finished. -/
def Job.unfinished (x : Job) : List Nat :=
  (List.range x.steps.length).filter fun k =>
    match x.steps[k]? with | some p => decide (p.st ≠ .finished) | none => false

/-- Step `k` is RUNNING. -/
def Job.runs (x : Job) (k : Nat) : Bool := match x.steps[k]? with | some p => decide (p.st = .running) | none => false

/-- Only the last step of the plan is left, and it runs. -/
def Job.ending (x : Job) : Bool :=
  match x.unfinished with
  | [k] => x.runs k
  | _ => false

/-- The engine of a running job computes: it is not saving, restoring or contained (R222, R283, R551). -/
def State.computing (s : State) (j : Nat) : Bool :=
  match s.runningOn j with
  | some e => !(s.engine e).saving && !(s.engine e).contained && (s.engine e).restEnd = 0
  | none => true

/-- Step `k` of a job computes: its engine is not saving, restoring or contained, and a VCE does not wait for a lent hash, nor
has
one still to lend (R222, R272, R283, R397, R551). -/
def State.stepComputes (s : State) (x : Job) (k : Nat) : Bool :=
  match x.steps[k]? with
  | some p =>
    let e := p.engine
    p.cls.isNone || (!(s.engine e).saving && !(s.engine e).contained && (s.engine e).restEnd = 0
      && (decide (clsOf e ≠ .vce) || (!(s.vce e).lent && !s.wantsLend e)))
  | none => false

/-- Job `j` at the point where its operation can give its result. -/
def State.atEnd (s : State) (j : Nat) : Option Job :=
  match s.job? j with
  | some x =>
    if s.awake && decide (x.stage = .active) && x.computed.isNone && !x.waitCommit && x.ending
        && x.unfinished.all (s.stepComputes x) then some x
    else none
  | none => none

/-- The result slot that the job running on `e` was given at its start. -/
def State.slotOn (s : State) (e : Nat) : Nat :=
  if clsOf e = .vce then ((s.vce e).ctx.slot - 340) / 16 else ((s.engine e).freeSlot).getD 0

/-- The operation of job `j` has given `r`: it waits for the collector, and its engine is free for the next job (R219,
R220). DESIGN CHOICE, log entry 26, unsafe. -/
def State.produce (s : State) (j : Nat) (r : Result) : State :=
  let s := s.onJob j fun x => { x with computed := some r }
  match s.runningOn j with
  | some e => s.stepLeaves e j (s.slotOn e)
  | none => s

/-- The command of an operation: job `j` of that family and operation ends with what `f` computes. -/
def State.compute (s : State) (j fam op : Nat) (f : Job → State → Result × State) : State :=
  match s.atEnd j with
  | some x =>
    if x.desc.fam = fam ∧ x.desc.op = op then
      let (r, s) := f x s
      s.produce j r
    else s
  | none => s

/-! Keys of a job -/

/-- The key that a job computes with. -/
def State.keyOf (s : State) (x : Job) : KeySlot := (x.key.map s.slot).getD {}

/-- The body of key slot `i` as the engine of the job's running step has it: the shares that KEY delivered, recombined there;
for
a step without an engine, as KEY reads it (R36, R156). DESIGN CHOICE, log entry 58, unsafe. -/
def State.portKey (s : State) (x : Job) (i : Nat) : Bytes :=
  match x.steps.find? fun p => p.cls.isSome && decide (p.st = .running) with
  | some p =>
    (match mapFind (s.engine p.engine).cur.keys i with
    | some l => l.foldl xorBytes (zeros ((l.head?.getD []).length))
    | none => (s.slot i).body)
  | none => (s.slot i).body

/-- Its body. -/
def State.bodyOf (s : State) (x : Job) : Bytes := (x.key.map (s.portKey x)).getD []

/-- The input of a job. -/
def Job.inp (x : Job) : Bytes := x.input.getD []

/-- The classical and the lattice part of a hybrid body or public key, split at the lattice length `n`. -/
def splitAt (n : Nat) (b : Bytes) : Bytes × Bytes := (b.take n, b.drop n)

/-- The public key of a key (R109, R426): its own body, or what its private encoding contains or determines. -/
def KeySlot.pubKey (k : KeySlot) : Bytes :=
  let a := k.alg.toNat
  let b := k.body
  if algKind a = 1 then b
  else
    let n := ((asymLen (algFam a) (algSet a)).getD (0, 0)).2
    match algFam a with
    | 1 => cut b (b.length - n - 64) n
    | 2 => fit n (Config.mldsaPkOfSk (algSet a) b)
    | 3 => b.drop (b.length - n)
    | 6 => fit n (Config.hqcPkOfSk (algSet a) b)
    | 8 => eccPub (algSet a) n b
    | 9 => b.take n
    | 0xA =>
      match hybridKem (algSet a) with
      | some h => cut b (h.dk - h.ek - 64) h.ek ++ eccPub h.curve h.pk (b.drop h.dk)
      | none => []
    | 0xB =>
      match hybridSig (algSet a) with
      | some h => fit h.pkM (Config.mldsaPkOfSk h.dsa (b.take h.skM)) ++ eccPub h.curve h.pkC (b.drop h.skM)
      | none => []
    | f =>
      let p := stfField f b
      stfPublic f p ((stfTrees f (algSet a) p).getD (0, [])).1 (if f = 4 then Config.lmsRoot b else Config.xmssRoot b)

/-! New keys and secrets (R112 to R114) -/

/-- The seed of a key generation: SEED, or what was drawn. -/
def Job.seed (x : Job) : Bytes := if seeded x.block then fieldA 24 x.block else x.rand

/-- A new key with the job's key-output fields goes where DEST says, after the public part. -/
def State.deliver (s : State) (x : Job) (pub : Bytes) (alg : Nat) (body : Bytes) (policy : Nat) : Result × State :=
  let (k, s) := s.newKey x.slice alg body policy x.block
  match s.placeKey x.slice x.dest k with
  | (.ok b, s) => ({ out := pub ++ b, key := body }, s)
  | (.err st d, s) => (fail st d, s)

/-- A secret in clear for DEST HOST, else a generic secret of its length. DESIGN CHOICE, log entry 87, unsafe. -/
def State.giveSecret (s : State) (x : Job) (pub secret : Bytes) (imported : Bool) : Result × State :=
  if x.dest = 0 then ({ out := pub ++ secret }, s)
  else s.deliver x pub 0x1320 secret (newPolicy x.block imported)

/-- The key of a key generation of the job's own family and set. -/
def State.giveKey (s : State) (x : Job) (pub body : Bytes) : Result × State :=
  s.deliver x pub (x.desc.fam * 256 + x.desc.set) body (newPolicy x.block (seeded x.block))

/-- A verdict. -/
def verdict (ok : Bool) : Result := if ok then {} else fail .verifyFail

/-! Intermediate steps (R200, R201, R426) -/

/-- Step `k` of the job computes the public key of the slot. -/
def State.pubStep (s : State) (x : Job) (k : Nat) : Bool :=
  match x.key with
  | some i =>
    needsPub x.desc.opc.toNat (s.slot i).alg.toNat && (s.slot i).pub.isNone && decide (k + 1 = x.steps.length)
      && decide (x.steps.length > (s.jobInfo x).plan.length)
  | none => false

end Sys2Proof.Machine
end

