-- ==== Sys2Proof/Machine/PostQuantum.lean ====
section
/-! DEFINITION. The operations of chapter 03: ML-KEM, ML-DSA, SLH-DSA, LMS and XMSS with their reservations, HQC, Classic
McEliece and the hybrids (R106 to R152, R450, R454). -/

namespace Sys2Proof.Machine

/-! Key encapsulation (R113 to R115, R122 to R124, R141 to R145) -/

/-- The set whose functions a set of Classic McEliece uses outside key generation: that of its base (R142). -/
def mceBase (set : Nat) : Nat := set / 2 * 2

/-- A KEM of the families 0x01, 0x06 and 0x07: lengths of public key, private key, ciphertext and secret, and its
functions. -/
structure Kem where
  pkLen : Nat
  skLen : Nat
  ctLen : Nat
  ssLen : Nat := 32

/-- Sizes of the KEM of a family and set. -/
def kemOf (fam set : Nat) : Kem :=
  match fam with
  | 1 => let (ek, dk, c) := (mlkemSize set).getD (0, 0, 0); { pkLen := ek, skLen := dk, ctLen := c }
  | 6 => let (pk, sk, c) := (hqcSize set).getD (0, 0, 0); { pkLen := pk, skLen := sk, ctLen := c, ssLen := 64 }
  | _ => let (pk, sk, c) := (mceSize set).getD (0, 0, 0); { pkLen := pk, skLen := sk, ctLen := c }

/-- Public and private key from the drawn bytes or the seed. -/
def kemKeys (fam set : Nat) (seed : Bytes) : Bytes × Bytes :=
  let k := kemOf fam set
  match fam with
  | 1 => (fit k.pkLen (Config.mlkemEk set seed), fit k.skLen (Config.mlkemDk set seed))
  | 6 => (fit k.pkLen (Config.hqcPk set seed), fit k.skLen (Config.hqcSk set seed))
  | _ => (fit k.pkLen (Config.mcePk set seed), fit k.skLen (Config.mceSk set seed))

/-- Ciphertext and secret of an encapsulation to `pk` with the drawn bytes `m`. -/
def kemEnc (fam set : Nat) (pk m : Bytes) : Bytes × Bytes :=
  let k := kemOf fam set
  match fam with
  | 1 => (fit k.ctLen (Config.mlkemEncCt set pk m), fit k.ssLen (Config.mlkemEncSs set pk m))
  | 6 => (fit k.ctLen (Config.hqcEncCt set pk m), fit k.ssLen (Config.hqcEncSs set pk m))
  | _ => (fit k.ctLen (Config.mceEncCt (mceBase set) pk m), fit k.ssLen (Config.mceEncSs (mceBase set) pk m))

/-- The secret of a decapsulation, implicit rejection included. -/
def kemDec (fam set : Nat) (sk c : Bytes) : Bytes :=
  let k := kemOf fam set
  match fam with
  | 1 => fit k.ssLen (Config.mlkemDec set sk c)
  | 6 => fit k.ssLen (Config.hqcDec set sk c)
  | _ => fit k.ssLen (Config.mceDec (mceBase set) sk c)

/-- The check of an inline public key. -/
def kemPkOk (fam set : Nat) (pk : Bytes) : Bool :=
  match fam with
  | 1 => Config.mlkemEkOk set pk
  | 6 => Config.hqcPkOk set pk
  | _ => Config.mcePkOk (mceBase set) pk

def kemGenJob (x : Job) (s : State) : Result × State :=
  let (pk, sk) := kemKeys x.desc.fam x.desc.set x.seed
  s.giveKey x pk sk

def kemDecJob (x : Job) (s : State) : Result × State :=
  s.giveSecret x [] (kemDec x.desc.fam x.desc.set (s.bodyOf x) x.inp) false

def kemEncTo (pk : Bytes) (x : Job) (s : State) : Result × State :=
  let (ct, ss) := kemEnc x.desc.fam x.desc.set pk x.rand
  s.giveSecret x ct ss false

def kemEncRefJob (x : Job) (s : State) : Result × State := kemEncTo (s.keyOf x).pubKey x s

def kemEncInlineJob (x : Job) (s : State) : Result × State :=
  if kemPkOk x.desc.fam x.desc.set x.inp then kemEncTo x.inp x s else (fail .verifyFail, s)

/-- ML-KEM key generation (R112, R113, R124). -/
def execMlKemKeyGeneration (j : Nat) (s : State) : Host.Outcome State Fault Refusal := .next (s.compute j 1 0 kemGenJob)
/-- ML-KEM decapsulation (R123). -/
def execMlKemDecapsulation (j : Nat) (s : State) : Host.Outcome State Fault Refusal := .next (s.compute j 1 1 kemDecJob)
/-- ML-KEM encapsulation to a referenced key. -/
def execMlKemEncapsulationReferenced (j : Nat) (s : State) : Host.Outcome State Fault Refusal :=
  .next (s.compute j 1 2 kemEncRefJob)
/-- ML-KEM encapsulation to an inline key (R122). -/
def execMlKemEncapsulationInline (j : Nat) (s : State) : Host.Outcome State Fault Refusal :=
  .next (s.compute j 1 3 kemEncInlineJob)

/-- HQC (R141). -/
def execHqcKeyGeneration (j : Nat) (s : State) : Host.Outcome State Fault Refusal := .next (s.compute j 6 0 kemGenJob)
def execHqcDecapsulation (j : Nat) (s : State) : Host.Outcome State Fault Refusal := .next (s.compute j 6 1 kemDecJob)
def execHqcEncapsulationReferenced (j : Nat) (s : State) : Host.Outcome State Fault Refusal :=
  .next (s.compute j 6 2 kemEncRefJob)
def execHqcEncapsulationInline (j : Nat) (s : State) : Host.Outcome State Fault Refusal :=
  .next (s.compute j 6 3 kemEncInlineJob)

/-- Classic McEliece (R142, R145). -/
def execMcelieceKeyGeneration (j : Nat) (s : State) : Host.Outcome State Fault Refusal := .next (s.compute j 7 0 kemGenJob)
def execMcelieceDecapsulation (j : Nat) (s : State) : Host.Outcome State Fault Refusal := .next (s.compute j 7 1 kemDecJob)

/-- The public key is streamed from its blob in the window; a failed integrity check ends the job (R143, R144). -/
def mceEncRefJob (x : Job) (s : State) : Result × State :=
  let off := match keyForm x.desc.keyref with | .window o => o | _ => 0
  if s.cmcBad ((s.window x.slice).1 + off) x.keyBlob.length then
    (fail .bufferFault (bufferDetail .poisoned .blob),
      (s.noteRead ((s.window x.slice).1 + off) x.keyBlob.length).accessFault x.slice HCause.poisoned.code Part.blob.code
        x.qid)
  else kemEncTo (parseBlob x.keyBlob).body x s

def execMcelieceEncapsulationReferenced (j : Nat) (s : State) : Host.Outcome State Fault Refusal :=
  .next (s.compute j 7 2 mceEncRefJob)
def execMcelieceEncapsulationInline (j : Nat) (s : State) : Host.Outcome State Fault Refusal :=
  .next (s.compute j 7 3 kemEncInlineJob)

/-! ML-DSA and SLH-DSA (R125 to R133) -/

/-- CTX, and the message M′ of R126. -/
def Job.ctxField (x : Job) : Bytes := fieldA 8 x.block

def Job.mPrime (x : Job) (m : Bytes) : Bytes :=
  let ph := leAt x.block 8 1
  let ctx := x.ctxField
  if ph = 0 then pureMessage ctx m else [1] ++ leBytes 1 ctx.length ++ ctx ++ Config.hashOid ph ++ m

def mldsaGenJob (x : Job) (s : State) : Result × State :=
  let (pk, sk, _) := (mldsaSize x.desc.set).getD (0, 0, 0)
  s.giveKey x (fit pk (Config.mldsaPk x.desc.set x.seed)) (fit sk (Config.mldsaSk x.desc.set x.seed))

/-- rnd of R128. -/
def Job.mldsaRnd (x : Job) : Bytes := if x.deterministic then zeros 32 else x.rand

def mldsaSignJob (x : Job) (s : State) : Result × State :=
  let sg := ((mldsaSize x.desc.set).getD (0, 0, 0)).2.2
  ({ out := fit sg (Config.mldsaSign x.desc.set (s.bodyOf x) (x.mPrime x.inp) x.mldsaRnd) }, s)

/-- The verdict on `b`, signature and message, under the public key `pk` (R129). -/
def mldsaCheck (x : Job) (pk b : Bytes) : Result :=
  let n := ((mldsaSize x.desc.set).getD (0, 0, 0)).2.2
  verdict (Config.mldsaVerify x.desc.set pk (x.mPrime (b.drop n)) (b.take n))

def mldsaVerifyJob (x : Job) (s : State) : Result × State := (mldsaCheck x (s.keyOf x).pubKey x.inp, s)

def mldsaInlineJob (x : Job) (s : State) : Result × State :=
  let n := ((mldsaSize x.desc.set).getD (0, 0, 0)).1
  (mldsaCheck x (x.inp.take n) (x.inp.drop n), s)

def execMlDsaKeyGeneration (j : Nat) (s : State) : Host.Outcome State Fault Refusal := .next (s.compute j 2 0 mldsaGenJob)
def execMlDsaSign (j : Nat) (s : State) : Host.Outcome State Fault Refusal := .next (s.compute j 2 1 mldsaSignJob)
def execMlDsaVerifyReferenced (j : Nat) (s : State) : Host.Outcome State Fault Refusal :=
  .next (s.compute j 2 2 mldsaVerifyJob)
def execMlDsaVerifyInline (j : Nat) (s : State) : Host.Outcome State Fault Refusal :=
  .next (s.compute j 2 3 mldsaInlineJob)

/-- n and the signature length of an SLH-DSA job. -/
def Job.slh (x : Job) : Nat × Nat := (slhSize x.desc.set).getD (0, 0)

def slhGenJob (x : Job) (s : State) : Result × State :=
  let n := x.slh.1
  s.giveKey x (fit (2 * n) (Config.slhPk x.desc.set x.seed)) (fit (4 * n) (Config.slhSk x.desc.set x.seed))

/-- opt_rand is PK.seed in deterministic signing (R132). -/
def slhSignJob (x : Job) (s : State) : Result × State :=
  let (n, sg) := x.slh
  let sk := s.bodyOf x
  let opt := if x.deterministic then cut sk (2 * n) n else x.rand
  ({ out := fit sg (Config.slhSign x.desc.set sk (x.mPrime x.inp) opt) }, s)

def slhCheck (x : Job) (pk b : Bytes) : Result :=
  verdict (Config.slhVerify x.desc.set pk (x.mPrime (b.drop x.slh.2)) (b.take x.slh.2))

def slhVerifyJob (x : Job) (s : State) : Result × State := (slhCheck x (s.keyOf x).pubKey x.inp, s)

def slhInlineJob (x : Job) (s : State) : Result × State :=
  (slhCheck x (x.inp.take (2 * x.slh.1)) (x.inp.drop (2 * x.slh.1)), s)

def execSlhDsaKeyGeneration (j : Nat) (s : State) : Host.Outcome State Fault Refusal := .next (s.compute j 3 0 slhGenJob)
def execSlhDsaSign (j : Nat) (s : State) : Host.Outcome State Fault Refusal := .next (s.compute j 3 1 slhSignJob)
def execSlhDsaVerifyReferenced (j : Nat) (s : State) : Host.Outcome State Fault Refusal :=
  .next (s.compute j 3 2 slhVerifyJob)
def execSlhDsaVerifyInline (j : Nat) (s : State) : Host.Outcome State Fault Refusal :=
  .next (s.compute j 3 3 slhInlineJob)

/-! Stateful signatures (R134 to R140, R449 to R454) -/

/-- The block copies of R452 can run: the spare pool serves more than the roots and the life-cycle area (R643). -/
def State.canCopy (s : State) : Bool := s.nvm.pool > 8

/-- The record is closed: its place can be reclaimed. -/
def StfRecord.dead (r : StfRecord) : Bool := !r.valid || decide (r.close ≠ 0)

/-- The first free record place (R452). -/
def State.freePlace (s : State) : Option Nat := (List.range 4096).find? s.placeFree

/-- The first block that holds a closed record is copied into a block of the spare pool without its closed records
(R452). DESIGN CHOICE, log entry 76, unsafe. -/
def State.reclaim (s : State) : State :=
  match s.kmg.stf.find? fun e => e.2.dead && !s.lostBlock 3 (e.1 / 32) with
  | some (p, _) => if s.canCopy then s.dropRecords fun i r => decide (i / 32 = p / 32) && r.dead else s
  | none => s

/-- A place for a new record, and the state in which closed records have been reclaimed where no place was free
(R135, R452). DESIGN CHOICE, log entry 76, unsafe. -/
def State.findPlace (s : State) : Option Nat × State :=
  match s.freePlace with
  | some p => (some p, s)
  | none => (s.reclaim.freePlace, s.reclaim)

def State.putRecord (s : State) (i : Nat) (r : StfRecord) : State :=
  { s with kmg := { s.kmg with stf := mapInsert s.kmg.stf i r } }

/-- The record of the new key `k` of job `j` at place `p`: valid, its first reservation still to come (R135, R450). -/
def State.newRecord (s : State) (p : Nat) (k : KeySlot) (total j : Nat) : State :=
  s.putRecord p {
    valid := true, keyId := k.keyId, alg := k.alg, owner := k.owner, state := s.lcs.code, epoch := k.epoch, total := total
    pending := true, firstOf := some j }

/-- Key generation of families 0x04 and 0x05: public key, record, blob and handle (R135). -/
def stfGenJob (j : Nat) (x : Job) (s : State) : Result × State :=
  let a := fieldA 24 x.block
  match s.findPlace with
  | (none, s) => (fail .keyState, s)
  | (some p, s) =>
  match stfTrees x.desc.fam x.desc.set a with
  | none => (fail .descInvalid 0x10, s)
  | some (n, hs) =>
    let lms := x.desc.fam = 4
    let body := stfHeader x.desc.fam a
      ++ fit (stfBodyLen n hs - 32) (if lms then Config.lmsBody a x.rand else Config.xmssBody a x.rand)
    let pk := stfPublic x.desc.fam a n (if lms then Config.lmsRoot body else Config.xmssRoot body)
    let (k, s) := s.newKey x.slice (x.desc.fam * 256 + x.desc.set) body (policyOf x.block + pSTATEFUL) x.block
    match s.placeKey x.slice x.dest k with
    | (.ok b, s) => ({ out := pk ++ b }, s.newRecord p k (stfTotal hs) j)
    | (.err st d, s) => (fail st d, s)

/-- A signature with the leaf the job was given (R136, R138). -/
def stfSignJob (x : Job) (s : State) : Result × State :=
  let body := s.bodyOf x
  let leaf := x.leaf.getD 0
  ({ out := fit (stfSigLen x.desc.fam x.desc.set (stfField x.desc.fam body))
      (if x.desc.fam = 4 then Config.lmsSign body leaf x.inp else Config.xmssSign body leaf x.inp) }, s)

/-- The verdict on `b` under `pk`: the signature's length comes from its typecodes or the key's OID, and the message is the
rest; typecodes that disagree with the key fail (R140). -/
def stfCheck (x : Job) (pk b : Bytes) : Result :=
  match stfSigIn x.desc.fam x.desc.set pk b with
  | none => fail .verifyFail
  | some n =>
    let (sig, m) := splitAt n b
    verdict (decide (n ≤ b.length) &&
      (if x.desc.fam = 4 then Config.lmsVerify pk m sig else Config.xmssVerify x.desc.set pk m sig))

def stfVerifyJob (x : Job) (s : State) : Result × State := (stfCheck x (s.keyOf x).pubKey x.inp, s)

/-- Length of the inline public key: from its typecodes, or from its OID (R140). -/
def Job.stfPkLen (x : Job) : Option Nat :=
  if x.desc.fam = 4 then (lmsType (beVal (cut x.inp 4 4))).map fun t => 28 + t.2.1
  else (xmssParams x.desc.set (beVal (x.inp.take 4))).map fun p => 4 + 2 * p.1

def stfInlineJob (x : Job) (s : State) : Result × State :=
  match x.stfPkLen with
  | some n => (stfCheck x (x.inp.take n) (x.inp.drop n), s)
  | none => (fail .verifyFail, s)

def execLmsKeyGeneration (j : Nat) (s : State) : Host.Outcome State Fault Refusal := .next (s.compute j 4 0 (stfGenJob j))
def execLmsSign (j : Nat) (s : State) : Host.Outcome State Fault Refusal := .next (s.compute j 4 1 stfSignJob)
def execLmsVerifyReferenced (j : Nat) (s : State) : Host.Outcome State Fault Refusal :=
  .next (s.compute j 4 2 stfVerifyJob)
def execLmsVerifyInline (j : Nat) (s : State) : Host.Outcome State Fault Refusal := .next (s.compute j 4 3 stfInlineJob)

def execXmssKeyGeneration (j : Nat) (s : State) : Host.Outcome State Fault Refusal := .next (s.compute j 5 0 (stfGenJob j))
def execXmssSign (j : Nat) (s : State) : Host.Outcome State Fault Refusal := .next (s.compute j 5 1 stfSignJob)
def execXmssVerifyReferenced (j : Nat) (s : State) : Host.Outcome State Fault Refusal :=
  .next (s.compute j 5 2 stfVerifyJob)
def execXmssVerifyInline (j : Nat) (s : State) : Host.Outcome State Fault Refusal := .next (s.compute j 5 3 stfInlineJob)

/-- The lowest VCE that could start a job at once. -/
def State.idleVce (s : State) (prot : Bool) : Option Nat :=
  (List.range 34).find? fun e =>
    let x := s.engine e
    x.takes && !x.gated && !x.thawing && !x.saving && x.running.isNone && x.incoming.isNone && x.build.isNone
      && (prot || !s.reserved e)

/-- TRAVERSAL_BUILD, R139: the build of the traversal state of the key of job `j`, which waits READY to sign, begins: it
holds a VCE for the cycles of its leaves, and the key's owner is charged for them when it ends. A cost for each leaf that
the manual does not state is a free value. DESIGN CHOICE, log entry 31, safe. -/
def execTraversalBuild (j : Nat) (s : State) : Host.Outcome State Fault Refusal :=
  .next (match s.job? j with
    | some x =>
      if x.stage = .active && !s.traversalReady x && s.awake then
        match x.key.bind fun i => s.recordOf (s.slot i).keyId, s.idleVce x.prot with
        | some r, some e =>
          if allEngines.any fun i => ((s.engine i).build.map (·.1)) = some r then s
          else
            let c := (buildCost x.desc.fam x.desc.set (stfField x.desc.fam (s.bodyOf x))).getD (Config.freeNat s.freeCtr)
            ({ s with freeCtr := s.freeCtr + 1 }).onEngine e fun y => { y with
              build := some (r, s.el + ceilDiv (c * 4) 5), since := s.el }
        | _, _ => s
      else s
    | none => s)

/-- The open record `r` at place `i` moves: `new` is programmed in a fresh place and `r` closed as SUPERSEDED; without
a free place `new` takes the place of `r` in a copy of its block (R450, R452). None: it cannot be programmed (R454).
DESIGN CHOICE, log entry 76, unsafe. -/
def State.moveRecord (s : State) (i : Nat) (r new : StfRecord) : Option State :=
  match s.findPlace with
  | (some p, s) => some ((s.putRecord p new).putRecord i { r with close := 1, pending := false, heldBack := false })
  | (none, s) => if s.canCopy then some ((s.putRecord i new).eraseBlock 3 (i / 32)) else none

/-- A new RESV_END is programmed: the next log word, or a new record when W15 is programmed (R450). -/
def State.programResv (s : State) (i : Nat) (r : StfRecord) (v : Nat) : Option State :=
  if r.log.length < 9 then some (s.putRecord i { r with log := r.log ++ [v], pending := false, heldBack := false })
  else s.moveRecord i r { r with log := [v], pending := false, heldBack := false }

/-- The signing job that waits for a commit on the record. -/
def State.commitWaiter (s : State) (r : StfRecord) : Option Nat :=
  (s.sch.jobs.find? fun (_, x) => x.waitCommit && decide (x.stage ≠ .done) && (match x.key with
    | some i => decide ((s.slot i).keyId = r.keyId)
    | none => false)).map (·.1)

/-- The job that waited obtains its leaf, or STATEFUL_BUSY with DETAIL 1 (R136, R454). -/
def State.commitEnds (s : State) (keyId : Bytes) (waiter : Option Nat) (ok : Bool) : State :=
  match waiter with
  | none => s
  | some j =>
    if !ok then s.finish j (fail .statefulBusy 1)
    else match s.recordOf keyId with
    | none => s.finish j (fail .keyState)
    | some i =>
      let leaf := (mapGet {} s.kmg.stf i).next
      (s.onRecord i fun r => r.giveLeaf s.commitsHeld).onJob j fun x => { x with leaf := some leaf, waitCommit := false }

/-- A commit that could not be programmed: COMMIT_FAIL (R454). -/
def State.commitFailed (s : State) (i : Nat) (r : StfRecord) : State :=
  (s.putRecord i { r with pending := false, heldBack := false, firstOf := none }).event 6 (srcSlice r.owner) 3 r.owner 0xFF r.keyId

/-- RESERVATION_COMMIT_DONE, R136, R454. -/
def execReservationCommitDone (r : Nat) (ok : Bool) (s : State) : Host.Outcome State Fault Refusal :=
  .next (match s.record? r with
    | some x =>
      if x.valid && x.close = 0 && x.pending && !x.heldBack && x.firstOf.isNone then
        let w := s.commitWaiter x
        match (if ok then s.programResv r x x.target else none) with
        | some s => s.commitEnds x.keyId w true
        | none => (s.commitFailed r x).commitEnds x.keyId w false
      else s
    | none => s)

/-- FIRST_RESERVATION, R450, R453: once the generating job's completion entry has been issued. -/
def execFirstReservation (r : Nat) (ok : Bool) (s : State) : Host.Outcome State Fault Refusal :=
  .next (match s.record? r with
    | some x =>
      if x.valid && x.close = 0 && x.firstOf.isSome && (s.job? (x.firstOf.getD 0)).isNone && !s.commitsHeld then
        if ok then s.putRecord r { x with log := [min 64 x.total], pending := false, firstOf := none }
        else s.commitFailed r x
      else s
    | none => s)

/-! Hybrid KEMs (R146 to R149) -/

/-- The hybrid set of a job; set 1 where it names none. -/
def Job.hkem (x : Job) : HybridKem :=
  (hybridKem x.desc.set).getD { kem := 3, curve := 5, ek := 1184, dk := 2400, ct := 1088, pk := 32, sk := 32, ss := 32
                                draw := 32 }

/-- Agreement: none for an invalid peer key of a NIST curve, or an all-zero output of X25519 or X448 (R148, R164). -/
def agree (c n : Nat) (sk pk : Bytes) : Option Bytes :=
  let ss := fit n (Config.eccAgree c sk pk)
  if c ≥ 5 then (if ss = zeros n then none else some ss)
  else if eccPubOk c pk then some ss else none

/-- ss_M, ss_C, ct_M and ct_C of an encapsulation to `pk`. -/
def hkemEnc (h : HybridKem) (pk r : Bytes) : Bytes × Bytes × Bytes × Bytes :=
  let (ekM, pkC) := splitAt h.ek pk
  let (m, e) := splitAt 32 r
  let sk := fit h.sk (Config.eccSk h.curve e)
  (fit 32 (Config.mlkemEncSs h.kem ekM m), fit h.ss (Config.eccAgree h.curve sk pkC),
    fit h.ct (Config.mlkemEncCt h.kem ekM m), eccPub h.curve h.pk sk)

/-- ss_M and ss_C of a decapsulation; a classical part that fails is replaced (R148). -/
def hkemDec (h : HybridKem) (body ct : Bytes) : Bytes × Bytes :=
  let (dk, sk) := splitAt h.dk body
  let (ctM, ctC) := splitAt h.ct ct
  let z := dk.drop (h.dk - 32)
  let ssC := (agree h.curve h.ss sk ctC).getD ((List.range h.ss).map (Config.shake256 (z ++ ctC)))
  (fit 32 (Config.mlkemDec h.kem dk ctM), ssC)

/-- The combiner (R147). -/
def hybridSecret (ssM ssC ct : Bytes) : Bytes := fit 32 (Config.sha3 2 (ssM ++ ssC ++ ct))

/-- The inline key passes the checks of R148. Every pk_C of X25519 does, those that give an all-zero agreement included.
DESIGN CHOICE, log entry 87, unsafe. -/
def hkemPkOk (h : HybridKem) (pk : Bytes) : Bool :=
  Config.mlkemEkOk h.kem (pk.take h.ek) && (decide (h.curve ≥ 5) || eccPubOk h.curve (pk.drop h.ek))

def hkemGenJob (x : Job) (s : State) : Result × State :=
  let h := x.hkem
  let (dz, e) := splitAt 64 x.rand
  let sk := fit h.sk (Config.eccSk h.curve e)
  s.giveKey x (fit h.ek (Config.mlkemEk h.kem dz) ++ eccPub h.curve h.pk sk)
    (fit h.dk (Config.mlkemDk h.kem dz) ++ sk)

/-- What step `k` of the job left in its scratch area, its shares recombined (R39). -/
def Job.passedBy (x : Job) (k : Nat) : Option Bytes :=
  (mapFind x.passed k).map fun l => l.foldl xorBytes (zeros ((l.head?.getD []).length))

/-- ss_M and ss_C of a decapsulation, as the steps of the plan passed them on, or as the step that ends computes them (R147). -/
def State.hkemSecrets (s : State) (x : Job) : Bytes × Bytes :=
  let d := hkemDec x.hkem (s.bodyOf x) x.inp
  ((x.passedBy 0).getD d.1, (x.passedBy 1).getD d.2)

/-- ss_M, ss_C, ct_M and ct_C of an encapsulation, likewise: the steps pass ss_M ‖ ct_M and ss_C ‖ ct_C. -/
def Job.hkemParts (x : Job) (pk : Bytes) : Bytes × Bytes × Bytes × Bytes :=
  let (m, c, ctM, ctC) := hkemEnc x.hkem pk x.rand
  let a := (x.passedBy 0).getD (m ++ ctM)
  let b := (x.passedBy 1).getD (c ++ ctC)
  (a.take 32, b.take x.hkem.ss, a.drop 32, b.drop x.hkem.ss)

def hkemDecJob (x : Job) (s : State) : Result × State :=
  let (m, c) := s.hkemSecrets x
  s.giveSecret x [] (hybridSecret m c x.inp) false

def hkemEncTo (pk : Bytes) (x : Job) (s : State) : Result × State :=
  let (m, c, ctM, ctC) := x.hkemParts pk
  s.giveSecret x (ctM ++ ctC) (hybridSecret m c (ctM ++ ctC)) false

def hkemEncRefJob (x : Job) (s : State) : Result × State := hkemEncTo (s.keyOf x).pubKey x s

def hkemEncInlineJob (x : Job) (s : State) : Result × State :=
  if hkemPkOk x.hkem x.inp then hkemEncTo x.inp x s else (fail .verifyFail, s)

/-- The RAW form of the two secrets: each as its mask, drawn before the engine started, and the masked secret (R117, R149). -/
def Job.rawOut (x : Job) (ct ssM ssC : Bytes) : Result :=
  let (a, b) := splitAt ssM.length x.rawMask
  { out := ct ++ a ++ xorBytes ssM a ++ b ++ xorBytes ssC b }

def rawDecJob (x : Job) (s : State) : Result × State :=
  let (m, c) := s.hkemSecrets x
  (x.rawOut [] m c, s)

def rawEncTo (pk : Bytes) (x : Job) (s : State) : Result × State :=
  let (m, c, ctM, ctC) := x.hkemParts pk
  (x.rawOut (ctM ++ ctC) m c, s)

def rawEncRefJob (x : Job) (s : State) : Result × State := rawEncTo (s.keyOf x).pubKey x s

def rawEncInlineJob (x : Job) (s : State) : Result × State :=
  if hkemPkOk x.hkem x.inp then rawEncTo x.inp x s else (fail .verifyFail, s)

def execHybridKemKeyGeneration (j : Nat) (s : State) : Host.Outcome State Fault Refusal :=
  .next (s.compute j 0xA 0 hkemGenJob)
def execHybridKemDecapsulation (j : Nat) (s : State) : Host.Outcome State Fault Refusal :=
  .next (s.compute j 0xA 1 hkemDecJob)
def execHybridKemEncapsulationReferenced (j : Nat) (s : State) : Host.Outcome State Fault Refusal :=
  .next (s.compute j 0xA 2 hkemEncRefJob)
def execHybridKemEncapsulationInline (j : Nat) (s : State) : Host.Outcome State Fault Refusal :=
  .next (s.compute j 0xA 3 hkemEncInlineJob)
/-- The RAW operations (R149). -/
def execDecapsulationRaw (j : Nat) (s : State) : Host.Outcome State Fault Refusal := .next (s.compute j 0xA 5 rawDecJob)
def execEncapsulationRawReferenced (j : Nat) (s : State) : Host.Outcome State Fault Refusal :=
  .next (s.compute j 0xA 6 rawEncRefJob)
def execEncapsulationRawInline (j : Nat) (s : State) : Host.Outcome State Fault Refusal :=
  .next (s.compute j 0xA 7 rawEncInlineJob)

/-! Hybrid signatures (R150 to R152) -/

/-- The hybrid set of a job; set 1 where it names none. -/
def Job.hsig (x : Job) : HybridSig :=
  (hybridSig x.desc.set).getD { dsa := 4, curve := 1, pkM := 1312, skM := 2560, sigM := 2420, pkC := 65, skC := 32
                                sigC := 64, draw := 40 }

/-- The binding string B (R151). -/
def Job.binding (x : Job) : Bytes :=
  ascii "TRLHS" ++ leBytes 1 x.desc.set ++ leBytes 1 x.ctxField.length ++ x.ctxField

def hsigGenJob (x : Job) (s : State) : Result × State :=
  let h := x.hsig
  let (xi, e) := splitAt 32 x.rand
  let sk := fit h.skC (Config.eccSk h.curve e)
  s.giveKey x (fit h.pkM (Config.mldsaPk h.dsa xi) ++ eccPub h.curve h.pkC sk)
    (fit h.skM (Config.mldsaSk h.dsa xi) ++ sk)

def hsigSignJob (x : Job) (s : State) : Result × State :=
  let h := x.hsig
  let (skM, skC) := splitAt h.skM (s.bodyOf x)
  let m := x.binding ++ x.inp
  let sigM := Config.mldsaSign h.dsa skM (pureMessage x.binding x.inp)
    (if x.deterministic then zeros 32 else x.rand.take 32)
  let sigC := if h.curve = 1 then Config.ecdsaSign 1 skC 1 (hashOf 1 m) (x.rand.drop 32) else Config.ed25519Sign skC m
  ({ out := fit h.sigM sigM ++ fit h.sigC sigC }, s)

def hsigCheck (x : Job) (pk b : Bytes) : Result :=
  let h := x.hsig
  let (pkM, pkC) := splitAt h.pkM pk
  let (sigM, rest) := splitAt h.sigM b
  let (sigC, msg) := splitAt h.sigC rest
  let m := x.binding ++ msg
  let okM := Config.mldsaVerify h.dsa pkM (pureMessage x.binding msg) sigM
  let okC := if h.curve = 1 then eccPubOk 1 pkC && ecdsaOk 1 pkC 1 (hashOf 1 m) sigC
    else eccPubOk 4 pkC && Config.ed25519Verify pkC m sigC
  verdict (okM && okC)

def hsigVerifyJob (x : Job) (s : State) : Result × State := (hsigCheck x (s.keyOf x).pubKey x.inp, s)

def hsigInlineJob (x : Job) (s : State) : Result × State :=
  let n := x.hsig.pkM + x.hsig.pkC
  (hsigCheck x (x.inp.take n) (x.inp.drop n), s)

def execHybridSigKeyGeneration (j : Nat) (s : State) : Host.Outcome State Fault Refusal :=
  .next (s.compute j 0xB 0 hsigGenJob)
def execHybridSign (j : Nat) (s : State) : Host.Outcome State Fault Refusal := .next (s.compute j 0xB 1 hsigSignJob)
def execHybridVerifyReferenced (j : Nat) (s : State) : Host.Outcome State Fault Refusal :=
  .next (s.compute j 0xB 2 hsigVerifyJob)
def execHybridVerifyInline (j : Nat) (s : State) : Host.Outcome State Fault Refusal :=
  .next (s.compute j 0xB 3 hsigInlineJob)

/-! Lends (R272, R397, R398) -/

/-- The message input whose hashing a job may lend, with its M′: an ML-DSA or hybrid signature, signed or verified, and its
public key. -/
def State.lentMessage (s : State) (x : Job) : Option (Bytes × Bytes) :=
  let pk := (s.keyOf x).pubKey
  let (p, _, g) := (mldsaSize x.desc.set).getD (0, 0, 0)
  let h := x.hsig
  if x.desc.fam = 2 then
    match x.desc.op with
    | 1 => some (x.inp, Config.mldsaPkOfSk x.desc.set (s.bodyOf x))
    | 2 => some (x.inp.drop g, pk)
    | 3 => some (x.inp.drop (p + g), x.inp.take p)
    | _ => none
  else if x.desc.fam = 0xB then
    match x.desc.op with
    | 1 => some (x.inp, pk.take h.pkM)
    | 2 => some (x.inp.drop (h.sigM + h.sigC), pk.take h.pkM)
    | 3 => some (x.inp.drop (h.pkM + h.pkC + h.sigM + h.sigC), x.inp.take h.pkM)
    | _ => none
  else none

/-- μ of FIPS 204: SHAKE256 of the hash of the public key and M′, 64 bytes. -/
def muOf (pk m : Bytes) : Bytes :=
  (List.range 64).map (Config.shake256 ((List.range 64).map (Config.shake256 pk) ++ m))

/-- HASH_LEND, R272, R397, R398: the job on VCE `e`, whose message input exceeds 1 KiB, hands the rest of it to HSE `h`, which
reads it, and waits for μ. A reserved HSE serves a job of protection class only; after a fault of the HSE another takes the
lend up. DESIGN CHOICE, log entry 57, unsafe. -/
def execHashLend (e h : Nat) (s : State) : Host.Outcome State Fault Refusal :=
  .next (match (s.engine e).running with
    | some (j, _) =>
      match s.job? j with
      | some x =>
        let y := s.engine h
        match s.lentMessage x with
        | some (m, pk) =>
          let v := s.vce e
          if clsOf e = .vce ∧ clsOf h = .hse ∧ h < 52 ∧ m.length > 1024 ∧ x.stage = .active ∧ v.mu = []
              ∧ y.takes ∧ !y.gated ∧ !y.thawing ∧ y.running.isNone ∧ y.lend.isNone ∧ (x.prot || !s.reserved h)
              ∧ !allEngines.any (fun i => ((s.engine i).lend.map (·.1)) = some e) then
            let t := s.el + ceilDiv (4 * 12 * ceilDiv (m.length - 1024) 136) 5
            let mp := if x.desc.fam = 2 then x.mPrime m else pureMessage x.binding m
            let s := (s.jobReads j x.slice (rangesFrom x.inSegs (x.inp.length - m.length + 1024)))
            (s.onVce e fun v => { v with lent := true }).onEngine h fun y => { y with
              lend := some (e, t, muOf pk mp)
              lendIn := some (Config.absorbed pk ((mp.take (mp.length - m.length)) ++ m.take 1024),
                ((rangesFrom x.inSegs (x.inp.length - m.length + 1024)).head?.getD (0, 0)).1, m.length - 1024) }
          else s
        | none => s
      | none => s
    | none => s)

/-! Intermediate steps (R39, R147, R200, R201, R426) -/

/-- The public key that a step has computed is held in the slot, for which lines are made free; the shortage where that fails
(R426, R430, R434). DESIGN CHOICE, log entry 58, unsafe. -/
def State.holdPub (s : State) (i : Nat) : Nat × State :=
  let k := { s.slot i with pub := some (s.slot i).pubKey }
  let n := k.lineCount
  match s.makeRoom 16385 (n - (s.slot i).lines) 0 with
  | (0, s) => (0, s.onSlot i fun y => { y with pub := k.pub, lines := n, lineList := s.linesFor y n })
  | (why, s) => (why, s)

/-- The value that step `k` gives: of a hybrid KEM, what R147 passes to its combiner; of another plan, a value of the
operation's
own. -/
def State.stepGives (s : State) (x : Job) (k : Nat) : Bytes :=
  let own := Config.stepValue x.desc.opc.toNat k (s.bodyOf x) x.rand x.inp
  if x.desc.fam ≠ 0xA then own
  else if x.desc.op = 1 ∨ x.desc.op = 5 then
    (let (m, c) := hkemDec x.hkem (s.bodyOf x) x.inp
    if k = 0 then m else if k = 1 then c else own)
  else if x.desc.op = 0 then own
  else
    let (m, c, ctM, ctC) := hkemEnc x.hkem (if x.desc.op = 2 ∨ x.desc.op = 6 then (s.keyOf x).pubKey else x.inp) x.rand
    if k = 0 then m ++ ctM else if k = 1 then c ++ ctC else own

/-- Step `k` of a plan leaves its value in the job's scratch area, a secret one in two fresh shares (R39, R118). -/
def State.passValue (s : State) (j k : Nat) (x : Job) : State :=
  let v := s.stepGives x k
  let i := s.jobInfo x
  let (l, s) := if i.masked || i.blinded then (let (r, s) := s.draw v.length; ([xorBytes v r, r], s)) else ([v], s)
  s.onJob j fun x => { x with passed := mapInsert x.passed k l }

/-- INTERNAL_FLAG_SET, R201: an intermediate step ends on its engine, which is free; the steps that waited for it and for
nothing else are READY. -/
def execInternalFlagSet (j k : Nat) (s : State) : Host.Outcome State Fault Refusal :=
  .next (match s.job? j with
    | some x =>
      if s.awake && x.stage = .active && x.computed.isNone && x.runs k && x.unfinished.length > 1 && s.stepComputes x k
          && !x.waitCommit then
        let p := if s.pubStep x k then s.holdPub (x.key.getD 0) else (0, s.passValue j k x)
        let s := p.2
        if p.1 ≠ 0 then (s.shortage x.slice p.1).finish j (fail .keyState) (s.runningOn j)
        else
        let e := ((x.steps[k]?).getD {}).engine
        let s := if (s.engine e).running = some (j, k) then (s.leaveRunning e).frostJob e true else s
        s.onJob j fun x => (x.onStep k fun p => { p with st := .finished }).wake
      else s
    | none => s)

end Sys2Proof.Machine
end

