-- ==== Sys2Proof/Machine/Classic.lean ====
section
/-! DEFINITION. The classical and symmetric operations of chapter 04: elliptic curves, RSA, AES and ChaCha20-Poly1305,
hashes, MACs and key derivation (R154 to R179). -/

namespace Sys2Proof.Machine

/-! Elliptic curves (R161 to R166) -/

/-- DIGEST of the classical sign options (R165). -/
def Job.digestMode (x : Job) : Bool := leAt x.block 9 1 / 2 % 2 = 1

/-- HASH of the options (R165). -/
def Job.hashCode (x : Job) : Nat := leAt x.block 8 1

/-- The digest that is signed of message input `m`. -/
def Job.digestOf (x : Job) (m : Bytes) : Bytes := if x.digestMode then m else hashOf (x.desc.classicHash x.block) m

/-- Lengths of the curve of a job. -/
def Job.ecc (x : Job) : Curve := (curve x.desc.set).getD { sk := 32, pk := 32, draw := 32 }

def eccGenJob (x : Job) (s : State) : Result × State :=
  let sk := fit x.ecc.sk (Config.eccSk x.desc.set x.rand)
  s.giveKey x (eccPub x.desc.set x.ecc.pk sk) sk

/-- ECDSA, pure Ed25519 or Ed25519ph (R163, R166). -/
def eccSignJob (x : Job) (s : State) : Result × State :=
  let sk := s.bodyOf x
  let sig :=
    if x.desc.set = 4 then
      (if x.hashCode = 0 then Config.ed25519Sign sk x.inp else Config.ed25519phSign sk (x.digestOf x.inp) x.ctxField)
    else Config.ecdsaSign x.desc.set sk (x.desc.classicHash x.block) (x.digestOf x.inp)
      (if x.deterministic then [] else x.rand)
  ({ out := fit x.ecc.sig sig }, s)

/-- The verdict on `b`, signature and message, under the public key `pk` (R163, R164). -/
def eccCheck (x : Job) (pk b : Bytes) : Result :=
  let (sig, m) := splitAt x.ecc.sig b
  verdict (eccPubOk x.desc.set pk &&
    (if x.desc.set = 4 then
      (if x.hashCode = 0 then Config.ed25519Verify pk m sig else Config.ed25519phVerify pk (x.digestOf m) x.ctxField sig)
    else ecdsaOk x.desc.set pk (x.desc.classicHash x.block) (x.digestOf m) sig))

def eccVerifyJob (x : Job) (s : State) : Result × State := (eccCheck x (s.keyOf x).pubKey x.inp, s)

def eccInlineJob (x : Job) (s : State) : Result × State :=
  let (pk, b) := splitAt x.ecc.pk x.inp
  (eccCheck x pk b, s)

/-- Key agreement: an invalid peer key or an all-zero output completes VERIFY_FAIL (R164). -/
def agreementJob (x : Job) (s : State) : Result × State :=
  match agree x.desc.set x.ecc.ss (s.bodyOf x) x.inp with
  | some ss => s.giveSecret x [] ss false
  | none => (fail .verifyFail, s)

def execEccKeyGeneration (j : Nat) (s : State) : Host.Outcome State Fault Refusal := .next (s.compute j 8 0 eccGenJob)
def execEccSign (j : Nat) (s : State) : Host.Outcome State Fault Refusal := .next (s.compute j 8 1 eccSignJob)
def execEccVerifyReferenced (j : Nat) (s : State) : Host.Outcome State Fault Refusal :=
  .next (s.compute j 8 2 eccVerifyJob)
def execEccVerifyInline (j : Nat) (s : State) : Host.Outcome State Fault Refusal := .next (s.compute j 8 3 eccInlineJob)
def execKeyAgreement (j : Nat) (s : State) : Host.Outcome State Fault Refusal := .next (s.compute j 8 4 agreementJob)

/-! RSA (R167 to R170) -/

/-- k of the job's size. -/
def Job.rsa (x : Job) : Nat := (rsaK x.desc.set).getD 0

/-- The conditions of R167 on a public key. -/
def rsaPkOk (k : Nat) (pk : Bytes) : Bool :=
  let e := beVal (cut pk k 4)
  decide (beVal (pk.take 1) ≥ 128) && decide (e % 2 = 1) && decide (65537 ≤ e)

/-- Key generation: e is 65,537 (R167, R168). -/
def rsaGenJob (x : Job) (s : State) : Result × State :=
  let body := overwrite (fit (rsaBodyLen x.rsa) (Config.rsaBody x.desc.set x.rand)) x.rsa (beBytes 4 65537)
  s.giveKey x (body.take (x.rsa + 4)) body

def rsaSignJob (x : Job) (s : State) : Result × State :=
  ({ out := fit x.rsa (Config.rsaSignV15 (s.bodyOf x) (x.desc.classicHash x.block) (x.digestOf x.inp)) }, s)

/-- PSS takes its salt from the drawn bytes. -/
def rsaPssJob (x : Job) (s : State) : Result × State :=
  ({ out := fit x.rsa (Config.rsaSignPss (s.bodyOf x) (x.desc.classicHash x.block) (x.digestOf x.inp) x.rand) }, s)

/-- The verdict on signature and message; `pss` requires a salt of SALTLEN bytes (R169). -/
def rsaCheck (x : Job) (pss : Bool) (pk b : Bytes) : Result :=
  let (sig, m) := splitAt x.rsa b
  let h := x.desc.classicHash x.block
  verdict (rsaPkOk x.rsa pk &&
    (if pss then Config.rsaVerifyPss pk h x.saltLen (x.digestOf m) sig else Config.rsaVerifyV15 pk h (x.digestOf m) sig))

def rsaVerifyJob (pss : Bool) (x : Job) (s : State) : Result × State := (rsaCheck x pss (s.keyOf x).pubKey x.inp, s)

def rsaInlineJob (pss : Bool) (x : Job) (s : State) : Result × State :=
  let (pk, b) := splitAt (x.rsa + 4) x.inp
  (rsaCheck x pss pk b, s)

/-- OAEP decryption: a decoding failure completes VERIFY_FAIL (R170). -/
def oaepJob (x : Job) (s : State) : Result × State :=
  match Config.rsaOaep (s.bodyOf x) (x.desc.classicHash x.block) x.ctxField x.inp with
  | some m => ({ out := m.take (x.rsa - 2 * x.desc.classicHashLen x.block - 2) }, s)
  | none => (fail .verifyFail, s)

def execRsaKeyGeneration (j : Nat) (s : State) : Host.Outcome State Fault Refusal := .next (s.compute j 9 0 rsaGenJob)
def execRsaSignPkcs1V15 (j : Nat) (s : State) : Host.Outcome State Fault Refusal := .next (s.compute j 9 1 rsaSignJob)
def execRsaSignPss (j : Nat) (s : State) : Host.Outcome State Fault Refusal := .next (s.compute j 9 2 rsaPssJob)
def execRsaVerifyV15Referenced (j : Nat) (s : State) : Host.Outcome State Fault Refusal :=
  .next (s.compute j 9 3 (rsaVerifyJob false))
def execRsaVerifyPssReferenced (j : Nat) (s : State) : Host.Outcome State Fault Refusal :=
  .next (s.compute j 9 4 (rsaVerifyJob true))
def execRsaVerifyV15Inline (j : Nat) (s : State) : Host.Outcome State Fault Refusal :=
  .next (s.compute j 9 5 (rsaInlineJob false))
def execRsaVerifyPssInline (j : Nat) (s : State) : Host.Outcome State Fault Refusal :=
  .next (s.compute j 9 6 (rsaInlineJob true))
def execOaepDecrypt (j : Nat) (s : State) : Host.Outcome State Fault Refusal := .next (s.compute j 9 7 oaepJob)

/-! AES and ChaCha20-Poly1305 (R171 to R173) -/

/-- The nonce: drawn, or given in the block. -/
def Job.nonce (x : Job) : Bytes := if drawNonce x.block then x.rand else cut x.block 8 12

/-- N of the output: the drawn nonce, or nothing. -/
def Job.nonceOut (x : Job) : Bytes := if drawNonce x.block then x.rand else []

/-- The input split at AADLEN. -/
def Job.aadSplit (x : Job) : Bytes × Bytes := splitAt (leAt x.block 28 4) x.inp

/-- The last `t` bytes, after the rest. -/
def tailSplit (t : Nat) (b : Bytes) : Bytes × Bytes := splitAt (b.length - t) b

/-- Encryption and tag of AES-GCM, or of ChaCha20-Poly1305. -/
def aeadSeal (chacha : Bool) (key nonce aad p : Bytes) : Bytes × Bytes :=
  let c := fit p.length (if chacha then Config.chachaCrypt key nonce p else Config.gcmCrypt key nonce p)
  (c, fit 16 (if chacha then Config.chachaTag key nonce aad c else Config.gcmTag key nonce aad c))

/-- The plaintext, where the first bytes of the tag are `t`. -/
def aeadOpen (chacha : Bool) (key nonce aad c t : Bytes) : Option Bytes :=
  let tag := fit 16 (if chacha then Config.chachaTag key nonce aad c else Config.gcmTag key nonce aad c)
  if tag.take t.length = t then
    some (fit c.length (if chacha then Config.chachaCrypt key nonce c else Config.gcmCrypt key nonce c))
  else none

def aeadEncJob (chacha : Bool) (x : Job) (s : State) : Result × State :=
  let (aad, p) := x.aadSplit
  let (c, t) := aeadSeal chacha (s.bodyOf x) x.nonce aad p
  ({ out := x.nonceOut ++ c ++ t.take (symTag x.block) }, s)

def aeadDecJob (chacha : Bool) (x : Job) (s : State) : Result × State :=
  let (aad, rest) := x.aadSplit
  let (c, t) := tailSplit (symTag x.block) rest
  match aeadOpen chacha (s.bodyOf x) x.nonce aad c t with
  | some p => ({ out := p }, s)
  | none => (fail .tagMismatch, s)

/-- The GMAC tag of data. -/
def gmac (key nonce a : Bytes) (n : Nat) : Bytes := (fit 16 (Config.gcmTag key nonce a [])).take n

def gmacGenJob (x : Job) (s : State) : Result × State :=
  ({ out := x.nonceOut ++ gmac (s.bodyOf x) x.nonce x.inp (symTag x.block) }, s)

def gmacVerifyJob (x : Job) (s : State) : Result × State :=
  let (a, t) := tailSplit (symTag x.block) x.inp
  (verdict (decide (gmac (s.bodyOf x) x.nonce a (symTag x.block) = t)), s)

def cmacTag (key m : Bytes) (n : Nat) : Bytes := (fit 16 (Config.cmac key m)).take n

def cmacGenJob (x : Job) (s : State) : Result × State :=
  ({ out := cmacTag (s.bodyOf x) x.inp (symTag x.block) }, s)

def cmacVerifyJob (x : Job) (s : State) : Result × State :=
  let (m, t) := tailSplit (symTag x.block) x.inp
  (verdict (decide (cmacTag (s.bodyOf x) m (symTag x.block) = t)), s)

def ctrJob (x : Job) (s : State) : Result × State :=
  let iv := cut x.block 8 16
  ({ out := xorBytes x.inp ((List.range x.inp.length).map (ctrByte (s.bodyOf x) iv)) }, s)

def kwJob (kwp : Bool) (x : Job) (s : State) : Result × State :=
  let n := if kwp then roundUp x.inp.length 8 + 8 else x.inp.length + 8
  ({ out := fit n (if kwp then Config.kwpWrap (s.bodyOf x) x.inp else Config.kwWrap (s.bodyOf x) x.inp) }, s)

def kwUnwrapJob (kwp : Bool) (x : Job) (s : State) : Result × State :=
  match (if kwp then Config.kwpUnwrap (s.bodyOf x) x.inp else Config.kwUnwrap (s.bodyOf x) x.inp) with
  | some p => ({ out := if kwp then p.take (x.inp.length - 8) else fit (x.inp.length - 8) p }, s)
  | none => (fail .tagMismatch, s)

def execGcmEncrypt (j : Nat) (s : State) : Host.Outcome State Fault Refusal := .next (s.compute j 0x10 0 (aeadEncJob false))
def execGcmDecrypt (j : Nat) (s : State) : Host.Outcome State Fault Refusal := .next (s.compute j 0x10 1 (aeadDecJob false))
def execGmacGenerate (j : Nat) (s : State) : Host.Outcome State Fault Refusal := .next (s.compute j 0x10 2 gmacGenJob)
def execGmacVerify (j : Nat) (s : State) : Host.Outcome State Fault Refusal := .next (s.compute j 0x10 3 gmacVerifyJob)
def execCmacGenerate (j : Nat) (s : State) : Host.Outcome State Fault Refusal := .next (s.compute j 0x10 4 cmacGenJob)
def execCmacVerify (j : Nat) (s : State) : Host.Outcome State Fault Refusal := .next (s.compute j 0x10 5 cmacVerifyJob)
def execCtr (j : Nat) (s : State) : Host.Outcome State Fault Refusal := .next (s.compute j 0x10 6 ctrJob)
def execKwWrap (j : Nat) (s : State) : Host.Outcome State Fault Refusal := .next (s.compute j 0x10 7 (kwJob false))
def execKwUnwrap (j : Nat) (s : State) : Host.Outcome State Fault Refusal := .next (s.compute j 0x10 8 (kwUnwrapJob false))
def execKwpWrap (j : Nat) (s : State) : Host.Outcome State Fault Refusal := .next (s.compute j 0x10 9 (kwJob true))
def execKwpUnwrap (j : Nat) (s : State) : Host.Outcome State Fault Refusal := .next (s.compute j 0x10 10 (kwUnwrapJob true))
def execChacha20Poly1305Encrypt (j : Nat) (s : State) : Host.Outcome State Fault Refusal :=
  .next (s.compute j 0x11 0 (aeadEncJob true))
def execChacha20Poly1305Decrypt (j : Nat) (s : State) : Host.Outcome State Fault Refusal :=
  .next (s.compute j 0x11 1 (aeadDecJob true))

/-! Hashes, XOFs and MACs (R174, R175) -/

def sha2Job (x : Job) (s : State) : Result × State := ({ out := hashOf x.desc.set x.inp }, s)

def sha3Job (x : Job) (s : State) : Result × State := ({ out := hashOf (x.desc.set + 8) x.inp }, s)

/-- SHAKE, or cSHAKE with N and S: exactly OUT_CAP bytes. -/
def xofJob (x : Job) (s : State) : Result × State :=
  let n := fieldA 8 x.block
  let c := fieldB 8 x.block
  let byte := match x.desc.set with
    | 0 => Config.shake128 x.inp | 1 => Config.shake256 x.inp
    | 2 => Config.cshake128 x.inp n c | _ => Config.cshake256 x.inp n c
  ({ out := (List.range x.desc.outCap).map byte }, s)

/-- The HMAC of a variant, whole. -/
def hmacOf (v : Nat) (key m : Bytes) : Bytes := fit ((hashLen v).getD 0) (Config.hmac v key m)

/-- The tag of an HMAC or KMAC job over a message. -/
def Job.macOf (x : Job) (key m : Bytes) : Bytes :=
  let t := x.desc.macTag x.block
  if x.desc.op ≤ 5 then (hmacOf x.desc.set key m).take t else fit t (Config.kmac x.desc.set key m t (fieldB 8 x.block))

def macGenJob (x : Job) (s : State) : Result × State := ({ out := x.macOf (s.bodyOf x) x.inp }, s)

def macVerifyJob (x : Job) (s : State) : Result × State :=
  let (m, t) := tailSplit (x.desc.macTag x.block) x.inp
  (verdict (decide (x.macOf (s.bodyOf x) m = t)), s)

def execSha2Hash (j : Nat) (s : State) : Host.Outcome State Fault Refusal := .next (s.compute j 0x12 1 sha2Job)
def execSha3Hash (j : Nat) (s : State) : Host.Outcome State Fault Refusal := .next (s.compute j 0x12 2 sha3Job)
def execXof (j : Nat) (s : State) : Host.Outcome State Fault Refusal := .next (s.compute j 0x12 3 xofJob)
def execHmacGenerate (j : Nat) (s : State) : Host.Outcome State Fault Refusal := .next (s.compute j 0x12 4 macGenJob)
def execHmacVerify (j : Nat) (s : State) : Host.Outcome State Fault Refusal := .next (s.compute j 0x12 5 macVerifyJob)
def execKmacGenerate (j : Nat) (s : State) : Host.Outcome State Fault Refusal := .next (s.compute j 0x12 6 macGenJob)
def execKmacVerify (j : Nat) (s : State) : Host.Outcome State Fault Refusal := .next (s.compute j 0x12 7 macVerifyJob)

/-! Key derivation (R176 to R178) -/

/-- [i]32. -/
def be32 (i : Nat) : Bytes := beBytes 4 i

/-- Blocks i, i + 1, … of a derivation, each from its number and the block before, until `n` bytes are there. -/
def blocks (f : Nat → Bytes → Bytes) : Nat → Nat → Bytes → Nat → Bytes
  | 0, _, _, _ => []
  | fuel + 1, i, prev, n =>
    let b := f i prev
    if b.length ≥ n ∨ b = [] then b.take n else b ++ blocks f fuel (i + 1) b (n - b.length)

/-- `n` bytes of such a derivation from block 1. -/
def derive (f : Nat → Bytes → Bytes) (n : Nat) : Bytes := fit n (blocks f n 1 [] n)

/-- HKDF-Expand of RFC 5869. -/
def hkdfExpand (v : Nat) (prk info : Bytes) (n : Nat) : Bytes :=
  derive (fun i prev => hmacOf v prk (prev ++ info ++ beBytes 1 i)) n

/-- The derived bytes of a KDF job from the secret `z`. PRESUMED, log entry 30, unsafe. -/
def Job.kdf (x : Job) (z : Bytes) : Bytes :=
  let v := x.desc.set
  let a := fieldA 32 x.block
  let b := fieldB 32 x.block
  let n := kdfLen x.block
  let fixed := a ++ [0] ++ b ++ be32 (8 * n)
  match x.desc.op with
  | 0 => hkdfExpand v (hmacOf v (if a = [] then zeros ((hashLen v).getD 0) else a) z) b n
  | 1 => hkdfExpand v z b n
  | 2 => derive (fun i _ => hmacOf v z (be32 i ++ fixed)) n
  | 3 => derive (fun i prev => hmacOf v z (prev ++ be32 i ++ fixed)) n
  | 4 => fit n (Config.kmac v z b n a)
  | 5 => derive (fun i _ => hashOf v (be32 i ++ z ++ a)) n
  | 6 => derive (fun i _ => hmacOf v (if b = [] then zeros (hashBlock v) else b) (be32 i ++ z ++ a)) n
  | _ =>
    let salt := if b = [] then zeros (if v = 1 then 164 else 132) else b
    fit n (Config.kmac v salt (be32 1 ++ z ++ a) n (ascii "KDF"))

/-- A KDF job: its secret is the key's body, or its input, which marks the new key imported (R177). -/
def kdfJob (x : Job) (s : State) : Result × State :=
  s.giveSecret x [] (x.kdf (if x.key.isSome then s.bodyOf x else x.inp)) x.key.isNone

def execHkdf (j : Nat) (s : State) : Host.Outcome State Fault Refusal := .next (s.compute j 0x13 0 kdfJob)
def execHkdfExpand (j : Nat) (s : State) : Host.Outcome State Fault Refusal := .next (s.compute j 0x13 1 kdfJob)
def execSp800108Counter (j : Nat) (s : State) : Host.Outcome State Fault Refusal := .next (s.compute j 0x13 2 kdfJob)
def execSp800108Feedback (j : Nat) (s : State) : Host.Outcome State Fault Refusal := .next (s.compute j 0x13 3 kdfJob)
def execSp800108Kmac (j : Nat) (s : State) : Host.Outcome State Fault Refusal := .next (s.compute j 0x13 4 kdfJob)
def execOneStepHash (j : Nat) (s : State) : Host.Outcome State Fault Refusal := .next (s.compute j 0x13 5 kdfJob)
def execOneStepHmac (j : Nat) (s : State) : Host.Outcome State Fault Refusal := .next (s.compute j 0x13 6 kdfJob)
def execOneStepKmac (j : Nat) (s : State) : Host.Outcome State Fault Refusal := .next (s.compute j 0x13 7 kdfJob)

end Sys2Proof.Machine
end

