-- ==== Sys2Proof/Machine/Sessions.lean ====
section
/-! DEFINITION. Sessions, random numbers and control (R180 to R188, R191, R192). -/

namespace Sys2Proof.Machine

/-! The session context (R181) -/

/-- The handle of session `i` as it stands (R180). -/
def State.sessHandle (s : State) (i : Nat) : Nat := s.sessGen i * 2 ^ 20 + i % 2 ^ 20

def SessSt.code : SessSt → Nat
  | .free => 0 | .active => 1 | .expired => 2

/-- The 256 bytes of the context with handle `h`. -/
def Session.bytes (x : Session) (h : Nat) : Bytes :=
  leBytes 4 h ++ leBytes 1 x.st.code ++ leBytes 1 x.variant
    ++ leBytes 1 (bitOf x.replay + 2 * bitOf x.rxValid + 4 * bitOf x.nextValid) ++ zeros 1 ++ leBytes 4 x.key
    ++ leBytes 4 x.keyNext ++ leBytes 8 x.activate ++ leBytes 4 x.graceUs ++ zeros 4 ++ leBytes 8 x.txCounter
    ++ leBytes 8 x.rxHigh ++ leBytes 32 x.rxWindow.toNat ++ fit 16 x.peerId ++ leBytes 8 x.expiry ++ fit 12 x.nonceSalt
    ++ zeros 12 ++ leBytes 8 x.sent ++ leBytes 8 x.accepted ++ leBytes 8 x.authFail ++ leBytes 8 x.replays
    ++ leBytes 8 x.bytesOut ++ leBytes 8 x.bytesIn ++ leBytes 8 x.lastAccept ++ zeros 72

/-- A statistic, modulo 2^64. -/
def stat (a n : Nat) : Nat := (a + n) % 2 ^ 64

/-- A session takes hold of the key slot `k`. -/
def State.pin (s : State) (k : Nat) : State := s.onSlot k fun y => { y with pins := y.pins + 1 }

/-! Create, destroy, read and rekey (R182 to R185) -/

/-- CREATE (R184): the session takes its handle, and pins its key slot. DEDUCED, log entry 69, unsafe. -/
def createJob (x : Job) (s : State) : Result × State :=
  let b := x.block
  let i := leAt b 12 4
  match x.key with
  | none => (fail .keyState, s)
  | some k =>
    -- a slot evicted meanwhile answers no lookup (R436)
    if !s.createFits x || s.handle k ≠ x.keyHandle then (fail .keyState, s)
    else
      let h := s.handle k
      let s := (s.pin k).onSession i fun y => {
        gen := y.gen, st := .active, variant := leAt b 8 1, replay := leAt b 9 1 % 2 = 1, key := h
        txCounter := leAt b 24 8, peerId := cut b 48 16, expiry := leAt b 16 8, nonceSalt := cut b 32 12 }
      ({ out := leBytes 4 (s.sessHandle i) }, s.cacheSession i)

/-- A job on an existing session; a stale handle completes KEY_STATE (R180). -/
def onSessionJob (f : Nat → Job → State → Result × State) (x : Job) (s : State) : Result × State :=
  match s.sessionBy x.slice x.desc.session with
  | some i => f i x s
  | none => (fail .keyState, s)

/-- A destroyed session lets a slot go; one that a session loaded ends with its last pin (R184, R433). -/
def State.dropKey (s : State) (h : Nat) : State :=
  let k := s.slot (slotIndex h)
  if k.bySession ∧ k.pins ≤ 1 ∧ k.inUse ∧ !k.zombie ∧ s.handle (slotIndex h) = h then s.freeSlot (slotIndex h) else s.unpin h

/-- Session `i` becomes FREE, with its keys let go and its generation raised (R184). -/
def State.endSession (s : State) (i : Nat) : State :=
  let y := s.session i
  let s := s.dropKey y.key
  let s := if y.nextValid then s.dropKey y.keyNext else s
  let s := s.onSession i Session.freed
  { s with kmg := { s.kmg with sessCache := s.kmg.sessCache.filter (· ≠ i) } }

def destroyOne (i : Nat) (_ : Job) (s : State) : Result × State := ({}, s.endSession i)

def readOne (i : Nat) (_ : Job) (s : State) : Result × State := ({ out := (s.session i).bytes (s.sessHandle i) }, s)

/-- REKEY of one session (R182, R185): its next key and when it takes effect. DEDUCED, log entry 69, unsafe. -/
def rekeyOne (i : Nat) (x : Job) (s : State) : Result × State :=
  let y := s.session i
  match x.key with
  | none => (fail .keyState, s)
  | some k =>
    if y.nextValid || s.handle k ≠ x.keyHandle then (fail .keyState, s)
    else if !variantFits y.variant (s.slot k) then (fail .keyPolicy, s)
    else
      let h := s.handle k
      ({}, (s.pin k).onSession i fun y => { y with
        keyNext := h, nextValid := true, activate := leAt x.inp 0 8, graceUs := leAt x.inp 8 4 })

def execSessionCreate (j : Nat) (s : State) : Host.Outcome State Fault Refusal := .next (s.compute j 0x20 0 createJob)
def execSessionDestroy (j : Nat) (s : State) : Host.Outcome State Fault Refusal :=
  .next (s.compute j 0x20 1 (onSessionJob destroyOne))
def execSessionRead (j : Nat) (s : State) : Host.Outcome State Fault Refusal :=
  .next (s.compute j 0x20 2 (onSessionJob readOne))
def execRekey (j : Nat) (s : State) : Host.Outcome State Fault Refusal :=
  .next (s.compute j 0x20 7 (onSessionJob rekeyOne))

/-! Seal, open and tags (R183, R185 to R188) -/

/-- The nonce or IV of a message with counter `c` (R183). -/
def Session.nonce (y : Session) (c : Nat) : Bytes := xorBytes (fit 12 y.nonceSalt) (zeros 4 ++ beBytes 8 c)

/-- The key a session names, checked as at each use of a slot (R183, R427 steps 6 and 7). -/
def State.sessionKey (s : State) (x : Job) (y : Session) (h right : Nat) : KeyRes Bytes :=
  match s.bySlot x.slice h with
  | none => .err .keyState 0
  | some i =>
    let k := s.slot i
    if !s.keyAlive k then .err .keyExpired 0
    else if !variantFits y.variant k || (k.usage &&& BitVec.ofNat 32 right) = 0 || (k.policyBit pPROT && !x.prot) then
      .err .keyPolicy 0
    else .ok (s.portKey x i)

/-- The tag of a tag operation. -/
def Session.tagOf (y : Session) (key m : Bytes) (c : Nat) : Bytes :=
  if y.kind.hmac then (hmacOf 1 key m).take y.kind.tag else gmac key (y.nonce c) m y.kind.tag

/-- The key that a send uses at the job's time (R185). -/
def Session.sendKey (y : Session) (t : Nat) : Nat := if y.nextValid ∧ y.activate ≤ t then y.keyNext else y.key

/-- The keys that a receipt tries at the job's time, in order (R185). -/
def Session.receiveKeys (y : Session) (t : Nat) : List Nat :=
  if y.nextValid ∧ y.activate ≤ t then
    (if t < y.activate + y.graceUs * 1000 then [y.keyNext, y.key] else [y.keyNext])
  else [y.key]

/-- A send: what it puts after COUNTER, and its payload length for the statistics (R186). -/
def sendOne (right : Nat) (f : Session → Bytes → Nat → Bytes) (payload : Nat) (i : Nat) (x : Job) (s : State) :
    Result × State :=
  let y := s.session i
  match s.sessionKey x y (y.sendKey x.startAt) right with
  | .err st d => (fail st d, s)
  | .ok key =>
    let c := x.counter.getD 0
    ({ out := leBytes 8 c ++ f y key c },
      s.onSession i fun y => { y with sent := stat y.sent 1, bytesOut := stat y.bytesOut payload })

def sealOne (i : Nat) (x : Job) (s : State) : Result × State :=
  let (aad, p) := splitAt x.desc.aadLen x.inp
  sendOne rENCRYPT (fun y key c =>
    let (ct, t) := aeadSeal (y.variant = 0x11) key (y.nonce c) aad p
    ct ++ t) p.length i x s

def tagOne (i : Nat) (x : Job) (s : State) : Result × State :=
  sendOne rMACG (fun y key c => y.tagOf key x.inp c) x.inp.length i x s

/-- REPLAY with its DETAIL, where the window refuses the counter (R187). -/
def Session.replayed (y : Session) (c : Nat) : Option Nat :=
  if y.replay ∧ y.rxValid ∧ c ≤ y.rxHigh then
    let d := y.rxHigh - c
    if d ≥ 256 then some 1 else if y.rxWindow.getLsbD d then some 0 else none
  else none

/-- The window after a message with counter `c` has been accepted (R187). -/
def Session.admitted (y : Session) (c : Nat) : Session :=
  if !y.replay then y
  else if !y.rxValid then { y with rxHigh := c, rxWindow := 1, rxValid := true }
  else if c > y.rxHigh then { y with rxWindow := (y.rxWindow <<< (c - y.rxHigh)) ||| 1, rxHigh := c }
  else { y with rxWindow := y.rxWindow ||| (BitVec.ofNat 256 (2 ^ (y.rxHigh - c))) }

/-- Tries the keys in order: the first that authenticates gives its output. Where none does, an authentication failure of any
of them is the outcome, else the refusal of the last. DESIGN CHOICE, log entry 89, unsafe. -/
def State.tryKeys (s : State) (x : Job) (y : Session) (right : Nat) (f : Bytes → Option Bytes) (bad : Status) :
    List Nat → Except Result Bytes
  | [] => .error (fail bad)
  | h :: rest =>
    match s.sessionKey x y h right with
    | .err st d =>
      (match rest with
      | [] => .error (fail st d)
      | _ => s.tryKeys x y right f bad rest)
    | .ok key =>
      match f key with
      | some b => .ok b
      | none =>
        match s.tryKeys x y right f bad rest with
        | .ok b => .ok b
        | .error _ => .error (fail bad)

/-- A receipt with its counter, the bytes it authenticates and its payload length (R187, R188). -/
def receiveOne (right : Nat) (bad : Status) (f : Session → Bytes → Option Bytes) (payload c : Nat) (i : Nat) (x : Job)
    (s : State) : Result × State :=
  let y := s.session i
  match y.replayed c with
  | some d => (fail .replay d, s.onSession i fun y => { y with replays := stat y.replays 1 })
  | none =>
    match s.tryKeys x y right (f y) bad (y.receiveKeys x.startAt) with
    | .error r =>
      (r, if r.status = bad then s.onSession i fun y => { y with authFail := stat y.authFail 1 } else s)
    | .ok out =>
      let t := s.now
      ({ out := out }, s.onSession i fun y => { y.admitted c with
        accepted := stat y.accepted 1, bytesIn := stat y.bytesIn payload, lastAccept := t })

def openOne (i : Nat) (x : Job) (s : State) : Result × State :=
  let c := leAt x.inp 0 8
  let (aad, rest) := splitAt x.desc.aadLen (x.inp.drop 8)
  let (ct, t) := tailSplit (s.session i).kind.tag rest
  receiveOne rDECRYPT .tagMismatch (fun y key => aeadOpen (y.variant = 0x11) key (y.nonce c) aad ct t) ct.length c i x s

def verifyOne (i : Nat) (x : Job) (s : State) : Result × State :=
  let c := leAt x.inp 0 8
  let (m, t) := tailSplit (s.session i).kind.tag (x.inp.drop 8)
  receiveOne rMACV .verifyFail (fun y key => if y.tagOf key m c = t then some [] else none) m.length c i x s

def execSeal (j : Nat) (s : State) : Host.Outcome State Fault Refusal := .next (s.compute j 0x20 3 (onSessionJob sealOne))
def execSessionOpen (j : Nat) (s : State) : Host.Outcome State Fault Refusal :=
  .next (s.compute j 0x20 4 (onSessionJob openOne))
def execTagGenerate (j : Nat) (s : State) : Host.Outcome State Fault Refusal :=
  .next (s.compute j 0x20 5 (onSessionJob tagOne))
def execTagVerify (j : Nat) (s : State) : Host.Outcome State Fault Refusal :=
  .next (s.compute j 0x20 6 (onSessionJob verifyOne))

/-! Random numbers and control (R191, R192) -/

def rngJob (x : Job) (s : State) : Result × State := ({ out := x.rand }, s)

/-- The slice's instance was reseeded from the job's fresh block before it drew, or with nothing drawn (R469). -/
def rngPrJob (x : Job) (s : State) : Result × State := ({ out := x.rand }, s)

def reseedJob (_ : Job) (s : State) : Result × State := ({}, s)

def controlJob (_ : Job) (s : State) : Result × State := ({}, s)

def execRngGenerate (j : Nat) (s : State) : Host.Outcome State Fault Refusal := .next (s.compute j 0x40 0 rngJob)
def execRngGeneratePr (j : Nat) (s : State) : Host.Outcome State Fault Refusal := .next (s.compute j 0x40 1 rngPrJob)
def execRngReseed (j : Nat) (s : State) : Host.Outcome State Fault Refusal := .next (s.compute j 0x40 2 reseedJob)
/-- No-op: its flags are set when its entry is issued (R192, R233). -/
def execNoOp (j : Nat) (s : State) : Host.Outcome State Fault Refusal := .next (s.compute j 0x50 0 controlJob)
/-- Clear flags: the flags of EVSET are cleared when its entry is issued (R192, R233). -/
def execClearFlags (j : Nat) (s : State) : Host.Outcome State Fault Refusal := .next (s.compute j 0x50 1 controlJob)

end Sys2Proof.Machine
end

