-- ==== Sys2Proof/Machine/KeyOps.lean ====
section
/-! DEFINITION. Family 0x30: the operations on keys and blobs (R438 to R448). -/

namespace Sys2Proof.Machine

/-- A field of the key-management block. -/
def Job.kmAlg (x : Job) : Nat := Sys2Proof.Machine.kmAlg x.block

/-- GENERATE (R440). -/
def generateJob (x : Job) (s : State) : Result × State := s.deliver x [] x.kmAlg x.rand (newPolicy x.block false)

/-- The encapsulation key that a decapsulation key holds: dk = dk_PKE ‖ ek ‖ H(ek) ‖ z (R109). -/
def dkEk (set : Nat) (b : Bytes) : Bytes :=
  let (ek, dk, _) := (mlkemSize set).getD (0, 0, 0)
  cut b (dk - 64 - ek) ek

/-- The validation of key material as generation would make it (R441). -/
def materialOk (alg : Nat) (b : Bytes) : Bool :=
  let set := algSet alg
  algBodyOk alg b.length &&
    (match algFam alg, algKind alg with
    | 1, 1 => Config.mlkemEkOk set b
    | 1, 0 => Config.mlkemDkOk set b && Config.mlkemEkOk set (dkEk set b)
    | 6, 1 => Config.hqcPkOk set b
    | 7, 1 => Config.mcePkOk (mceBase set) b
    | 8, 1 => set ≥ 5 || eccPubOk set b
    | 8, 0 => Config.eccSkOk set b
    | 9, _ => rsaPkOk ((rsaK set).getD 0) b
    | 0xA, 1 => ((hybridKem set).map fun h => hkemPkOk h b).getD false
    | 0xA, 0 =>
      ((hybridKem set).map fun h =>
        Config.mlkemDkOk h.kem (b.take h.dk) && Config.mlkemEkOk h.kem (dkEk h.kem (b.take h.dk)) && Config.eccSkOk h.curve (b.drop h.dk)).getD false
    | _, 0 | _, 1 => Config.keyFormOk alg b
    | _, _ => true)

/-- Material from outside becomes a key with IMPORTED (R441); a length for which the rights do not fit completes
KEY_POLICY. -/
def importBytes (b : Bytes) (x : Job) (s : State) : Result × State :=
  if !materialOk x.kmAlg b then (fail .verifyFail, s)
  else if !newKeyOk x.slice x.kmAlg b.length false x.block then (fail .keyPolicy, s)
  else s.deliver x [] x.kmAlg b (newPolicy x.block true)

def importJob (x : Job) (s : State) : Result × State := importBytes x.inp x s

/-- UNWRAP: KWP first, then as IMPORT (R441). -/
def unwrapJob (x : Job) (s : State) : Result × State :=
  match Config.kwpUnwrap (s.bodyOf x) x.inp with
  | some b => importBytes (b.take (x.inp.length - 8)) x s
  | none => (fail .tagMismatch, s)

/-- The key of a slot whose shares KEY has read (R431). -/
def State.subjectSlot (s : State) (i : Nat) : KeyRes KeySlot × State := (.ok ((s.readSlot i).slot i), s.readSlot i)

/-- The key of a blob that SUBJECT names: it enters a CACHED slot, but for a public key of Classic McEliece (R143, R433). -/
def State.subjectBlob (s : State) (n : Nat) (b : Bytes) : KeyRes KeySlot × State :=
  if (parseBlob b).mcePublic then (s.checkBlobLive n b, s)
  else match s.loadBlob n b false fun _ => true with
  | (.ok i, s) => s.subjectSlot i
  | (.err st d, s) => (.err st d, s)

/-- The key of a blob that SUBJECT names in the window, as it was read there. -/
def State.subjectWindow (s : State) (n : Nat) : Except HCause Bytes → KeyRes KeySlot × State
  | .ok b => s.subjectBlob n b
  | .error c => (.err .bufferFault (bufferDetail c .blob), s)

/-- The key that SUBJECT names: by handle, or a blob in the window or that the job has read, which enters a CACHED slot as every
named blob does; only the public key of Classic McEliece is taken from its blob (R143, R433, R442). KEY re-randomises the shares
that it reads (R431). -/
def State.subjectOf (s : State) (x : Job) : KeyRes KeySlot × State :=
  match keyForm (kmSubject x.block) with
  | .handle h =>
    match s.bySlot x.slice h with
    | some i => if s.keyAlive (s.slot i) then s.subjectSlot i else (.err .keyExpired 0, s)
    | none => (.err .keyState 0, s)
  | .window off => s.subjectWindow x.slice (s.windowBlob x.slice off)
  | .host _ => s.subjectBlob x.slice (x.subject.take (80 + leAt x.subject 36 4))
  | .none => (.err .keyBlobInvalid 0, s)

/-- KEY reads the job's own slot (R431). -/
def State.readOwn (s : State) (x : Job) : State := match x.key with | some i => s.readSlot i | none => s

/-- WRAP (R442). A PROT_ONLY subject asks a protection-class job, since its body is computed with.
DEDUCED, log entry 69, unsafe. -/
def wrapJob (x : Job) (s : State) : Result × State :=
  match (s.readOwn x).subjectOf x with
  | (.err st d, s) => (fail st d, s)
  | (.ok k, s) =>
    if k.owner ≠ x.slice ∨ !k.policyBit pEXPORTABLE ∨ k.policyBit pSTATEFUL ∨ (k.policyBit pPROT ∧ !x.prot) then
      (fail .keyPolicy, s)
    else ({ out := fit (roundUp k.body.length 8 + 8) (Config.kwpWrap (s.bodyOf x) k.body) }, s)

/-- The flags a child of DERIVE takes from its parent: IMPORTED, SEAL_OUTPUT and PROT_ONLY (R440). -/
def derivedPolicy (own parent : Nat) : Nat :=
  ((BitVec.ofNat 32 own) ||| (BitVec.ofNat 32 parent &&& BitVec.ofNat 32 (pSEAL + pIMPORTED + pPROT))).toNat

/-- DERIVE (R419, R440). -/
def deriveJob (x : Job) (s : State) : Result × State :=
  let s := s.readOwn x
  let p := s.keyOf x
  let n := kmLen x.block
  let e := expiryOf x.block
  if p.expiry ≠ 0 ∧ (e = 0 ∨ e > p.expiry) then (fail .keyPolicy, s)
  else
    let body := rootKmac p.body "TRL-KDV" (leBytes 2 x.kmAlg ++ leBytes 2 n ++ fieldA 40 x.block) n
    s.deliver x [] x.kmAlg body (derivedPolicy (policyOf x.block) p.policy.toNat)

/-- The key-output fields of REWRAP only narrow the key (R443). -/
def narrows (k : KeySlot) (b : Bytes) : Bool :=
  let old := k.policy.toNat
  let new := policyOf b
  let e := expiryOf b
  rightsIn (usageOf b) k.usage.toNat && (!has old pSEAL || has new pSEAL) && (!has old pPROT || has new pPROT)
    && (has old pEXPORTABLE || !has new pEXPORTABLE) && (k.expiry = 0 || (decide (e ≠ 0) && decide (e ≤ k.expiry)))

/-- The flags of a rewrapped key: the block's, with IMPORTED and STATEFUL, which no block can set, kept. -/
def rewrapPolicy (k : KeySlot) (b : Bytes) : Nat :=
  policyOf b + (if k.policyBit pIMPORTED then pIMPORTED else 0) + (if k.policyBit pSTATEFUL then pSTATEFUL else 0)

/-- A stateful record moves to a fresh place with a new BLOBGEN (R443, R450). -/
def State.relocate (s : State) (keyId : Bytes) (gen : Nat) : Option State :=
  match s.recordOf keyId with
  | none => some s
  | some i =>
    let r := mapGet {} s.kmg.stf i
    let log := match r.log.getLast? with | some v => [v] | none => []
    s.moveRecord i r { r with log := log, blobgen := gen }

/-- A relocation for a REWRAP that could not be programmed: COMMIT_FAIL (R454). DESIGN CHOICE, log entry 76, unsafe. -/
def State.relocateFailed (s : State) (k : KeySlot) : State := s.event 6 (srcSlice k.owner) 3 k.owner 0xFF k.keyId

/-- Slots that hold a lower BLOBGEN of the stateful key are freed as by EVICT (R443). -/
def State.freeOlder (s : State) (n g : Nat) (keyId : Bytes) : State :=
  s.freeSlots fun y => decide (y.owner = n) && decide (y.keyId = keyId) && decide (y.blobgen < g) && decide (y.pins = 0)

/-- The key of the blob that a REWRAP or DESTROY names: in its slot, checked again by step 5 of R427, or, for the public key of
Classic McEliece, in its blob (R433). -/
def State.blobKey (s : State) (x : Job) : KeyRes KeySlot :=
  match x.key with
  | some i => if s.statefulOk (s.slot i) then .ok (s.slot i) else .err .keyState 0
  | none => s.checkBlobLive x.slice x.keyBlob

/-- REWRAP (R443): the same key with BLOBGEN raised and narrower fields. `ok` false: the record of a stateful key cannot
be programmed (R454). -/
def rewrapJob (ok : Bool) (x : Job) (s : State) : Result × State :=
  let s := s.readOwn x
  match s.blobKey x with
  | .err st d => (fail st d, s)
  | .ok k =>
    if !narrows k x.block then (fail .keyPolicy, s)
    else
      let g := (k.blobgen + 1) % 2 ^ 32
      let new := { k with
        blobgen := g, usage := w32 (usageOf x.block), policy := w32 (rewrapPolicy k x.block), expiry := expiryOf x.block }
      if !k.policyBit pSTATEFUL then ({ out := (s.sealBlob new).2 }, s)
      else match (if ok then s.relocate k.keyId g else none) with
      | none => (fail .statefulBusy 1, s.relocateFailed k)
      | some s => ({ out := ((s.freeOlder x.slice g k.keyId).sealBlob new).2 }, s.freeOlder x.slice g k.keyId)

/-- Frees one slot as EVICT does: refused while a session pins it (R436, R445). -/
def State.evictSlot (s : State) (i : Nat) : Result × State :=
  if (s.slot i).pins > 0 then (fail .keyState, s) else ({}, s.freeSlot i)

def evictJob (x : Job) (s : State) : Result × State :=
  match x.key with
  | some i => s.evictSlot i
  | none => (fail .keyState, s)

/-- DESTROY of a blob: the record of a stateful key is closed as DESTROYED, then the slots with its KEY_ID are freed
(R444). A pinned slot refuses it (R436). DEDUCED, log entry 69, unsafe. -/
def State.destroyBlob (s : State) (x : Job) : Result × State :=
  match s.blobKey x with
  | .err st d => (fail st d, s)
  | .ok k =>
    let mine := fun (y : KeySlot) => decide (y.owner = x.slice) && decide (y.keyId = k.keyId)
    if s.kmg.slots.any fun e => e.2.inUse && !e.2.zombie && mine e.2 && decide (e.2.pins > 0) then (fail .keyState, s)
    else
      let s := if k.policyBit pSTATEFUL then
          (match s.recordOf k.keyId with
          | some i => s.onRecord i fun r => { r with close := 2 }
          | none => s)
        else s
      ({}, s.freeSlots mine)

def destroyJob (x : Job) (s : State) : Result × State :=
  match keyForm x.desc.keyref, x.key with
  | .handle _, some i => s.evictSlot i
  | _, _ => s.destroyBlob x

/-- A commit is pending on the stateful key whose blob the job holds: DESTROY waits for it (R444). -/
def State.destroyWaits (s : State) (x : Job) : Bool :=
  x.keyBlob ≠ [] && (match s.recordOf (parseBlob x.keyBlob).keyId with
    | some i => (mapGet {} s.kmg.stf i).pending
    | none => false)

/-- LOAD: the handle that the slot had as it was loaded; an EVICT that came after makes it stale (R437, R445). -/
def loadJob (x : Job) (s : State) : Result × State :=
  match x.key with
  | some i => ({ out := handleBytes x.keyHandle },
    if s.handle i = x.keyHandle then s.onSlot i fun k => { k with bySession := false } else s)
  | none => (fail .keyState, s)

/-- STORE: a checked blob goes into the window at TARGET (R446). DEDUCED, log entry 69, unsafe. -/
def storeJob (x : Job) (s : State) : Result × State :=
  match s.checkBlob x.slice x.inp with
  | .err st d => (fail st d, s)
  | .ok _ =>
    let (base, size) := s.window x.slice
    let at_ := (kmSubject x.block).toNat
    if at_ + x.inp.length > size then
      (fail .bufferFault (bufferDetail .translation .output),
        s.accessFault x.slice HCause.translation.code Part.output.code x.qid)
    else
      ({}, s.cmcWrite (base + at_) x.inp)

/-- The blob read at place `i` of the list is loaded. -/
def State.loadFound (s : State) (n i : Nat) : Except HCause Bytes → KeyRes Nat × State
  | .error _ => (.err .gatherFault i, s)
  | .ok b => s.loadBlob n b true fun _ => true

/-- The blob at one offset of the window is read and loaded; `i` is its place in the list. -/
def State.loadOffset (s : State) (n off i : Nat) : KeyRes Nat × State :=
  let r := s.blobRange n off
  ((s.openGroups r.1 r.2).noteRead r.1 r.2).loadFound n i (s.windowBlob n off)

/-- A load that failed ends the job; one that succeeded goes on with `k`. -/
def afterLoad (p : KeyRes Nat × State) (k : Nat → State → Result × State) : Result × State :=
  match p with
  | (.err st d, s) => (fail st d, s)
  | (.ok i, s) => k i s

/-- LOAD_LIST: the blobs are loaded in ascending order up to the first that fails (R447). -/
def State.loadOffsets (s : State) (n : Nat) : List Nat → Nat → Bytes → Result × State
  | [], _, out => ({ out := out }, s)
  | off :: rest, i, out =>
    afterLoad (s.loadOffset n off i) fun k s => s.loadOffsets n rest (i + 1) (out ++ handleBytes (s.handle k))

/-- The offsets of the input. -/
def Job.offsets (x : Job) : List Nat := (List.range (x.inp.length / 8)).map fun i => leAt x.inp (8 * i) 8

def loadListJob (x : Job) (s : State) : Result × State := s.loadOffsets x.slice x.offsets 0 []

/-- A LOAD_LIST whose reads find the table of R411 full waits. -/
def State.listWaits (s : State) (x : Job) : Bool :=
  x.offsets.any fun off => s.groupsWait (s.blobRange x.slice off).1 (s.blobRange x.slice off).2

/-- A LOAD_LIST of these offsets reaches a secret blob before a record that faults (R431, R447). -/
def State.reachesSecret (s : State) (n : Nat) : List Nat → Bool
  | [] => false
  | off :: rest =>
    match s.windowBlob n off with
    | .ok b => algKind (leAt b 6 2) ≠ 1 || s.reachesSecret n rest
    | .error _ => false

/-- A LOAD_LIST that waited in KEYLOAD for the harvest goes on (R431). -/
def State.listResumes (s : State) (j : Nat) : State :=
  match s.job? j with
  | some x =>
    if x.desc.opc = 0x30A0 ∧ x.stage = .keyload ∧ s.canServe 4 then
      s.putJob j { x with stage := .active, harvestWait := false }
    else s
  | none => s

/-- A STORE into a group that must wait (R411). -/
def State.storeWaits (s : State) (x : Job) : Bool :=
  s.groupsWait ((s.window x.slice).1 + (kmSubject x.block).toNat) x.inp.length

def execGenerate (j : Nat) (s : State) : Host.Outcome State Fault Refusal := .next (s.compute j 0x30 0 generateJob)
def execImportKey (j : Nat) (s : State) : Host.Outcome State Fault Refusal := .next (s.compute j 0x30 1 importJob)
def execWrap (j : Nat) (s : State) : Host.Outcome State Fault Refusal := .next (s.compute j 0x30 2 wrapJob)
def execUnwrap (j : Nat) (s : State) : Host.Outcome State Fault Refusal := .next (s.compute j 0x30 3 unwrapJob)
def execDeriveKey (j : Nat) (s : State) : Host.Outcome State Fault Refusal := .next (s.compute j 0x30 4 deriveJob)
def execRewrap (j : Nat) (ok : Bool) (s : State) : Host.Outcome State Fault Refusal :=
  .next (s.compute j 0x30 5 (rewrapJob ok))
def execDestroy (j : Nat) (s : State) : Host.Outcome State Fault Refusal :=
  .next (match s.atEnd j with
    | some x => if s.destroyWaits x then s else s.compute j 0x30 6 destroyJob
    | none => s)
def execLoad (j : Nat) (s : State) : Host.Outcome State Fault Refusal := .next (s.compute j 0x30 7 loadJob)
def execEvict (j : Nat) (s : State) : Host.Outcome State Fault Refusal := .next (s.compute j 0x30 8 evictJob)
def execBlobStore (j : Nat) (s : State) : Host.Outcome State Fault Refusal :=
  .next (match s.atEnd j with
    | some x => if s.storeWaits x then s else s.compute j 0x30 9 storeJob
    | none => s)
def execLoadList (j : Nat) (s : State) : Host.Outcome State Fault Refusal :=
  .next (
    let s := s.listResumes j
    match s.atEnd j with
    | some x =>
      if x.desc.opc ≠ 0x30A0 ∨ s.listWaits x then s
      else if !s.canServe 4 && s.reachesSecret x.slice x.offsets then s.awaitHarvest j x
      else s.compute j 0x30 10 loadListJob
    | none => s)

end Sys2Proof.Machine
end

