-- ==== Sys2Proof/Machine/Metrology.lean ====
section
/-! DEFINITION. The operations of family 0x60 and the statement counter (R515 to R519). -/

namespace Sys2Proof.Machine

/-! Readings (R516) -/

/-- A reading: its record of 48 bytes and its signature. -/
structure Reading where
  record : Bytes
  sig    : Bytes
deriving DecidableEq, Repr

/-- Fields of a record. -/
def Reading.meter (r : Reading) : Bytes := cut r.record 0 16
def Reading.start (r : Reading) : Nat := leAt r.record 16 8
def Reading.stop (r : Reading) : Nat := r.start + leAt r.record 24 4 * 1000000000
def Reading.imported (r : Reading) : Nat := leAt r.record 32 8
def Reading.exported (r : Reading) : Nat := leAt r.record 40 8

/-- The readings of an input, each with a signature of `n` bytes. -/
def readings (n : Nat) (b : Bytes) : List Reading :=
  (List.range (b.length / (48 + n))).map fun i =>
    let r := cut b (i * (48 + n)) (48 + n)
    { record := r.take 48, sig := r.drop 48 }

/-- The meter's signature verifies under its public key, by the algorithm of the key. -/
def Reading.verifies (r : Reading) (k : KeySlot) : Bool :=
  let pk := k.pubKey
  if k.alg = 0x0811 then eccPubOk 1 pk && ecdsaOk 1 pk 1 (hashOf 1 r.record) r.sig
  else if k.alg = 0x0814 then eccPubOk 4 pk && Config.ed25519Verify pk r.record r.sig
  else Config.mldsaVerify 4 pk (pureMessage [] r.record) r.sig

/-- READING_VERIFY: the verdict on one reading. -/
def readingJob (x : Job) (s : State) : Result × State :=
  let k := s.keyOf x
  (verdict ((readings (meterSig k.alg.toNat) x.inp).all fun r => r.verifies k), s)

/-! Rating (R511, R518) -/

/-- The table of a reading: the highest ACTIVATE at or below its START. DEDUCED, log entry 37, unsafe. -/
def Reading.tariff (r : Reading) (l : List Bytes) : Option Bytes :=
  greatestBy tariffActivate (l.filter fun t => tariffActivate t ≤ r.start)

/-- The band that contains a second of day. -/
def bandAt (t : Bytes) (sec : Nat) : Nat :=
  ((List.range (tariffBands t)).filter fun b => (tariffBand t b).1 ≤ sec).getLastD 0

/-- The charge of a reading under a table, exact. -/
def Reading.charge (r : Reading) (t : Bytes) : Int :=
  let b := tariffBand t (bandAt t ((r.start / 1000000000 + tariffOffset t) % 86400))
  (r.imported * b.2.1 : Nat) - (r.exported * b.2.2 : Nat)

/-- Each reading starts at or after the end of the one before. -/
def inOrder : List Reading → Bool
  | a :: b :: l => a.stop ≤ b.start && inOrder (b :: l)
  | _ => true

/-- Whether a number is one of 64 signed bits. -/
def fits64 (c : Int) : Bool := -(2 : Int) ^ 63 ≤ c && c < (2 : Int) ^ 63

/-- A total as 8 bytes; one that exceeds 64 bits has no stated value, and is a free value.
DESIGN CHOICE, log entry 36, safe. -/
def State.total (s : State) (n : Nat) : Bytes × State :=
  if n < 2 ^ 64 then (leBytes 8 n, s)
  else (leBytes 8 (Config.freeNat s.freeCtr % 2 ^ 64), { s with freeCtr := s.freeCtr + 1 })

/-- The next statement counter value is taken; the next range is committed when 256 values remain (R515). -/
def State.takeCounter (s : State) : Option (Nat × State) :=
  let n := s.mp.ctrNext
  if n ≥ s.mp.ctrEnd then none
  else some (n, { s with mp := { s.mp with
    ctrNext := n + 1, ctrBusy := s.mp.ctrBusy || decide (s.mp.ctrEnd - (n + 1) ≤ 256) } })

/-- Signs with the statement key, hedged with what the job drew, under a context (R517, R518). -/
def State.stSign (s : State) (x : Job) (ctx : String) (m : Bytes) : Bytes :=
  fit 3309 (Config.mldsaSign 6 (s.stKey.getD []) (pureMessage (ascii ctx) m) x.rand)

/-- The statement over readings that pass every check: none for one that fails (R518).
DEDUCED, log entry 37, unsafe. -/
def rated (l : List Reading) (k : KeySlot) (tariffs : List Bytes) : Option (Bytes × Int) :=
  match l with
  | [] => none
  | a :: _ =>
    match a.tariff tariffs with
    | none => none
    | some t =>
      let c := (l.map fun r => r.charge t).foldl (· + ·) 0
      if l.all (fun r => r.verifies k && decide (r.meter = a.meter) && decide (r.tariff tariffs = some t)) && inOrder l && fits64 c then
        some (t, c)
      else none

/-- The statement of the readings `l` with counter value `n` (R518): its record, and its signature. -/
def State.statementOf (s : State) (x : Job) (l : List Reading) (k : KeySlot) (t : Bytes) (c : Int) (n : Nat) :
    Result × State :=
  let first := (l.head?).getD { record := [], sig := [] }
  let last := (l.getLast?).getD first
  let stop := s.total last.stop
  let imp := stop.2.total (l.map Reading.imported).sum
  let exp := imp.2.total (l.map Reading.exported).sum
  let body := leBytes 4 0x54534C54 ++ [1] ++ zeros 3 ++ leBytes 8 n ++ fit 16 first.meter ++ fit 16 k.keyId
    ++ leBytes 8 first.start ++ stop.1 ++ imp.1 ++ exp.1 ++ leBytes 8 (c % 2 ^ 64).toNat ++ leBytes 4 (tariffVersion t)
    ++ leBytes 4 s.mp.swVer ++ fit 32 s.mp.swDigest
  ({ out := body ++ s.stSign x "TRL-MST" body }, exp.2)

/-- STATEMENT: the readings are checked and rated, a counter value is taken, and the body is signed. -/
def statementJob (x : Job) (s : State) : Result × State :=
  let k := s.keyOf x
  let l := readings (meterSig k.alg.toNat) x.inp
  match rated l k x.tariffs with
  | none => (fail .verifyFail, s)
  | some p =>
    match s.takeCounter with
    | none => (fail .statefulBusy, s)
    | some q => q.2.statementOf x l k p.1 p.2 q.1

/-- The last counter value issued; the manual states none before the first after a start, which is a free value.
DESIGN CHOICE, log entry 36, safe. -/
def State.lastCounter (s : State) : Nat × State :=
  match s.mp.ctrLast with
  | some n => (n, s)
  | none => (Config.freeNat s.freeCtr % 2 ^ 64, { s with freeCtr := s.freeCtr + 1 })

/-- IDENTIFY: the signed identity block. -/
def identifyJob (x : Job) (s : State) : Result × State :=
  let (last, s) := s.lastCounter
  let id := leBytes 4 s.mp.swVer ++ zeros 4 ++ fit 32 s.mp.swDigest ++ leBytes 4 ((x.tariffs.head?).elim 0 tariffVersion)
    ++ leBytes 4 s.mp.ramAudit.length ++ leBytes 8 last ++ leBytes 8 s.now
  ({ out := id ++ fit 1952 s.mp.stPub ++ s.stSign x "TRL-MID" id }, s)

/-- LOG_READ: every valid audit entry, in SEQ order. -/
def logReadJob (x : Job) (s : State) : Result × State :=
  let b := s.mp.ramAudit.flatMap AuditEntry.bytes
  (if b.length > x.desc.outCap then { status := .outTooSmall, need := b.length } else { out := b }, s)

/-! The commands -/

/-- READING_VERIFY, R517. -/
def execReadingVerify (j : Nat) (s : State) : Host.Outcome State Fault Refusal := .next (s.compute j 0x60 0 readingJob)

/-- STATEMENT, R518. -/
def execStatement (j : Nat) (s : State) : Host.Outcome State Fault Refusal := .next (s.compute j 0x60 1 statementJob)

/-- IDENTIFY, R517. -/
def execIdentify (j : Nat) (s : State) : Host.Outcome State Fault Refusal := .next (s.compute j 0x60 2 identifyJob)

/-- LOG_READ, R517. -/
def execLogRead (j : Nat) (s : State) : Host.Outcome State Fault Refusal := .next (s.compute j 0x60 3 logReadJob)

/-- STATEMENT_COUNTER_COMMIT, R515: the commit in progress programs the end of the next range of 1,024 values. `ok`
false: it fails, and is still to be made. DEDUCED, log entry 37, unsafe. -/
def execStatementCounterCommit (ok : Bool) (s : State) : Host.Outcome State Fault Refusal :=
  .next (
    if s.mp.ctrBusy && s.mpInService && ok then
      { s with mp := { s.mp with ctrEnd := s.mp.ctrEnd + 1024, ctrBusy := decide (s.mp.ctrEnd + 1024 - s.mp.ctrNext ≤ 256) } }
    else s)

end Sys2Proof.Machine
end

