-- ==== Sys2Proof/Machine/Vector.lean ====
section
/-! DEFINITION. The kernels of the VCEs: the vector instructions of chapter 07 as commands to an engine on which a job
runs, and the operations that run a kernel (R299 to R353). -/

namespace Sys2Proof.Machine

/-! One instruction of a running kernel -/

/-- The job whose kernel runs on VCE `e` and can go on: entered, not saving, restoring, contained or waiting for a lent hash,
nor at a safe point where an abort or a stop is due (R372). -/
def State.kernelOn (s : State) (e : Nat) : Option (Nat × Job) :=
  match (s.engine e).running with
  | none => none
  | some (j, _) =>
    match s.job? j with
    | some x =>
      if decide (e < 34) && s.awake && s.computing j && x.computed.isNone && (s.vce e).entered && !(s.vce e).lent
          && !((s.vce e).safe && (x.abort.isSome || s.stopDue e)) then
        some (j, x)
      else none
    | none => none

/-- A fault that is taken: VFAULT holds it, and it ends the job (R340, R341, R375). -/
def State.kernelFault (s : State) (e : Nat) (v : Vce) (cause index : Nat) : State :=
  (s.onVce e fun _ => { v with vfault := vfaultWord cause v.kaddr index }).instrFault e cause index

/-- What the engine has become is in force; two equal words of its mask stream among those it drew are an engine fault
(R269). -/
def State.runTo (s : State) (e : Nat) (v : Vce) : State :=
  let u := (s.vce e).used
  if v.seed.isSome && v.streamRepeats u v.used then (s.onVce e fun _ => v).engineFault e 0x07 [] else s.onVce e fun _ => v

/-- The kernel word at KPC, and the long immediate after it, are taken: a safe point, then `act` on the engine whose KPC
names the word after them (R299, R346, R353, R366). Where the store is known to hold another word there, the engine carries
that out, not this one. DESIGN CHOICE, log entry 23, unsafe. -/
def State.fetchWord (s : State) (e : Nat) (word : Lane → Bool) (imm : Option Lane) (act : State → Nat → Job → Vce → State) :
    State :=
  match s.kernelOn e with
  | none => s
  | some (j, x) =>
    let v := s.vce e
    let long := imm.isSome
    let w := { v with kaddr := v.kpc, kpc := v.kpc + 1 + bitOf long, wd := 0, safe := true, waiting := false }
    if s.limitReached e v then s.kernelFault e w 0x22 0
    else if !v.inRange s.mpInService v.kpc || (long && !v.inRange s.mpInService (v.kpc + 1)) then
      s.kernelFault e w 0x1D 0
    else if (s.wordKnown v.kpc && !word (s.kernelWord v.kpc)) || !(imm.all fun i => s.wordIs (v.kpc + 1) i) then s
    else act s j x w

/-- The instruction of opcode `op` with the fields `f` is fetched. -/
def State.fetch (s : State) (e op : Nat) (f : VFields) (long : Bool) (act : State → Nat → Job → Vce → State) : State :=
  s.fetchWord e (fun w => w = kernelWordOf op f) (if long then some f.imm else none) act

/-- An instruction that changes the engine alone: its fault, or its effect. -/
def State.vector (s : State) (e op : Nat) (f : VFields) (long : Bool) (fault : Vce → VFields → Option Nat)
    (eff : Vce → VFields → Vce) : State :=
  s.fetch e op f long fun s _ _ v =>
    match fault v f with
    | some c => s.kernelFault e v c 0
    | none => s.runTo e (eff v f)

/-! Instructions whose effect lies in the engine -/

/-- VSETL, R308. -/
def execVsetl (e : Nat) (f : VFields) (s : State) : Host.Outcome State Fault Refusal :=
  .next (s.vector e 0x01 f (f.vs1 = 0) vsetlFault vsetlDo)

/-- VCFG, R260. -/
def execVcfg (e : Nat) (f : VFields) (s : State) : Host.Outcome State Fault Refusal :=
  .next (s.vector e 0x02 f false vcfgFault vcfgDo)

/-- VSETQ, R251. -/
def execVsetq (e : Nat) (f : VFields) (s : State) : Host.Outcome State Fault Refusal :=
  .next (s.vector e 0x03 f (f.vs1 = 0) vsetqFault vsetqDo)

/-- SOP, R309. -/
def execSop (e : Nat) (f : VFields) (s : State) : Host.Outcome State Fault Refusal :=
  .next (s.vector e 0x08 f (fn f 4 4 = 1) sopFault sopDo)

/-- SMOVV, R308. -/
def execSmovv (e : Nat) (f : VFields) (s : State) : Host.Outcome State Fault Refusal :=
  .next (s.vector e 0x09 f false smovvFault smovvDo)

/-- SMPOP, R308. -/
def execSmpop (e : Nat) (f : VFields) (s : State) : Host.Outcome State Fault Refusal :=
  .next (s.vector e 0x0A f false smpopFault smpopDo)

/-- MOP, R308. -/
def execMop (e : Nat) (f : VFields) (s : State) : Host.Outcome State Fault Refusal :=
  .next (s.vector e 0x42 f false mopFault mopDo)

/-- VADD, R316. -/
def execVadd (e : Nat) (f : VFields) (s : State) : Host.Outcome State Fault Refusal :=
  .next (s.vector e 0x20 f false vaddFault vaddDo)

/-- VSUB, R316. -/
def execVsub (e : Nat) (f : VFields) (s : State) : Host.Outcome State Fault Refusal :=
  .next (s.vector e 0x21 f false vsubFault vsubDo)

/-- VADDM, R316. -/
def execVaddm (e : Nat) (f : VFields) (s : State) : Host.Outcome State Fault Refusal :=
  .next (s.vector e 0x22 f false vaddmFault vaddmDo)

/-- VSUBM, R316. -/
def execVsubm (e : Nat) (f : VFields) (s : State) : Host.Outcome State Fault Refusal :=
  .next (s.vector e 0x23 f false vsubmFault vsubmDo)

/-- VMUL, R316. -/
def execVmul (e : Nat) (f : VFields) (s : State) : Host.Outcome State Fault Refusal :=
  .next (s.vector e 0x24 f false vmulFault vmulDo)

/-- VMULW, R316. -/
def execVmulw (e : Nat) (f : VFields) (s : State) : Host.Outcome State Fault Refusal :=
  .next (s.vector e 0x25 f false vmulwFault vmulwDo)

/-- VMACW, R316. -/
def execVmacw (e : Nat) (f : VFields) (s : State) : Host.Outcome State Fault Refusal :=
  .next (s.vector e 0x26 f false vmacwFault vmacwDo)

/-- VDOT, R316. -/
def execVdot (e : Nat) (f : VFields) (s : State) : Host.Outcome State Fault Refusal :=
  .next (s.vector e 0x27 f false vdotFault vdotDo)

/-- VMONT, R317. -/
def execVmont (e : Nat) (f : VFields) (s : State) : Host.Outcome State Fault Refusal :=
  .next (s.vector e 0x28 f false vmontFault vmontDo)

/-- VMULM, R317. -/
def execVmulm (e : Nat) (f : VFields) (s : State) : Host.Outcome State Fault Refusal :=
  .next (s.vector e 0x29 f false vmulmFault vmulmDo)

/-- VMODR, R316. -/
def execVmodr (e : Nat) (f : VFields) (s : State) : Host.Outcome State Fault Refusal :=
  .next (s.vector e 0x2A f false vmodrFault vmodrDo)

/-- VCSUB, R316. -/
def execVcsub (e : Nat) (f : VFields) (s : State) : Host.Outcome State Fault Refusal :=
  .next (s.vector e 0x2B f false vcsubFault vcsubDo)

/-- VAND, R316. -/
def execVand (e : Nat) (f : VFields) (s : State) : Host.Outcome State Fault Refusal :=
  .next (s.vector e 0x2C f false vandFault vandDo)

/-- VOR, R316. -/
def execVor (e : Nat) (f : VFields) (s : State) : Host.Outcome State Fault Refusal :=
  .next (s.vector e 0x2D f false vorFault vorDo)

/-- VXOR, R316. -/
def execVxor (e : Nat) (f : VFields) (s : State) : Host.Outcome State Fault Refusal :=
  .next (s.vector e 0x2E f false vxorFault vxorDo)

/-- VSHL, R316. -/
def execVshl (e : Nat) (f : VFields) (s : State) : Host.Outcome State Fault Refusal :=
  .next (s.vector e 0x30 f false vshlFault vshlDo)

/-- VSHR, R316. -/
def execVshr (e : Nat) (f : VFields) (s : State) : Host.Outcome State Fault Refusal :=
  .next (s.vector e 0x31 f false vshrFault vshrDo)

/-- VROTL, R316. -/
def execVrotl (e : Nat) (f : VFields) (s : State) : Host.Outcome State Fault Refusal :=
  .next (s.vector e 0x32 f false vrotlFault vrotlDo)

/-- VMOV, R316. -/
def execVmov (e : Nat) (f : VFields) (s : State) : Host.Outcome State Fault Refusal :=
  .next (s.vector e 0x38 f false vmovFault vmovDo)

/-- VBFLY, R319. -/
def execVbfly (e : Nat) (f : VFields) (s : State) : Host.Outcome State Fault Refusal :=
  .next (s.vector e 0x34 f false vbflyFault vbflyDo)

/-- VEXCH, R320. -/
def execVexch (e : Nat) (f : VFields) (s : State) : Host.Outcome State Fault Refusal :=
  .next (s.vector e 0x35 f false vexchFault vexchDo)

/-- VPERM, R318. -/
def execVperm (e : Nat) (f : VFields) (s : State) : Host.Outcome State Fault Refusal :=
  .next (s.vector e 0x36 f false vpermFault vpermDo)

/-- VCVT, R321. -/
def execVcvt (e : Nat) (f : VFields) (s : State) : Host.Outcome State Fault Refusal :=
  .next (s.vector e 0x3C f false vcvtFault vcvtDo)

/-- VBITPK, R321. -/
def execVbitpk (e : Nat) (f : VFields) (s : State) : Host.Outcome State Fault Refusal :=
  .next (s.vector e 0x3D f false vbitpkFault vbitpkDo)

/-- VBITUP, R321. -/
def execVbitup (e : Nat) (f : VFields) (s : State) : Host.Outcome State Fault Refusal :=
  .next (s.vector e 0x3E f false vbitupFault vbitupDo)

/-- VCOMP, R322. -/
def execVcomp (e : Nat) (f : VFields) (s : State) : Host.Outcome State Fault Refusal :=
  .next (s.vector e 0x3F f false vcompFault vcompDo)

/-- VCMP, R321. -/
def execVcmp (e : Nat) (f : VFields) (s : State) : Host.Outcome State Fault Refusal :=
  .next (s.vector e 0x40 f false vcmpFault vcmpDo)

/-- VSEL, R321. -/
def execVsel (e : Nat) (f : VFields) (s : State) : Host.Outcome State Fault Refusal :=
  .next (s.vector e 0x41 f false vselFault vselDo)

/-- VKINIT, R323. -/
def execVkinit (e : Nat) (f : VFields) (s : State) : Host.Outcome State Fault Refusal :=
  .next (s.vector e 0x50 f false vkinitFault vkinitDo)

/-- VKABS, R324. -/
def execVkabs (e : Nat) (f : VFields) (s : State) : Host.Outcome State Fault Refusal :=
  .next (s.vector e 0x51 f false vkabsFault vkabsDo)

/-- VKSQZ, R324. -/
def execVksqz (e : Nat) (f : VFields) (s : State) : Host.Outcome State Fault Refusal :=
  .next (s.vector e 0x52 f false vksqzFault vksqzDo)

/-- VSAMPU, R325. -/
def execVsampu (e : Nat) (f : VFields) (s : State) : Host.Outcome State Fault Refusal :=
  .next (s.vector e 0x48 f false vsampuFault vsampuDo)

/-- VSAMPB, R326. -/
def execVsampb (e : Nat) (f : VFields) (s : State) : Host.Outcome State Fault Refusal :=
  .next (s.vector e 0x49 f false vsampbFault vsampbDo)

/-- VSAMPBALL, R323. -/
def execVsampball (e : Nat) (f : VFields) (s : State) : Host.Outcome State Fault Refusal :=
  .next (s.vector e 0x4A f false vsampballFault vsampballDo)

/-- VCBD, R323. -/
def execVcbd (e : Nat) (f : VFields) (s : State) : Host.Outcome State Fault Refusal :=
  .next (s.vector e 0x4B f false vcbdFault vcbdDo)

/-- VREF, R328. -/
def execVref (e : Nat) (f : VFields) (s : State) : Host.Outcome State Fault Refusal :=
  .next (s.vector e 0x58 f false vrefFault vrefDo)

/-- VSAND, R328. -/
def execVsand (e : Nat) (f : VFields) (s : State) : Host.Outcome State Fault Refusal :=
  .next (s.vector e 0x59 f false vsandFault vsandDo)

/-- VA2B, R327. -/
def execVa2b (e : Nat) (f : VFields) (s : State) : Host.Outcome State Fault Refusal :=
  .next (s.vector e 0x5A f false va2bFault va2bDo)

/-- VB2A, R327. -/
def execVb2a (e : Nat) (f : VFields) (s : State) : Host.Outcome State Fault Refusal :=
  .next (s.vector e 0x5B f false vb2aFault vb2aDo)

/-- VSZERO, R327. -/
def execVszero (e : Nat) (f : VFields) (s : State) : Host.Outcome State Fault Refusal :=
  .next (s.vector e 0x5C f false vszeroFault vszeroDo)

/-- VUNSH, R329. -/
def execVunsh (e : Nat) (f : VFields) (s : State) : Host.Outcome State Fault Refusal :=
  .next (s.vector e 0x5F f false vunshFault vunshDo)

/-- VST, R310. -/
def execVst (e : Nat) (f : VFields) (s : State) : Host.Outcome State Fault Refusal :=
  .next (s.vector e 0x11 f false vstFault vstDo)

/-- VREL, R314. -/
def execVrel (e : Nat) (f : VFields) (s : State) : Host.Outcome State Fault Refusal :=
  .next (s.vector e 0x13 f false vrelFault vrelDo)

/-! Rows, output and context memory -/

/-- VLD, R310, R314: a load of a streamed row that has not arrived waits, which is a safe point (R372). -/
def execVld (e : Nat) (f : VFields) (s : State) : Host.Outcome State Fault Refusal :=
  .next (
    if (s.kernelOn e).isSome && s.wordIs (s.vce e).kpc (kernelWordOf 0x10 f) && vldStalls (s.vce e) f
        && (vldFault (s.vce e) f).isNone then
      s.onVce e fun v => { v with wd := 0, safe := true, waiting := true }
    else s.vector e 0x10 f false vldFault vldDo)

/-- What a kernel has streamed beyond what has left the part is written out (R280, R315).
DEDUCED, log entry 64, unsafe. -/
def State.streamOut (s : State) (e j : Nat) (x : Job) : State :=
  let b := (s.vce e).streamed
  (s.writeOut x x.wrote (b.drop x.wrote)).onJob j fun x => { x with wrote := b.length }

/-- VOUT, R315. -/
def execVout (e : Nat) (f : VFields) (s : State) : Host.Outcome State Fault Refusal :=
  .next (s.fetch e 0x12 f false fun s j x v =>
    match voutFault v f with
    | some c => s.kernelFault e v c 0
    | none => (s.onVce e fun _ => voutDo v f).streamOut e j x)

/-- The 8-byte word `i` of the slice's window, as job `x` sees it; none where its read fails (R331, R332, R337). -/
def State.windowWordAt (s : State) (x : Job) (i : Nat) : Option Nat := s.wordSeen x ((s.window x.slice).1 + 8 * i)

/-- 8-byte words of the slice's window. -/
def State.windowWords (s : State) (n : Nat) : Nat := (s.window n).2 / 8

/-- The groups that the elements of a gather or scatter touch are initialised in turn, up to the first that must wait while
the table of R411 is full: that element, else `to_`. -/
def State.openElems (s : State) (n : Nat) (v : Vce) (f : VFields) (to_ : Nat) : State × Nat :=
  (v.gsPart f to_).foldl (fun (r : State × Nat) (i : Nat) =>
    let w := v.elem 2 f.vs1.toNat i
    let a := (s.window n).1 + 8 * w
    if r.2 ≤ i ∨ w ≥ s.windowWords n then r
    else if r.1.groupsWait a 8 then (r.1, i)
    else (r.1.openGroups a 8, r.2)) (s, to_)

/-- An element access of job `x` that met a failed block is counted and reported (R409). -/
def State.noteElem (s : State) (x : Job) (v : Vce) (f : VFields) (to_ : Nat) : State :=
  match v.gsFirst f (s.windowWords x.slice) (s.windowWordAt x) to_ with
  | some (i, 2) => s.noteRead ((s.window x.slice).1 + 8 * v.elem 2 f.vs1.toNat i) 8
  | _ => s

/-- A stop or an abort of the job running on `e` is due (R372). -/
def State.stopAsked (s : State) (e : Nat) (x : Job) : Bool := x.abort.isSome || s.stopDue e

/-- A gather or scatter: its elements from the next one on, in order, up to one that waits; while a stop is asked for, one
element, with a safe point after it. Until the last is done the instruction is not (R332, R337, R338, R342, R372). -/
def State.gather (s : State) (e op : Nat) (f : VFields) (fault : Vce → VFields → Option Nat)
    (act : State → Nat → Job → Vce → Nat → State) : State :=
  s.fetch e op f false fun s j x v =>
    match fault v f with
    | some c => s.kernelFault e v c 0
    | none =>
      let (s', to_) := s.openElems x.slice v f (if s.stopAsked e x then min v.vl (v.gsAt + 1) else v.vl)
      let back := { v with kpc := v.kaddr }
      if to_ ≤ v.gsAt ∧ to_ < v.vl then s.onVce e fun _ => { back with waiting := true }
      else act (s'.noteElem x v f to_) j x (if to_ < v.vl then back else v) to_

/-- VGATHER, R331 to R335. -/
def execVgather (e : Nat) (f : VFields) (s : State) : Host.Outcome State Fault Refusal :=
  .next (s.gather e 0x14 f vgatherFault fun s _ x v to_ =>
    match vgatherDo v f (s.windowWords x.slice) (s.windowWordAt x) to_ with
    | (w, none) => s.onVce e fun _ => if w.gsAt = 0 then { w with kpc := v.kaddr + 1 } else w
    | (v, some (i, c)) => s.kernelFault e v c i)

/-- The words of a scatter are written in order. DEDUCED, log entry 27, unsafe. -/
def State.scatter (s : State) (j n : Nat) (ws : List (Nat × Nat)) : State :=
  s.onJob j fun x => { x with
    scattered := true
    scat := ws.foldl (fun (m : SMap Nat) w => mapInsert m ((s.window n).1 + 8 * w.1) w.2) x.scat }

/-- VSCATTER, R331, R336, R352. -/
def execVscatter (e : Nat) (f : VFields) (s : State) : Host.Outcome State Fault Refusal :=
  .next (s.gather e 0x15 f vscatterFault fun s j x v to_ =>
    let (ws, v, hit) := vscatterDo v f (s.windowWords x.slice) (s.windowWordAt x) to_
    let s := s.scatter j x.slice ws
    match hit with
    | none => s.onVce e fun _ => v
    | some (i, c) => s.kernelFault e v c i)

/-! Control flow (R343 to R346, R351) -/

/-- BR, R343. -/
def execBr (e : Nat) (f : VFields) (s : State) : Host.Outcome State Fault Refusal :=
  .next (s.vector e 0x60 f true (fun v f => brFault v s.mpInService f) brDo)

/-- CALL, R343. -/
def execCall (e : Nat) (f : VFields) (s : State) : Host.Outcome State Fault Refusal :=
  .next (s.vector e 0x61 f true (fun v f => callFault v s.mpInService f) callDo)

/-- RET, R343. -/
def execRet (e : Nat) (f : VFields) (s : State) : Host.Outcome State Fault Refusal :=
  .next (s.vector e 0x62 f false (fun v f => retFault v s.mpInService f) fun v _ => retDo v)

/-- The operation of a VCE job may complete VERIFY_FAIL: a customer kernel, or as R119 lists a verification or an
encapsulation to
an inline key. -/
def Job.mayFail (x : Job) : Bool :=
  decide (x.desc.fam = 0x70) || x.inlineKem
    || ((2 ≤ x.desc.fam && x.desc.fam ≤ 5 || x.desc.fam = 0xB) && (x.desc.op = 2 || x.desc.op = 3))

/-- What VEND makes of the job; a vendor kernel gives no status that its operation does not list (R119, R351). DEDUCED, log
entry 64, unsafe. DEDUCED, log entry 64, unsafe. -/
def vendResult (x : Job) (v : Vce) (f : VFields) : Result :=
  let n := (v.scal f.vs1.toNat).toNat
  if n > x.desc.outCap then { status := .outTooSmall, need := n }
  else if fn f 0 0 = 1 ∧ x.mayFail then fail .verifyFail
  else { out := vendOut v f }

/-- `n` bytes from row `at_` on. -/
def Vce.rowBytes (v : Vce) (at_ n : Nat) : Bytes :=
  ((List.range (ceilDiv n 576)).flatMap fun i => bytesOfBits (v.row (at_ + i)).bits.toNat 576).take n

/-- The key material of `n` bytes that KEY reads from a result slot: the rows after those of the output, in K shares of a masked
job, which it recombines (R276, R280, R313). DEDUCED, log entry 91, unsafe. -/
def Vce.keyMaterial (v : Vce) (outLen n : Nat) : Bytes :=
  let at_ := v.ctx.slot + ceilDiv (outLen - v.streamed.length) 576
  ((List.range (max 1 v.ctx.k)).map fun i => v.rowBytes (at_ + i * ceilDiv n 576) n).foldl xorBytes (zeros n)

/-- What the end of a kernel on a VCE gives a job: its output, and to KEY the private key of a key generation or the secret
that DEST sends to a slot or a blob, from the result slot's rows (R112 to R114, R313).
DEDUCED, log entry 91, unsafe. -/
def State.kernelGives (s : State) (x : Job) (v : Vce) (r : Result) : Result × State :=
  if r.status ≠ .ok then (r, s)
  else if x.desc.op = 0 ∧ [1, 2, 3, 0xA, 0xB].contains x.desc.fam then
    s.giveKey x r.out (v.keyMaterial r.out.length ((asymLen x.desc.fam x.desc.set).getD (0, 0)).1)
  else if x.dest ≠ 0 ∧ [1, 0xA].contains x.desc.fam then s.giveSecret x r.out (v.keyMaterial r.out.length 32) false
  else (r, s)

/-- The kernel of job `j` ends it on VCE `e`, with nothing left to lend to an HSE (R272, R351). -/
def State.kernelEnds (s : State) (e j : Nat) (x : Job) (v : Vce) (r : Result) : State :=
  if x.ending ∧ !s.wantsLend e then
    let g := (s.onVce e fun _ => v).kernelGives x v r
    g.2.produce j g.1
  else s

/-- VEND, R351: the job ends, and its engine is free. -/
def execVend (e : Nat) (f : VFields) (s : State) : Host.Outcome State Fault Refusal :=
  .next (s.fetch e 0x63 f false fun s j x v =>
    match vendFault v f with
    | some c => s.kernelFault e v c 0
    | none => s.kernelEnds e j x v (vendResult x v f))

/-- Opcodes that chapter 07 lists. -/
def listedOpcode (op : Nat) : Bool :=
  (irVop op).isSome || [0x08, 0x09, 0x0A, 0x10, 0x11, 0x14, 0x15, 0x60, 0x61, 0x62, 0x63].contains op

/-- The decode entry of an opcode, as it is stored: loaded from a package, else the ROM's, whose routines lie in ROM; that of
an opcode that chapter 07 does not list has VALID 0 (R356, R360, R366, R368). DESIGN CHOICE, log entry 24, safe. -/
def State.decodeEntry (s : State) (op : Nat) : BitVec 18 :=
  let rom := BitVec.ofNat 18 (storedEntry 16 (2 ^ 15 + (Config.romDecode op).toNat % 2 ^ 14))
  if op ≥ 0xE0 then (mapFind s.code.decode op).getD 0
  else if listedOpcode op then (mapFind s.code.decode op).getD rom
  else 0

/-- CUSTOMER_OPCODE, R302: in a customer kernel with a routine loaded for it the opcode enters its routine; otherwise, as
any opcode that is not listed, it faults ILLEGAL_OPCODE. An entry of wrong parity is a machine check (R360). -/
def execCustomerOpcode (e opc : Nat) (s : State) : Host.Outcome State Fault Refusal :=
  .next (
    if opc ≥ 256 || listedOpcode opc then s
    else s.fetchWord e (fun w => w.toNat / 2 ^ 28 = opc) none fun s _ _ v =>
      let d := s.decodeEntry opc
      let ir := BitVec.ofNat 36 (opc * 2 ^ 28 + (s.kernelWord v.kaddr).toNat % 2 ^ 28)
      if !entryOk 16 d.toNat then s.machineCheck e csParity (s.vce e).upc
      else if 0xE0 ≤ opc && d.getLsbD 15 && v.ctx.kind = .customer then
        s.onVce e fun _ => { v with ir := ir, upc := d.toNat % 2 ^ 15 }
      else s.kernelFault e { v with ir := ir } 0x10 0)

/-- KERNEL_CALL, R348 to R350: the kernel of a 0x70 job that has just started is entered through its entry word. -/
def execKernelCall (j : Nat) (s : State) : Host.Outcome State Fault Refusal :=
  .next (match s.job? j, s.runningOn j with
    | some x, some e =>
      if x.desc.fam = 0x70 ∧ clsOf e = .vce ∧ s.awake ∧ s.computing j ∧ x.abort.isNone ∧ !(s.vce e).entered then
        s.onVce e fun v => { v with entered := true }
      else s
    | _, _ => s)

end Sys2Proof.Machine
end

