-- ==== Sys2Proof/Machine/Micro.lean ====
section
/-! DEFINITION. The micro-operations of chapter 08 as commands to a VCE whose sequencer runs, and the single-stepping of a
halted one (R356 to R375, R541). -/

namespace Sys2Proof.Machine

/-- A micro-operation of the running job of VCE `e` ends as its result says: the engine goes on, waits for data at a safe
point, takes an instruction fault, or raises a machine check at its address (R372, R375, R376). -/
def State.microEnd (s : State) (e : Nat) : MRes → State
  | .next v => s.runTo e v
  | .wait v => s.onVce e fun _ => { v with wd := 0, safe := true, waiting := true }
  | .ifault v c => s.kernelFault e { v with ustack := [], upc := 0x40 } c 0
  | .mcheck v c => (s.onVce e fun _ => v).machineCheck e c v.upc

/-- The address the sequencer fetches for `a`: a ROM word with a valid match entry comes from the patch address of the
lowest-numbered one (R369); none: a match entry fails its parity (R360). -/
def State.patched (s : State) (a : Nat) : Option Nat :=
  if a ≥ 0x4000 then some a
  else if s.code.match_.any fun m => !entryOk 32 m.2.toNat then none
  else match s.code.match_.find? fun m => m.2.getLsbD 31 && decide (m.2.toNat % 2 ^ 15 = a) with
  | some m => some (m.2.toNat / 2 ^ 16 % 2 ^ 15)
  | none => some a

/-- The control word at `a`; a RAM word that no package loads is 0, which is NOP (R357).
DESIGN CHOICE, log entry 24, safe. -/
def State.controlWord (s : State) (a : Nat) : BitVec 40 :=
  (mapFind s.code.control a).getD (if a < 0x4000 then Config.romMicroOp a else 0)

/-- The major opcode of a stored control word, and its format bits (R359, R362). -/
def majorOf (c : BitVec 40) : Nat := c.toNat / 2 ^ 30 % 2 ^ 6
def formatOf (c : BitVec 40) : BitVec 30 := BitVec.ofNat 30 c.toNat

/-- A major opcode that R363 lists. -/
def listedMajor (n : Nat) : Bool := n ≤ 0x1B && n ≠ 0x0F

/-- The sequencer of VCE `e` executes the micro-operation of major opcode `major` and format bits `w` at its address, or at
the patch address: `act` with the engine at that address. A stored word of wrong parity or of a reserved major opcode is a
machine check (R360, R363, R369). Where the control store is known to hold another word there, the sequencer executes that
one, not this. DESIGN CHOICE, log entry 23, unsafe. -/
def State.fetchMicro (s : State) (e major : Nat) (w : BitVec 30) (act : Nat → Job → Vce → State) : State :=
  match s.kernelOn e with
  | none => s
  | some (j, x) =>
    let v := s.vce e
    match s.patched v.upc with
    | none => s.machineCheck e csParity v.upc
    | some a =>
      let c := s.controlWord a
      if a ≥ 0x4000 && (!parityOk c || !listedMajor (majorOf c)) then s.machineCheck e csParity a
      else if a ≥ 0x4000 && (majorOf c ≠ major || formatOf c ≠ w) then s
      else act j x { v with upc := a, safe := false, waiting := false }

/-- One micro-operation of VCE `e`. -/
def State.micro (s : State) (e major : Nat) (w : BitVec 30) (f : Vce → MRes) : State :=
  s.fetchMicro e major w fun _ _ v => s.microEnd e (f v)

/-- One micro-operation at a safe point: POLL and NEXT act first on the most urgent request that is pending, an abort, a run
limit
that is reached, or a stop. A stopped job resumes after the POLL, and at the dispatch of the NEXT, whose word is not consumed
(R353,
R365, R366, R372, R374). -/
def State.microSafe (s : State) (e major : Nat) (w : BitVec 30) (f : Vce → MRes) : State :=
  s.fetchMicro e major w fun _ x v =>
    let v := { v with wd := 0, safe := true }
    if x.abort.isNone && s.limitReached e v then s.kernelFault e v 0x22 0
    else if s.stopAsked e x && decide (w = 0) then
      (s.onVce e fun _ => { v with upc := if major = 0x18 then v.upc + 1 else v.upc }).safePoint e false
    else s.microEnd e (f v)

/-- NOP, R363. -/
def execNop (e : Nat) (w : BitVec 30) (s : State) : Host.Outcome State Fault Refusal :=
  .next (s.micro e 0x00 w fun v => uNop v w)

/-- ALU, R363. -/
def execAlu (e : Nat) (w : BitVec 30) (s : State) : Host.Outcome State Fault Refusal :=
  .next (s.micro e 0x01 w fun v => uAlu v w)

/-- ALUI, R363. -/
def execAlui (e : Nat) (w : BitVec 30) (s : State) : Host.Outcome State Fault Refusal :=
  .next (s.micro e 0x02 w fun v => uAlui v w)

/-- LDI, R363. -/
def execLdi (e : Nat) (w : BitVec 30) (s : State) : Host.Outcome State Fault Refusal :=
  .next (s.micro e 0x03 w fun v => uLdi v w)

/-- FLD, R363. -/
def execFld (e : Nat) (w : BitVec 30) (s : State) : Host.Outcome State Fault Refusal :=
  .next (s.micro e 0x04 w fun v => uFld v w)

/-- SRD, R363. -/
def execSrd (e : Nat) (w : BitVec 30) (s : State) : Host.Outcome State Fault Refusal :=
  .next (s.micro e 0x05 w fun v => uSrd v w)

/-- SWR, R363. -/
def execSwr (e : Nat) (w : BitVec 30) (s : State) : Host.Outcome State Fault Refusal :=
  .next (s.micro e 0x06 w fun v => uSwr v w)

/-- BR, R363. -/
def execMicroBr (e : Nat) (w : BitVec 30) (s : State) : Host.Outcome State Fault Refusal :=
  .next (s.micro e 0x08 w fun v => uBr v w)

/-- CALL, R363. -/
def execMicroCall (e : Nat) (w : BitVec 30) (s : State) : Host.Outcome State Fault Refusal :=
  .next (s.micro e 0x09 w fun v => uCall v w)

/-- RET, R363. -/
def execMicroRet (e : Nat) (w : BitVec 30) (s : State) : Host.Outcome State Fault Refusal :=
  .next (s.micro e 0x0A w fun v => uRet v w)

/-- KJMP, R363. -/
def execKjmp (e : Nat) (w : BitVec 30) (s : State) : Host.Outcome State Fault Refusal :=
  .next (s.micro e 0x0C w fun v => uKjmp v w)

/-- KPUSH, R363. -/
def execKpush (e : Nat) (w : BitVec 30) (s : State) : Host.Outcome State Fault Refusal :=
  .next (s.micro e 0x0D w fun v => uKpush v w)

/-- KPOP, R363. -/
def execKpop (e : Nat) (w : BitVec 30) (s : State) : Host.Outcome State Fault Refusal :=
  .next (s.micro e 0x0E w fun v => uKpop v w)

/-- VISSUE, R363. -/
def execVissue (e : Nat) (w : BitVec 30) (s : State) : Host.Outcome State Fault Refusal :=
  .next (s.micro e 0x10 w fun v => uVissue v w)

/-- VWAIT, R363. -/
def execVwait (e : Nat) (w : BitVec 30) (s : State) : Host.Outcome State Fault Refusal :=
  .next (s.micro e 0x11 w fun v => uVwait v w)

/-- ROWMV, R363. -/
def execRowmv (e : Nat) (w : BitVec 30) (s : State) : Host.Outcome State Fault Refusal :=
  .next (s.micro e 0x12 w fun v => uRowmv v w)

/-- CHK, R363. -/
def execChk (e : Nat) (w : BitVec 30) (s : State) : Host.Outcome State Fault Refusal :=
  .next (s.micro e 0x16 w fun v => uChk v w)

/-- FAULT, R363. -/
def execMicroFault (e : Nat) (w : BitVec 30) (s : State) : Host.Outcome State Fault Refusal :=
  .next (s.micro e 0x17 w fun v => uFault v w)

/-- IMMF, R363. -/
def execImmf (e : Nat) (w : BitVec 30) (s : State) : Host.Outcome State Fault Refusal :=
  .next (s.micro e 0x07 w fun v => uImmf v s.mpInService s.kernelWord w)

/-- NEXT, R366. -/
def execMicroNext (e : Nat) (w : BitVec 30) (s : State) : Host.Outcome State Fault Refusal :=
  .next (s.microSafe e 0x0B w fun v => uNext v s.mpInService s.kernelWord s.decodeEntry w)

/-- POLL, R372. -/
def execPoll (e : Nat) (w : BitVec 30) (s : State) : Host.Outcome State Fault Refusal :=
  .next (s.microSafe e 0x18 w fun v => uPoll v w)

/-- KCORE, R363: the fields of a vendor format are not published; the operation is the one IR names. -/
def execKcore (e : Nat) (w : BitVec 30) (s : State) : Host.Outcome State Fault Refusal := .next (s.micro e 0x14 w uKcore)

/-- SHMAP, R363. -/
def execShmap (e : Nat) (w : BitVec 30) (s : State) : Host.Outcome State Fault Refusal := .next (s.micro e 0x15 w uShmap)

/-- MODW, R363. -/
def execModw (e : Nat) (w : BitVec 30) (s : State) : Host.Outcome State Fault Refusal := .next (s.micro e 0x1A w uModw)

/-- OSTR, R363: what it streams leaves the part. -/
def execOstr (e : Nat) (w : BitVec 30) (s : State) : Host.Outcome State Fault Refusal :=
  .next (s.fetchMicro e 0x1B w fun j x v =>
    match uOstr v with
    | .next v => (s.onVce e fun _ => v).streamOut e j x
    | r => s.microEnd e r)

/-- The instruction in IR, as PORT carries it out for one element: the fault it takes, as cause and index.
DESIGN CHOICE, log entry 25, unsafe. -/
def State.portElem (s : State) (j : Nat) (x : Job) (v : Vce) (i : Nat) : State × Vce × Option (Nat × Nat) :=
  let f := v.irFields
  let idx := v.elem 2 f.vs1.toNat i
  let c := gsCause (s.windowWords x.slice) (s.windowWordAt x) idx
  if !(decide (i < v.vl) && v.active f 0 i) then (s, v, none)
  else if c ≠ 0 then
    let s := if c = 2 then s.noteRead ((s.window x.slice).1 + 8 * idx) 8 else s
    let v := { v with vfault := vfaultWord c v.kaddr i }.maskOut f i
    if v.irOpcode = 0x14 ∧ fn f 0 0 = 1 ∧ (v.gsElems f).head? ≠ some i then
      (s, v.setScal (fn f 4 1) (BitVec.ofNat 36 i), none)
    else (s, v, some (c, i))
  else if v.irOpcode = 0x14 then
    let w := ((s.windowWordAt x idx).getD 0) % (if ty f = 3 then 2 ^ 64 else 2 ^ 36)
    (s, v.writeElems (ty f) f.vd.toNat 1 1 (fun k => k = i) (fun _ _ => w) false, none)
  else (s.scatter j x.slice [(idx, v.elem (ty f) f.vd.toNat i % 2 ^ 64)], v, none)

/-- PORT, R363, R372: one element of the gather or scatter in IR. The wait for its data is a safe point. -/
def execPort (e : Nat) (w : BitVec 30) (elem : Nat) (s : State) : Host.Outcome State Fault Refusal :=
  .next (s.fetchMicro e 0x13 w fun j x v =>
    let f := v.irFields
    if v.irOpcode ≠ 0x14 ∧ v.irOpcode ≠ 0x15 then s.runTo e (v.uadv 1)
    else match (if v.irOpcode = 0x14 then vgatherFault v f else vscatterFault v f) with
    | some c => s.microEnd e (.ifault v c)
    | none =>
      let i := v.elem 2 f.vs1.toNat elem
      let a := (s.window x.slice).1 + 8 * i
      let v := { v with wd := 0, safe := true, waiting := true }
      if i < s.windowWords x.slice ∧ s.groupsWait a 8 then s.microEnd e (.wait v)
      else
        let s := if i < s.windowWords x.slice then s.openGroups a 8 else s
        match s.portElem j x v elem with
        | (s, v, none) => s.runTo e (v.uadv 1)
        | (s, v, some (c, i)) => s.kernelFault e { v with ustack := [], upc := 0x40 } c i)

/-- What JEND makes of the job: VEND where IR holds it; else the operation's own length of output, and a verdict whose bit
is not published, where the operation may fail one (R119). DESIGN CHOICE, log entry 25, unsafe. -/
def jendResult (x : Job) (v : Vce) (w : BitVec 30) : Result :=
  if v.irOpcode = 0x63 then vendResult x v v.irFields
  else
    let n := min x.desc.outCap ((x.desc.outLen x.desc.info x.block).getD (Config.vendorMicro (w.toNat + 2 ^ 30)))
    if x.mayFail ∧ Config.vendorMicro w.toNat % 2 = 1 then fail .verifyFail
    else { out := (v.streamed ++ v.slotBytes (n - v.streamed.length)).take n }

/-- What keeps a job from its end: where IR holds VEND, its own faults; else output rows that are marked secret, which HDX
never reads (R313, R351). -/
def jendFault (x : Job) (v : Vce) (w : BitVec 30) : Option Nat :=
  if v.irOpcode = 0x63 then vendFault v v.irFields
  else if v.ctx.k ≠ 1 ∧ v.slotMarked ((jendResult x v w).out.length - v.streamed.length) then some 0x16
  else none

/-- JEND, R363. -/
def execJend (e : Nat) (w : BitVec 30) (s : State) : Host.Outcome State Fault Refusal :=
  .next (s.fetchMicro e 0x19 w fun j x v =>
    match jendFault x v w with
    | some c => s.microEnd e (.ifault v c)
    | none => s.kernelEnds e j x v (jendResult x v w))

/-! Single-stepping (R541) -/

/-- PORT in a known-answer job, which has no slice and so no window: an active element of the gather or scatter in IR lies
outside
(R333, R541). DESIGN CHOICE, log entry 25, unsafe. -/
def uPort (v : Vce) : MRes :=
  let f := v.irFields
  if v.irOpcode ≠ 0x14 ∧ v.irOpcode ≠ 0x15 then .next (v.uadv 1)
  else match (if v.irOpcode = 0x14 then vgatherFault v f else vscatterFault v f) with
  | some c => .ifault v c
  | none => if (v.gsElems f) = [] then .next (v.uadv 1) else .ifault v 1

/-- A micro-operation by its major opcode, on an engine without a job: JEND ends the known-answer job. -/
def State.microOp (s : State) (major : Nat) (w : BitVec 30) (v : Vce) : MRes :=
  match major with
  | 0x00 => uNop v w | 0x01 => uAlu v w | 0x02 => uAlui v w | 0x03 => uLdi v w | 0x04 => uFld v w | 0x05 => uSrd v w
  | 0x06 => uSwr v w | 0x07 => uImmf v s.mpInService s.kernelWord w | 0x08 => uBr v w | 0x09 => uCall v w
  | 0x0A => uRet v w | 0x0B => uNext v s.mpInService s.kernelWord s.decodeEntry w | 0x0C => uKjmp v w
  | 0x0D => uKpush v w | 0x0E => uKpop v w | 0x10 => uVissue v w | 0x11 => uVwait v w | 0x12 => uRowmv v w
  | 0x13 => uPort v | 0x14 => uKcore v | 0x15 => uShmap v | 0x16 => uChk v w | 0x17 => uFault v w
  | 0x18 => uPoll v w | 0x19 => .next { v with entered := false } | 0x1A => uModw v | 0x1B => uOstr v
  | _ => .mcheck v csParity

/-- The next known-answer job, of share count `k`, on the engine `v`: it has no key (R541).
DEDUCED, log entry 56, unsafe. -/
def Vce.knownAnswer (v : Vce) (k : Nat) : Vce :=
  let b := Config.katInput k
  let v := v.jobStart { k := k, blockLen := b.length } (if k = 1 then none else some (fit 48 (Config.katInput (4 + k))))
    (Config.vendorEntry (2 ^ 16 + k) % 0x2C00)
  v.putBytes 0 b false 0

/-- `n` micro-operations of a known-answer job on an engine; its JEND, a fault or a machine check ends it, and the third is
answered
beside the engine. DEDUCED, log entry 56, unsafe. -/
def State.stepVce (s : State) : Nat → Vce → Vce × Option Nat
  | 0, v => (v, none)
  | n + 1, v =>
    if !v.entered then (v, none)
    else match s.patched v.upc with
    | none => (v, some csParity)
    | some a =>
      let c := s.controlWord a
      let v := { v with upc := a }
      if a ≥ 0x4000 && !parityOk c then (v, some csParity)
      else match s.microOp (majorOf c) (formatOf c) v with
      | .next v => s.stepVce n v
      | .wait v => (v, none)
      | .ifault v k => ({ v with vfault := vfaultWord k v.kaddr 0, ustack := [], upc := 0x40, entered := false }, none)
      | .mcheck v k => ({ v with entered := false }, some k)

/-- The engine with the known-answer job that STEP advances, and its share count: the one in progress, else the next of K = 1
to 4 (R541). DEDUCED, log entry 56, unsafe. -/
def State.katOn (s : State) (e : Nat) : Nat × Vce :=
  match s.dbg.kat with
  | some (i, k) => if i = e && (s.vce e).entered then (k, s.vce e) else
      let k := if i = e then k % 4 + 1 else 1
      (k, (s.vce e).knownAnswer k)
  | none => (1, (s.vce e).knownAnswer 1)

/-- STEP, R541: known-answer jobs on a halted VCE advance by ARG micro-operations. DEDUCED, log entry 56, unsafe. -/
def execDbgStep (s : State) : Host.Outcome State Fault Refusal :=
  .next (match s.dbgAction 3 2 with
    | some (n, right, s) =>
      match s.haltedVce with
      | some e =>
        let ok := right && decide (n > 0)
        let (k, v) := s.katOn e
        let r := s.stepVce n v
        let t := { s with dbg := { s.dbg with kat := some (e, k) } }.onVce e fun _ => r.1
        let t := match r.2 with
          | some k => (t.machineCheck e k r.1.upc).onVce e fun v => { v with entered := false }
          | none => t
        (if ok then t else s).recordAction ok 3 n
      | none => s.recordAction false 3 n
    | none => s)

end Sys2Proof.Machine
end

