-- ==== Sys2Proof/Machine/Start.lean ====
section
/-! DEFINITION. The start of the part (R47, R51, R387, R388, R405, R415, R451, R470, R508, R514, R522, R532 to R535, R565,
R599, R600, R611, R624): COLD_START carries out its steps in order. -/

namespace Sys2Proof.Machine

/-! Power and time (steps 1 and 2 of R599) -/

/-- The start applies power newly: the main rails were absent. -/
def State.newPower (s : State) : Bool := decide (s.pwr.st = .off) || decide (s.pwr.st = .winter)

/-- The station time of a count of the Winter Hold time counter (R611). -/
def Anchor.timeOf (a : Anchor) (counter : Nat) : Nat :=
  a.time + (2 * ((counter + 2 ^ 48 - a.counter) % 2 ^ 48) * 1000000000 + 32768) / 65536

/-- The time base of a start with newly applied power: station time and F from an intact anchor; without one it counts
from 0 in UNSET (R611). DEDUCED, log entry 81, unsafe. -/
def State.restoredTim (s : State) : Tim :=
  match (if s.aon.intact then s.aon.anchor else none) with
  | some a =>
    { ns := a.timeOf s.aon.counter, freq := a.freq, st := TimeSt.holdover, elapsed := s.tim.elapsed
      holdFrom := s.tim.elapsed, holdBase := s.tim.elapsed }
  | none => { elapsed := s.tim.elapsed, holdFrom := s.tim.elapsed, holdBase := s.tim.elapsed }

/-- The time base restores station time. -/
def State.restoreTime (s : State) : State := { s with tim := s.restoredTim }

/-- Power is newly applied: START shows whether the AON domain was kept (R617). -/
def State.applyPower (s : State) (d : StartData) : State :=
  let s := s.restoreTime
  { s with
    pwr := { start := if s.aon.intact then 0 else 1, st := .run, pfail := d.pfail, opSec := s.pwr.opSec, opNs := s.pwr.opNs }
    pins := { s.pins with rails := true, vaon := true }
    smb := { s.smb with addr := d.straps % 4 } }

/-! The life-cycle state (R525, R532, R535) -/

/-- FROM of the last transition (R526). -/
def State.lastFrom (s : State) : Nat := fld s.lcsState 11 8

/-- The state is determined; LOST is recorded, and its roots and any unreferenced root block are erased (R525, R532). -/
def State.determineState (s : State) : State :=
  let s := { s with lcs := { s.lcs with code := s.lcs.determine, first := false } }
  if s.lcs.code = 0xF then
    s.eraseRoots.event 7 srcLcs 5 0 0xFF
      (leBytes 1 s.lastFrom)
  else s

/-- This is the first start in the state: none has completed in it. DEDUCED, log entry 39, unsafe. -/
def State.firstStart (s : State) : Bool := decide (s.lcs.code ≠ 0xF) && decide (s.lcs.begun ≠ s.lcs.code)

/-- Steps 1 and 2 of R535: an unreferenced root block, the settings, and, but for PROVISION → FIELD, the owner keys and the
CUSTOMER packages are erased; every epoch is 0 (R418). DESIGN CHOICE, log entry 79, unsafe. -/
def State.eraseForState (s : State) : State :=
  let s := s.eraseUnref
  let s := ({ s with
    kmg := { s.kmg with epochs := [] }
    nvm := { s.nvm with images := [], gen := 0 } }).eraseBlocks 0 (if s.nvm.images = [] then [] else List.range 64)
  if s.lastFrom = 5 ∧ s.lcs.code = 6 then s
  else
    let s := s.erasePackages 5
    { s with lcs := { s.lcs with codeKey := [], debugKey := [] } }

/-! The AON domain (R565) -/

/-- Step 2: without an intact retention word, the latch and the alarm store are empty and AON_LOST is set. -/
def State.checkAon (s : State) : State :=
  if s.aon.intact then s
  else { s with
    aon := { intact := true, onVbat := s.aon.onVbat }, tmp := { s.tmp with aonLost := true }
    engines := mapAll {} s.engines fun _ x => if x.contained then { x with contained := false, unit := .active } else x }

/-- Step 3: a set latch erases every root record and is cleared. -/
def State.actOnLatch (s : State) : State :=
  if s.aon.latch then
    (({ s with aon := { s.aon with latch := false }, tmp := { s.tmp with forfeited := true } }).eraseRoots).event 8 18 6
  else s

/-- The 64 bits of an alarm store entry, and of the overflow entry (R564). -/
def StoreEntry.word (e : StoreEntry) : Nat := e.time * 2 ^ 16 + e.mon * 2 ^ 11 + e.resp * 2 ^ 8 + e.count
def overflowWord (o : Nat × Nat × Nat) : Nat := o.1 * 2 ^ 16 + o.2.1 * 2 ^ 11 + o.2.2

/-- One entry is copied into the journal, with its time derived from the counter and marked HOLDOVER. -/
def State.copyEntry (s : State) (time mon word : Nat) : State :=
  let t := match s.aon.anchor with
    | some a => a.timeOf time
    | none => s.now
  s.intake { s.mkRec (eventCode 8 mon 5) 0 0xFF (leBytes 8 word) with time := t, holdover := true }

/-- The entries of the alarm store are copied, and committed. -/
def State.copyEntries (s : State) : State :=
  let s := s.aon.store.foldl (fun (s : State) (e : StoreEntry) => s.copyEntry e.time e.mon e.word) s
  let s := match s.aon.overEntry with
    | some o => s.copyEntry o.1 o.2.1 (overflowWord o)
    | none => s
  s.flushRing

/-- Step 4: the entries are copied, committed, and the store is cleared. -/
def State.copyStore (s : State) : State :=
  if s.aon.store = [] ∧ s.aon.overEntry.isNone then s
  else
    let n := s.aon.store.length + bitOf s.aon.overEntry.isSome
    let o := s.aon.overEntry.elim 0 fun (o : Nat × Nat × Nat) => o.2.2
    let s := s.copyEntries
    { s with aon := { s.aon with store := [], overEntry := none }, tmp := { s.tmp with held := n, overflow := o } }

/-- An alarm that a start raises; a FORFEIT repeats step 3, without a reset. DEDUCED, log entry 39, unsafe. -/
def State.raiseAtStart (s : State) (m : Nat) : State :=
  let s := s.trip m 1 .all
  if s.aon.latch then ({ s with tmp := { s.tmp with seq := none } }).actOnLatch else s

/-! Settings (R624) -/

/-- The image that a start takes: the highest GEN of those that pass. -/
def State.chosenImage (s : State) : Option Image :=
  greatestBy Image.gen ((mapVals s.nvm.images).filter s.imageOk)

/-- One setting takes its stored value; a reserved one, its default, which is recorded. -/
def State.loadSetting (img : Option Image) (s : State) (r : Reg) : State :=
  match img.bind fun (i : Image) => (i.body.find? fun (e : Nat × Word) => e.1 = r.addr).map (·.2) with
  | some v =>
    if s.reservedFor r (v &&& r.mask) then
      (s.setReg r r.reset).event 0xA (blockSrc r.addr) 0 (r.sliceOf.getD 0) 0xFF (leBytes 4 r.addr)
    else s.setReg r v
  | none => s.setReg r r.reset

/-- Step 5 of R565: the AON configuration is reloaded, WHALARM and AON_LOST are raised, and the outputs show the alarms. -/
def State.loadAon (s : State) : State :=
  let img := s.chosenImage
  let s := (List.range 20).foldl (fun (s : State) (m : Nat) => s.loadSetting img (.monCfg m)) s
  let s := { s with aon := { s.aon with
    tripped := []
    cfg := (List.range 20).foldl (fun (c : SMap Word) (m : Nat) => mapInsert c m (s.reg (.monCfg m))) s.aon.cfg } }
  let s := if s.tmp.held > 0 then s.raiseAtStart 18 else s
  let s := if s.tmp.aonLost then s.raiseAtStart 19 else s
  { s with tmp := { s.tmp with outputs := true } }

/-- A setting of the AON class, loaded already. -/
def Reg.isAon : Reg → Bool
  | .monCfg _ => true
  | _ => false

/-- Step 10 of R599: the other settings; TIM_TRIM only where power was newly applied (R615). -/
def State.loadSettings (s : State) (newPower : Bool) : State :=
  let img := s.chosenImage
  let l := s.settings.filter fun r => !r.isAon && (newPower || decide (r ≠ .timTrim))
  let s := l.foldl (State.loadSetting img) s
  let g := img.elim 0 Image.gen
  let s := { s with nvm := { s.nvm with noImage := img.isNone, gen := g } }
  s.event 0xA srcNvm 1 0 0xFF (leBytes 4 g)

/-! Packages (R387, R388, R507, R508, R522) -/

/-- Packages are loaded, each recorded with its VERSION. DESIGN CHOICE, log entry 34, unsafe. -/
def State.loadPackages (s : State) : State :=
  let s := [1, 3, 2, 4, 5].foldl (fun (s : State) (t : Nat) => if t = 4 ∧ !s.mpInService then s else s.loadPackage t) s
  let s := s.code.loaded.foldl (fun (s : State) (t : Nat) =>
    s.event 0xA srcNvm 7 0 0xFF (leBytes 1 t ++ zeros 3 ++ leBytes 4 (((mapFind s.code.active t).map Package.version).getD 0))) s
  s.openPartition

/-! The harvest (R470, R472, R474) -/

/-- A known-answer test fails: every source has failed (R462, R474). DEDUCED, log entry 77, unsafe. -/
def State.katFails (s : State) : State :=
  let s := s.event 5 srcRng 5
  let bad : Source := { st := .bad, fails := 1, at_ := s.pwr.opSec }
  (({ s with rng := { s.rng with noSource := true, switching := false, srcs := (List.range 4).map fun n => (n, bad) } }).event
    5 srcRng 2).entropyGone

/-- The RNG is enabled; the start-up tests named fail in turn, and the first source that passes completes the harvest and
seeds ROOT from its second block. A failed known-answer test ends it (R462). -/
def State.startRng (s : State) (d : StartData) : State :=
  let s := { s with rng := { on := true, onAt := s.el, srcs := [(0, { st := .selected })] } }
  let s := if d.katFail then s.katFails
    else d.startup.foldl (fun (s : State) (c : Nat) => if s.rng.noSource then s else s.sourceFails s.rng.sel c true) s
  if s.rng.noSource then s
  else
    let s := if s.rng.switching then s.event 5 (srcNs s.rng.sel) 1 else s
    let s := s.tallied s.rng.sel 0
    let s := { s with rng := { s.rng with
      blocks := 2, switching := false
      srcs := mapUpd {} s.rng.srcs s.rng.sel fun x => { x with st := .selected, passed := true } } }
    let (b, s) := (s.harvest d.harvestUs).newBlock
    s.seed 1 b

/-! Context memory (R405 to R407) -/

/-- A channel that answered training. -/
def DdrChannel.found (c : DdrChannel) : Bool := c.trained && c.gib > 0

def DdrChannel.channel (c : DdrChannel) (active : Bool) : Channel :=
  if c.found then { fitted := true, active := active, ranks := c.ranks, gib := c.gib } else {}

/-- POP_CODE of R405. -/
def popCode (small : Bool) (a b : DdrChannel) : Nat :=
  if !a.trained || a.gib < 4 then 1
  else if small || b.gib = 0 then 0
  else if !b.trained then 2
  else if b.gib ≠ a.gib || b.ranks ≠ a.ranks || b.density ≠ a.density || b.width ≠ a.width then 3
  else 0

/-- The channels are trained, and the capacity follows (R406, R407). -/
def State.train (s : State) (d : StartData) : State :=
  let small := s.fuses.small
  let code := popCode small d.chA d.chB
  let b := if small then {} else d.chB
  let two := code = 0 ∧ b.gib > 0
  let cap := if code = 1 then 0 else d.chA.gib * 2 ^ 30 / 32 * 31 * (if two then 2 else 1)
  let s := { s with cmc := { s.cmc with
    popCode := code, chA := d.chA.channel (code ≠ 1), chB := b.channel two, usable := cap
    internal := if code = 1 then 0 else (if small then 473 else 607) * 2 ^ 20 } }
  if code ≠ 0 then s.event 3 srcCmc 2 0 0xFF (leBytes 1 code) else s

/-! Stateful records (R451, R553) -/

/-- The record is erased; one that was open is recorded. -/
def State.eraseRecord (s : State) (i : Nat) (r : StfRecord) : State :=
  let s := { s with kmg := { s.kmg with stf := mapErase s.kmg.stf i } }
  if r.close = 0 then s.event 6 srcKey 4 0 0xFF r.keyId else s

/-- Of two open records of one key, `a` is superseded by `b`: RESV_END, then BLOBGEN, then place decide. -/
def StfRecord.behind (i : Nat) (a : StfRecord) (j : Nat) (b : StfRecord) : Bool :=
  let x := a.log.getLastD 0
  let y := b.log.getLastD 0
  b.valid && decide (b.close = 0) && decide (i ≠ j) && decide (a.keyId = b.keyId)
    && (x < y || (x = y && (a.blobgen < b.blobgen || (a.blobgen = b.blobgen && i < j))))

/-- One record at the scan; `all`: the root of every record is gone. -/
def State.scanRecord (all : Bool) (s : State) (i : Nat) : State :=
  match s.record? i with
  | none => s
  | some r =>
    if all || r.state ≠ s.lcs.code || r.epoch ≠ s.epoch r.owner || (r.close = 0 && r.log = []) then s.eraseRecord i r
    else if r.close = 0 && s.kmg.stf.any fun (e : Nat × StfRecord) => r.behind i e.1 e.2 then
      s.onRecord i fun r => { r with close := 1 }
    else s.onRecord i fun r => { r with next := r.log.getLastD 0 }

/-- The scan of R451: erasures first, then superseded records. DEDUCED, log entry 39, unsafe. -/
def State.scanRecords (s : State) (all : Bool) : State :=
  let old := s.kmg.stf.map (·.1)
  let s := old.foldl (State.scanRecord all) s
  let s := (s.kmg.stf.map (·.1)).foldl (State.scanRecord false) s
  s.eraseBlocks 3 ((List.range 128).filter fun b => old.any fun i => decide (i / 32 = b) && (s.record? i).isNone)

/-! The end of the start (steps 10 and 11 of R599) -/

/-- Every slice whose stored AUTO is 1 is activated (R496). -/
def State.autoActivate (s : State) : State :=
  s.slicesPresent.foldl (fun (s : State) (n : Nat) => if bitAt (s.reg (.perm n)) 31 then s.activate n else s) s

/-- READY, and the START event (R599, R616). DEDUCED, log entry 39, unsafe. -/
def State.becomeReady (s : State) : State :=
  let s := { s with
    pwr := { s.pwr with ready := true, inReset := false, dozeAt := s.el }
    sch := { s.sch with lastTick := s.us, window := s.us / 1000 + 1 }
    smb := { s.smb with lcs := 64 * bitOf s.lcs.first + s.lcs.code } }
  s.event 0xB srcPwr 0 0 0xFF (leBytes 8 s.kmg.boot ++ leBytes 1 s.pwr.start)

/-- The next SEQ is one above the highest valid one in the journal (R573). DEDUCED, log entry 39, unsafe. -/
def State.resumeSeq (s : State) : State :=
  let l := (mapVals s.evr.area ++ s.evr.retained).map Rec.seq
  { s with evr := { s.evr with next := if l = [] then 0 else l.foldl max 0 + 1 } }

/-- Records found without their valid mark are discarded, counted and recorded; the journal accepts commits (R581), and flushes
the ring while PFAIL_N is low (R583, R663). -/
def State.scanJournal (s : State) : State :=
  let n := s.evr.tornNvm
  let s := { s with evr := { s.evr with ready := true, torn := n, tornNvm := 0, flushing := s.pwr.pfail } }
  if n > 0 then s.event 0xD srcEvr 5 else s

/-- KEY, context memory, records and the partition, in a state that has them; a root that is missing is generated first
(R415, R535). -/
def State.startKeys (s : State) (first : Bool) : State :=
  let fresh := s.wantsRoot
  let s := if fresh && s.rng.ready && !s.rng.noSource then
      (let (b, s) := { s with rng := { s.rng with blocks := s.rng.blocks + 1 } }.newBlock
      s.newRoot b)
    else s
  let s := if s.root?.isSome then
      { s.openCmc with kmg := { s.openCmc.kmg with ready := true }, lcs := { s.openCmc.lcs with first := first, begun := s.lcs.code } }
    else s
  let s := s.scanRecords fresh
  let s := if first then s.event 7 srcLcs 2 0 0xFF (leBytes 1 s.lastFrom ++ leBytes 1 s.lcs.code) else s
  s.statementKey.startCounter

/-- The start of a part in TEST, PROVISION, FIELD or RETURN from step 5 of R599 on. -/
def State.startWorking (s : State) (d : StartData) (newPower first : Bool) : State :=
  let s := s.repairAll.carryOutSeparation.activatePackages.loadPackages
  let s := ((s.startRng d).train d).loadSettings newPower
  let s := (s.startKeys first).advance d.ns
  (if s.rng.ready then s.startRound else s).autoActivate.becomeReady

/-- The start of a part in SCRAP or LOST: KEY and context memory stay off, and the RNG runs in SCRAP only (R532, R533). -/
def State.startEnded (s : State) (d : StartData) (newPower first : Bool) : State :=
  let s := s.carryOutSeparation
  let s := if s.lcs.code = 0xC then s.activatePackages.loadPackages.startRng d else s
  let s := (s.loadSettings newPower).scanRecords true
  let s := if first then
      ({ s with lcs := { s.lcs with first := true, begun := s.lcs.code } }).event 7 srcLcs 2 0 0xFF
        (leBytes 1 s.lastFrom ++ leBytes 1 s.lcs.code)
    else s
  (s.advance d.ns).becomeReady

/-- The steps of R599 in their order; a power failure in step 3 or 4 of R565 leaves the latch set, or the store as it was,
and the next start repeats the step. DESIGN CHOICE, log entry 38, unsafe. DESIGN CHOICE, log entry 79, unsafe. -/
def State.start (s : State) (d : StartData) : State :=
  let newPower := s.newPower
  let s := (if newPower then s.applyPower d else s).loadMap d.recordsBad
  let s := { s with
    pins := { s.pins with perstN := true, testmode := false }
    jtag := { s.jtag with driven := false, highZ := false }
    hif := { s.hif with linkUp := true, gen := d.linkGen, lanes := d.lanes }
    pwr := { s.pwr with st := .run } }
  let s := s.resumeSeq.determineState.checkAon
  if d.failAt = 3 ∧ s.aon.latch then s.eraseRoots.losePower 0
  else
    let s := s.actOnLatch.scanJournal
    if d.failAt = 4 ∧ s.aon.store ≠ [] then s.copyEntries.losePower 0
    else
      let s := s.copyStore
      let first := s.firstStart
      let s := (if first then s.eraseForState else s).loadAon.nextBoot
      if s.ended then s.startEnded d newPower first else s.startWorking d newPower first

/-! What a start could not make (R415, R470, R514) -/

/-- BLOCK_READY, R464, R465, R470: the conditioner produces a block from two passed windows. The first block of a start
completes the harvest, which a statement key waits for (R514); SWITCHING clears with the first block after a switch. -/
def execBlockReady (s : State) : Host.Outcome State Fault Refusal :=
  .next (
    if !s.rng.on || s.rng.noSource || !s.awake then s
    else
      let sw := s.rng.switching
      let s := s.tallied s.rng.sel 0
      let s := { s with rng := { s.rng with
        blocks := (s.rng.blocks + 1) % 2 ^ 64, switching := false
        srcs := mapUpd {} s.rng.srcs s.rng.sel fun x => { x with st := .selected, passed := true } } }
      let s := if sw then s.event 5 (srcNs s.rng.sel) 1 else s
      if s.rng.ready then
        let (b, s) := s.newBlock
        s.giveBlock b |>.statementKey
      else s.harvest.statementKey)

/-- ROOT_GENERATION, R415: where the start could not make it, the root follows once ROOT is seeded after the harvest. The
generate of ROOT takes a block from the pool, or waits for the next one, ahead of every other request (R469, R477). -/
def execRootGeneration (s : State) : Host.Outcome State Fault Refusal :=
  .next (
    if s.wantsRoot && s.rng.ready && s.rng.root.live && !s.rng.noSource then
      match s.takePool with
      | some (b, s) => (s.newRoot b).statementKey
      | none =>
        if s.rng.waiting.contains .root then s
        else { s with rng := { s.rng with waiting := .root :: s.rng.waiting } }
    else s)

/-- COLD_START, R599: a part held in reset starts when PERST_N rises. A part whose TESTMODE is not at VSS stays in reset
(R657). A start after rails applied out of order is not defined (R661).
DESIGN CHOICE, log entry 38, unsafe. DESIGN CHOICE, log entry 40, safe. -/
def execColdStart (d : StartData) (s : State) : Host.Outcome State Fault Refusal :=
  if !s.pwr.inReset then .next s
  else if d.testmode then
    .next { s with pins := { s.pins with perstN := true, testmode := true } }
  else if s.newPower && !d.inOrder then .fault .startUndefined
  else .next (s.start d)

end Sys2Proof.Machine
end

