-- ==== Sys2Proof/Machine/Power.lean ====
section
/-! DEFINITION. Power states and the power-fail input (R453, R530, R583, R590 to R598, R662 to R665). -/

namespace Sys2Proof.Machine

/-- No program or erase of NVM is in progress or waits, and the journal has committed its ring (R595). -/
def State.nvmQuiet (s : State) : Bool :=
  s.nvm.op.isNone && !s.nvm.storeAfter && s.lcs.trans.isNone && !s.code.busy && !s.mp.busy && !s.lcs.ownerBusy && !s.mp.ctrBusy
    && s.evr.ring.isEmpty
    && s.kmg.stf.all fun e => !e.2.pending

/-- The conditions of R595. DESIGN CHOICE, log entry 44, unsafe. -/
def State.maySleep (s : State) : Bool :=
  decide (s.pwr.st = .doze) && s.up && s.profile ≠ 1 && s.sch.jobs.isEmpty && s.nvmQuiet && s.rng.ready && s.tmp.seq.isNone
    && !s.pwr.pfail && !(decide (s.nvm.commit = .armed) && decide (s.nvm.instant ≤ s.us + 1000))
    && ((bitAt (s.reg .pwrCtrl) 31 && decide (s.pwr.dozeAt + fld (s.reg .pwrCtrl) 29 14 * 1000000 ≤ s.el)) || s.pwr.d3hot)

/-- Every engine of the part is gated (R32, R592). -/
def State.gateAll (s : State) : State :=
  allEngines.foldl (fun (s : State) e => if (s.engine e).gated then s else (s.frostEngine e).onEngine e fun x => { x with
    gated := true, thawing := false }) s

/-- SLEEP is entered: clocks stop, and the selected noise source with them, and every engine is gated (R32, R478, R590,
R592, R616). -/
def State.sleep (s : State) : State :=
  let s := s.gateAll
  let s := { s with
    pwr := { s.pwr with st := .sleep }
    rng := { s.rng with srcs := mapUpd {} s.rng.srcs s.rng.sel fun x => { x with passed := false } } }
  s.event 0xB srcPwr 1 0 0xFF (leBytes 1 1)

/-- SLEEP_ENTRY, R595. DEDUCED, log entry 73, unsafe. -/
def execSleepEntry (d3hot : Bool) (s : State) : Host.Outcome State Fault Refusal :=
  .next (
    let s := { s with pwr := { s.pwr with d3hot := d3hot } }
    if s.maySleep then s.sleep else s)

/-- WAKE, R596: after it the function is in D0. DEDUCED, log entry 73, unsafe. -/
def execWake (s : State) : Host.Outcome State Fault Refusal :=
  .next { s.wakeUp with pwr := { s.wakeUp.pwr with d3hot := false } }

/-! PFAIL_N (R453, R530, R583, R597, R663) -/

/-- The filter of R663 takes a low level of `width` ns as a fall: `taken` decides from 200 ns to 400 ns. -/
def pulseTaken (width : Nat) (taken : Bool) : Bool := 200 ≤ width && (400 ≤ width || taken)

/-- The ring is flushed, and the flush recorded with its count (R570, R583). -/
def State.pfailFlush (s : State) : State :=
  let s := { s with evr := { s.evr with flushing := true } }
  if s.keepsRing then s
  else
    let s := s.endSuppressions
    let n := s.evr.ring.length
    s.commitAll.event 0xD srcEvr 0 0 0xFF (leBytes 2 n)

/-- PFAIL_N falls (R597): the anchor is written, the part leaves SLEEP, an unfinished transition is abandoned before its
word M, a store stops, and the ring is flushed. -/
def State.pfailFalls (s : State) : State :=
  let s := ({ s with pwr := { s.pwr with pfail := true } }).writeAnchor.wakeUp
  let s := s.event 0xB srcPwr 2 0 0xFF (leBytes 1 1)
  let s := match s.lcs.trans with
    | some t => if t.step < 3 then s.refuseTransition 3 t.from_ t.into else s
    | none => s
  s.storeStops.pfailFlush

/-- PFAIL_FALL, R597, R663. -/
def execPfailFall (width : Nat) (taken : Bool) (s : State) : Host.Outcome State Fault Refusal :=
  .next (if s.timed && !s.pwr.pfail && pulseTaken width taken then s.pfailFalls else s)

/-- PFAIL_N returns high: the flush ends, and commits held back start in order of request (R453, R583). -/
def State.pfailRises (s : State) : State :=
  let s := ({ s with
    pwr := { s.pwr with pfail := false }
    evr := { s.evr with flushing := false } }).releaseCommits
  s.event 0xB srcPwr 2 0 0xFF (leBytes 1 0)

/-- PFAIL_RISE, R453. -/
def execPfailRise (s : State) : Host.Outcome State Fault Refusal :=
  .next (if s.timed && s.pwr.pfail then s.pfailRises else s)

/-! Loss of power (R51, R591, R598, R664, R665) -/

/-- MAIN_POWER_LOSS, R591: Winter Hold, while a supply of the AON domain is present. -/
def execMainPowerLoss (torn : Nat) (s : State) : Host.Outcome State Fault Refusal :=
  .next (if s.timed then s.losePower torn else s)

/-- AON_CHANGEOVER, R665: the AON domain moves to VBAT, or back to VAON, without interruption. -/
def execAonChangeover (vbat : Bool) (s : State) : Host.Outcome State Fault Refusal :=
  .next (
    if vbat && !s.pins.vbat then s
    else { s with aon := { s.aon with onVbat := vbat }, pins := { s.pins with vaon := !vbat } })

/-- AON_DOMAIN_LOST, R598: neither VAON nor VBAT is present. DESIGN CHOICE, log entry 41, unsafe. -/
def execAonDomainLost (s : State) : Host.Outcome State Fault Refusal :=
  .next { s with
    aon := {}, pins := { s.pins with vaon := false, vbat := false }
    pwr := { s.pwr with st := if s.pwr.st = .winter then .off else s.pwr.st } }

end Sys2Proof.Machine
end

