-- ==== Sys2Proof/Machine/Ports.lean ====
section
/-! DEFINITION. The SMBus target and the JTAG port (R656, R670 to R673). -/

namespace Sys2Proof.Machine

/-! SMBus (R670, R671) -/

/-- The port answers: VIO18 and VCORE are present, and TESTMODE does not hold the part (R657, R670).
DESIGN CHOICE, log entry 42, unsafe. -/
def State.ioPowered (s : State) : Bool := s.timed && !s.pins.testmode

/-- The CRC-8 of SMBus 3.1, x^8 + x^2 + x + 1, over a string of bytes. PRESUMED, log entry 74, unsafe. -/
def crc8 (b : Bytes) : Byte :=
  b.foldl (fun c x => (List.range 8).foldl (fun (c : Byte) _ =>
    if c.getLsbD 7 then (c <<< 1) ^^^ 0x07 else c <<< 1) (c ^^^ x)) 0

/-- PEC of a read of command `code` answered with `b`: over both address bytes, the code, the count of a Block Read
and the data (R670). PRESUMED, log entry 74, unsafe. -/
def State.pec (s : State) (code : Nat) (block : Bool) (b : Bytes) : Byte :=
  let a := 2 * (0x58 + s.smb.addr % 4)
  crc8 (leBytes 1 a ++ leBytes 1 code ++ leBytes 1 (a + 1) ++ (if block then leBytes 1 b.length else []) ++ b)

/-- A read of command `code` answered with `b` and its PEC, which the host may leave unclocked. -/
def State.smbReply (s : State) (code : Nat) (block : Bool) (b : Bytes) : State :=
  if s.ioPowered then s.emit (.smbus b (s.pec code block b)) else s

/-- Bytes of a register word, little-endian. -/
def wordBytes (w : Word) : Bytes := leBytes 4 w.toNat

/-- ID, R671: SYS_ID, SYS_CAP and the serial. -/
def execSmbId (s : State) : Host.Outcome State Fault Refusal :=
  .next (s.smbReply 1 true (wordBytes s.sysId ++ wordBytes s.sysCap ++ fit 16 s.fuses.serial))

/-- TEMP, R671: the hottest junction sensor, `celsius`, as °C + 64, saturating; 0 before the start of R599.
DESIGN CHOICE, log entry 42, unsafe. -/
def execSmbTemp (celsius : Int) (s : State) : Host.Outcome State Fault Refusal :=
  .next (
    let v := if s.pwr.ready then min 255 (max 0 (celsius + 64)).toNat else 0
    ({ s with smb := { s.smb with temp := v } }).smbReply 2 false (leBytes 1 v))

/-- LCS, R671: BUSY as it stands, and the rest as at the latest start. DESIGN CHOICE, log entry 42, unsafe. -/
def execSmbLcs (s : State) : Host.Outcome State Fault Refusal :=
  .next (s.smbReply 3 false (leBytes 1 (128 * bitOf s.lcs.trans.isSome + s.smb.lcs)))

/-- ALARM, R671: TMP_ALARM. -/
def execSmbAlarm (s : State) : Host.Outcome State Fault Refusal := .next (s.smbReply 4 true (leBytes 4 s.alarmMask))

/-- STATUS, R671. -/
def execSmbStatus (s : State) : Host.Outcome State Fault Refusal :=
  .next (s.smbReply 5 false (leBytes 2 (2 ^ 15 * bitOf s.pwr.ready + 2 ^ 12 * s.pwr.st.code + 2 ^ 11 * bitOf s.pwr.pfail
    + 2 ^ 8 * s.response)))

/-- SMBUS_WRITE, R670: the data byte of a write protocol, or an unlisted command code, is not acknowledged. -/
def execSmbusWrite (s : State) : Host.Outcome State Fault Refusal :=
  .next (if s.ioPowered then s.emit .smbusNack else s)

/-- SMBUS_TIMEOUT, R670: the port releases the bus. -/
def execSmbusTimeout (s : State) : Host.Outcome State Fault Refusal :=
  .next (if s.ioPowered then s.emit .smbusRelease else s)

/-! JTAG (R672, R673) -/

/-- An instruction is loaded; what the one before it drove ends. -/
def State.loadIr (s : State) (code : Nat) : State :=
  { s with jtag := { s.jtag with ir := code, driven := false, highZ := false } }

/-- EXTEST, CLAMP and HIGHZ take effect while PERST_N is low only. DEDUCED, log entry 43, unsafe. -/
def State.atReset (s : State) : Bool := !s.pins.perstN

/-- EXTEST, R673: the outputs are driven from the boundary-scan register, and it samples the balls. With PERST_N high it
acts as BYPASS. -/
def execExtest (pins : Bytes) (s : State) : Host.Outcome State Fault Refusal :=
  .next (
    if !s.atReset then s.loadIr 0x3F
    else
      let s := s.loadIr 0x00
      ({ s with jtag := { s.jtag with driven := true, sampled := pins } }).emit (.jtag pins))

/-- The identification code (R672). -/
def idcodeOf (small : Bool) : Nat := if small then 0x13620DB3 else 0x13640DB3

/-- IDCODE, R672. -/
def execIdcode (s : State) : Host.Outcome State Fault Refusal :=
  .next ((s.loadIr 0x01).emit (.jtag (leBytes 4 (idcodeOf s.fuses.small))))

/-- SAMPLE/PRELOAD, R672: the balls are sampled, and the boundary-scan register is loaded. -/
def execSamplePreload (pins data : Bytes) (s : State) : Host.Outcome State Fault Refusal :=
  .next (
    let s := s.loadIr 0x02
    ({ s with jtag := { s.jtag with sampled := pins, boundary := data } }).emit (.jtag pins))

/-- CLAMP, R673: the outputs hold the boundary-scan register's values. -/
def execClamp (s : State) : Host.Outcome State Fault Refusal :=
  .next (
    if !s.atReset then s.loadIr 0x3F
    else { s.loadIr 0x04 with jtag := { (s.loadIr 0x04).jtag with driven := true } })

/-- HIGHZ, R673: the outputs are high-impedance. -/
def execHighz (s : State) : Host.Outcome State Fault Refusal :=
  .next (
    if !s.atReset then s.loadIr 0x3F
    else { s.loadIr 0x05 with jtag := { (s.loadIr 0x05).jtag with highZ := true } })

/-- BYPASS, R672: code 0x3F, and any code the table does not list; under a grant of JTAG_INTERNAL such a code selects
internal chains of halted engines, and in SCRAP further ones (R541). DEDUCED, log entry 43, unsafe. -/
def execBypass (code : Nat) (s : State) : Host.Outcome State Fault Refusal :=
  .next (s.loadIr (
    if s.dbg.active && bitAt s.dbg.rights 5 && (allEngines.any (fun e => (s.engine e).halted) || decide (s.lcs.code = 0xC)) then
      code % 64
    else 0x3F))

end Sys2Proof.Machine
end

