-- ==== Sys2Proof/Machine/Dispatch.lean ====
section
/-! DEFINITION. One arm per command of the opcode table. -/

namespace Sys2Proof.Machine

/-- The effect of a command on everything but the queue. DESIGN CHOICE, log entry 7, safe. -/
def exec (i : Instr) (s : State) : Host.Outcome State Fault Refusal :=
  match i with
  | .doorbellPoll n => Sys2Proof.Machine.execDoorbellPoll n s
  | .nudge offset => Sys2Proof.Machine.execNudge offset s
  | .doorbellReadData n words => Sys2Proof.Machine.execDoorbellReadData n words s
  | .descriptorArrival n q descs => Sys2Proof.Machine.execDescriptorArrival n q descs s
  | .hostAccessFail a c => Sys2Proof.Machine.execHostAccessFail a c s
  | .completionTimeout a => Sys2Proof.Machine.execCompletionTimeout a s
  | .atsInvalidation pasid range => Sys2Proof.Machine.execAtsInvalidation pasid range s
  | .linkDown => Sys2Proof.Machine.execLinkDown s
  | .perstNAssert => Sys2Proof.Machine.execPerstNAssert s
  | .sqErrClear n q => Sys2Proof.Machine.execSqErrClear n q s
  | .cqErrClear n q => Sys2Proof.Machine.execCqErrClear n q s
  | .dbErrClear n => Sys2Proof.Machine.execDbErrClear n s
  | .sqEnable n q v => Sys2Proof.Machine.execSqEnable n q v s
  | .sqDisable n q v => Sys2Proof.Machine.execSqDisable n q v s
  | .cqEnable n q v => Sys2Proof.Machine.execCqEnable n q v s
  | .cqDisable n q v => Sys2Proof.Machine.execCqDisable n q v s
  | .coalesceTimeout n q => Sys2Proof.Machine.execCoalesceTimeout n q s
  | .moderationAge n q => Sys2Proof.Machine.execModerationAge n q s
  | .vectorUnmask v => Sys2Proof.Machine.execVectorUnmask v s
  | .stationTick => Sys2Proof.Machine.execStationTick s
  | .notBeforeReached j => Sys2Proof.Machine.execNotBeforeReached j s
  | .expiryTick j => Sys2Proof.Machine.execExpiryTick j s
  | .accountingWindowStart => Sys2Proof.Machine.execAccountingWindowStart s
  | .scratchAllocated j => Sys2Proof.Machine.execScratchAllocated j s
  | .keyloadDone j blob => Sys2Proof.Machine.execKeyloadDone j blob s
  | .entropyAvailable j => Sys2Proof.Machine.execEntropyAvailable j s
  | .entropyWaitLimit j => Sys2Proof.Machine.execEntropyWaitLimit j s
  | .dispatchDecision e => Sys2Proof.Machine.execDispatchDecision e s
  | .inputStaged j d => Sys2Proof.Machine.execInputStaged j d s
  | .jobStart j k => Sys2Proof.Machine.execJobStart j k s
  | .streamRowArrival e bits => Sys2Proof.Machine.execStreamRowArrival e bits s
  | .hashLend e h => Sys2Proof.Machine.execHashLend e h s
  | .safePointStop e => Sys2Proof.Machine.execSafePointStop e s
  | .saveDone e => Sys2Proof.Machine.execSaveDone e s
  | .runLimit e => Sys2Proof.Machine.execRunLimit e s
  | .watchdog e => Sys2Proof.Machine.execWatchdog e s
  | .jobResult j => Sys2Proof.Machine.execJobResult j s
  | .frostDone j => Sys2Proof.Machine.execFrostDone j s
  | .flowRelease j => Sys2Proof.Machine.execFlowRelease j s
  | .rbEntryFree => Sys2Proof.Machine.execRbEntryFree s
  | .engineFaultDetect e cause bad => Sys2Proof.Machine.execEngineFaultDetect e cause bad s
  | .machineCheck e cause addr bad => Sys2Proof.Machine.execMachineCheck e cause addr bad s
  | .quarantineTestEnd e pass => Sys2Proof.Machine.execQuarantineTestEnd e pass s
  | .retireUnit e criterion => Sys2Proof.Machine.execRetireUnit e criterion s
  | .spareBringIn spare old => Sys2Proof.Machine.execSpareBringIn spare old s
  | .agingSample e margin temp => Sys2Proof.Machine.execAgingSample e margin temp s
  | .engineGate e => Sys2Proof.Machine.execEngineGate e s
  | .thaw e => Sys2Proof.Machine.execThaw e s
  | .thawComplete e => Sys2Proof.Machine.execThawComplete e s
  | .mlKemKeyGeneration j => Sys2Proof.Machine.execMlKemKeyGeneration j s
  | .mlKemDecapsulation j => Sys2Proof.Machine.execMlKemDecapsulation j s
  | .mlKemEncapsulationReferenced j => Sys2Proof.Machine.execMlKemEncapsulationReferenced j s
  | .mlKemEncapsulationInline j => Sys2Proof.Machine.execMlKemEncapsulationInline j s
  | .mlDsaKeyGeneration j => Sys2Proof.Machine.execMlDsaKeyGeneration j s
  | .mlDsaSign j => Sys2Proof.Machine.execMlDsaSign j s
  | .mlDsaVerifyReferenced j => Sys2Proof.Machine.execMlDsaVerifyReferenced j s
  | .mlDsaVerifyInline j => Sys2Proof.Machine.execMlDsaVerifyInline j s
  | .slhDsaKeyGeneration j => Sys2Proof.Machine.execSlhDsaKeyGeneration j s
  | .slhDsaSign j => Sys2Proof.Machine.execSlhDsaSign j s
  | .slhDsaVerifyReferenced j => Sys2Proof.Machine.execSlhDsaVerifyReferenced j s
  | .slhDsaVerifyInline j => Sys2Proof.Machine.execSlhDsaVerifyInline j s
  | .lmsKeyGeneration j => Sys2Proof.Machine.execLmsKeyGeneration j s
  | .lmsSign j => Sys2Proof.Machine.execLmsSign j s
  | .lmsVerifyReferenced j => Sys2Proof.Machine.execLmsVerifyReferenced j s
  | .lmsVerifyInline j => Sys2Proof.Machine.execLmsVerifyInline j s
  | .xmssKeyGeneration j => Sys2Proof.Machine.execXmssKeyGeneration j s
  | .xmssSign j => Sys2Proof.Machine.execXmssSign j s
  | .xmssVerifyReferenced j => Sys2Proof.Machine.execXmssVerifyReferenced j s
  | .xmssVerifyInline j => Sys2Proof.Machine.execXmssVerifyInline j s
  | .traversalBuild j => Sys2Proof.Machine.execTraversalBuild j s
  | .reservationCommitDone r ok => Sys2Proof.Machine.execReservationCommitDone r ok s
  | .firstReservation r ok => Sys2Proof.Machine.execFirstReservation r ok s
  | .hqcKeyGeneration j => Sys2Proof.Machine.execHqcKeyGeneration j s
  | .hqcDecapsulation j => Sys2Proof.Machine.execHqcDecapsulation j s
  | .hqcEncapsulationReferenced j => Sys2Proof.Machine.execHqcEncapsulationReferenced j s
  | .hqcEncapsulationInline j => Sys2Proof.Machine.execHqcEncapsulationInline j s
  | .mcelieceKeyGeneration j => Sys2Proof.Machine.execMcelieceKeyGeneration j s
  | .mcelieceDecapsulation j => Sys2Proof.Machine.execMcelieceDecapsulation j s
  | .mcelieceEncapsulationReferenced j => Sys2Proof.Machine.execMcelieceEncapsulationReferenced j s
  | .mcelieceEncapsulationInline j => Sys2Proof.Machine.execMcelieceEncapsulationInline j s
  | .hybridKemKeyGeneration j => Sys2Proof.Machine.execHybridKemKeyGeneration j s
  | .hybridKemDecapsulation j => Sys2Proof.Machine.execHybridKemDecapsulation j s
  | .hybridKemEncapsulationReferenced j => Sys2Proof.Machine.execHybridKemEncapsulationReferenced j s
  | .hybridKemEncapsulationInline j => Sys2Proof.Machine.execHybridKemEncapsulationInline j s
  | .decapsulationRaw j => Sys2Proof.Machine.execDecapsulationRaw j s
  | .encapsulationRawReferenced j => Sys2Proof.Machine.execEncapsulationRawReferenced j s
  | .encapsulationRawInline j => Sys2Proof.Machine.execEncapsulationRawInline j s
  | .hybridSigKeyGeneration j => Sys2Proof.Machine.execHybridSigKeyGeneration j s
  | .hybridSign j => Sys2Proof.Machine.execHybridSign j s
  | .hybridVerifyReferenced j => Sys2Proof.Machine.execHybridVerifyReferenced j s
  | .hybridVerifyInline j => Sys2Proof.Machine.execHybridVerifyInline j s
  | .eccKeyGeneration j => Sys2Proof.Machine.execEccKeyGeneration j s
  | .eccSign j => Sys2Proof.Machine.execEccSign j s
  | .eccVerifyReferenced j => Sys2Proof.Machine.execEccVerifyReferenced j s
  | .eccVerifyInline j => Sys2Proof.Machine.execEccVerifyInline j s
  | .keyAgreement j => Sys2Proof.Machine.execKeyAgreement j s
  | .rsaKeyGeneration j => Sys2Proof.Machine.execRsaKeyGeneration j s
  | .rsaSignPkcs1V15 j => Sys2Proof.Machine.execRsaSignPkcs1V15 j s
  | .rsaSignPss j => Sys2Proof.Machine.execRsaSignPss j s
  | .rsaVerifyV15Referenced j => Sys2Proof.Machine.execRsaVerifyV15Referenced j s
  | .rsaVerifyPssReferenced j => Sys2Proof.Machine.execRsaVerifyPssReferenced j s
  | .rsaVerifyV15Inline j => Sys2Proof.Machine.execRsaVerifyV15Inline j s
  | .rsaVerifyPssInline j => Sys2Proof.Machine.execRsaVerifyPssInline j s
  | .oaepDecrypt j => Sys2Proof.Machine.execOaepDecrypt j s
  | .gcmEncrypt j => Sys2Proof.Machine.execGcmEncrypt j s
  | .gcmDecrypt j => Sys2Proof.Machine.execGcmDecrypt j s
  | .gmacGenerate j => Sys2Proof.Machine.execGmacGenerate j s
  | .gmacVerify j => Sys2Proof.Machine.execGmacVerify j s
  | .cmacGenerate j => Sys2Proof.Machine.execCmacGenerate j s
  | .cmacVerify j => Sys2Proof.Machine.execCmacVerify j s
  | .ctr j => Sys2Proof.Machine.execCtr j s
  | .kwWrap j => Sys2Proof.Machine.execKwWrap j s
  | .kwUnwrap j => Sys2Proof.Machine.execKwUnwrap j s
  | .kwpWrap j => Sys2Proof.Machine.execKwpWrap j s
  | .kwpUnwrap j => Sys2Proof.Machine.execKwpUnwrap j s
  | .chacha20Poly1305Encrypt j => Sys2Proof.Machine.execChacha20Poly1305Encrypt j s
  | .chacha20Poly1305Decrypt j => Sys2Proof.Machine.execChacha20Poly1305Decrypt j s
  | .sha2Hash j => Sys2Proof.Machine.execSha2Hash j s
  | .sha3Hash j => Sys2Proof.Machine.execSha3Hash j s
  | .xof j => Sys2Proof.Machine.execXof j s
  | .hmacGenerate j => Sys2Proof.Machine.execHmacGenerate j s
  | .hmacVerify j => Sys2Proof.Machine.execHmacVerify j s
  | .kmacGenerate j => Sys2Proof.Machine.execKmacGenerate j s
  | .kmacVerify j => Sys2Proof.Machine.execKmacVerify j s
  | .hkdf j => Sys2Proof.Machine.execHkdf j s
  | .hkdfExpand j => Sys2Proof.Machine.execHkdfExpand j s
  | .sp800108Counter j => Sys2Proof.Machine.execSp800108Counter j s
  | .sp800108Feedback j => Sys2Proof.Machine.execSp800108Feedback j s
  | .sp800108Kmac j => Sys2Proof.Machine.execSp800108Kmac j s
  | .oneStepHash j => Sys2Proof.Machine.execOneStepHash j s
  | .oneStepHmac j => Sys2Proof.Machine.execOneStepHmac j s
  | .oneStepKmac j => Sys2Proof.Machine.execOneStepKmac j s
  | .sessionCreate j => Sys2Proof.Machine.execSessionCreate j s
  | .sessionDestroy j => Sys2Proof.Machine.execSessionDestroy j s
  | .sessionRead j => Sys2Proof.Machine.execSessionRead j s
  | .seal j => Sys2Proof.Machine.execSeal j s
  | .sessionOpen j => Sys2Proof.Machine.execSessionOpen j s
  | .tagGenerate j => Sys2Proof.Machine.execTagGenerate j s
  | .tagVerify j => Sys2Proof.Machine.execTagVerify j s
  | .rekey j => Sys2Proof.Machine.execRekey j s
  | .rngGenerate j => Sys2Proof.Machine.execRngGenerate j s
  | .rngGeneratePr j => Sys2Proof.Machine.execRngGeneratePr j s
  | .rngReseed j => Sys2Proof.Machine.execRngReseed j s
  | .noOp j => Sys2Proof.Machine.execNoOp j s
  | .clearFlags j => Sys2Proof.Machine.execClearFlags j s
  | .generate j => Sys2Proof.Machine.execGenerate j s
  | .importKey j => Sys2Proof.Machine.execImportKey j s
  | .wrap j => Sys2Proof.Machine.execWrap j s
  | .unwrap j => Sys2Proof.Machine.execUnwrap j s
  | .deriveKey j => Sys2Proof.Machine.execDeriveKey j s
  | .rewrap j ok => Sys2Proof.Machine.execRewrap j ok s
  | .destroy j => Sys2Proof.Machine.execDestroy j s
  | .load j => Sys2Proof.Machine.execLoad j s
  | .evict j => Sys2Proof.Machine.execEvict j s
  | .blobStore j => Sys2Proof.Machine.execBlobStore j s
  | .loadList j => Sys2Proof.Machine.execLoadList j s
  | .readingVerify j => Sys2Proof.Machine.execReadingVerify j s
  | .statement j => Sys2Proof.Machine.execStatement j s
  | .identify j => Sys2Proof.Machine.execIdentify j s
  | .logRead j => Sys2Proof.Machine.execLogRead j s
  | .statementCounterCommit ok => Sys2Proof.Machine.execStatementCounterCommit ok s
  | .kernelCall j => Sys2Proof.Machine.execKernelCall j s
  | .vsetl e f => Sys2Proof.Machine.execVsetl e f s
  | .vcfg e f => Sys2Proof.Machine.execVcfg e f s
  | .vsetq e f => Sys2Proof.Machine.execVsetq e f s
  | .sop e f => Sys2Proof.Machine.execSop e f s
  | .smovv e f => Sys2Proof.Machine.execSmovv e f s
  | .smpop e f => Sys2Proof.Machine.execSmpop e f s
  | .mop e f => Sys2Proof.Machine.execMop e f s
  | .vld e f => Sys2Proof.Machine.execVld e f s
  | .vst e f => Sys2Proof.Machine.execVst e f s
  | .vout e f => Sys2Proof.Machine.execVout e f s
  | .vrel e f => Sys2Proof.Machine.execVrel e f s
  | .vadd e f => Sys2Proof.Machine.execVadd e f s
  | .vsub e f => Sys2Proof.Machine.execVsub e f s
  | .vaddm e f => Sys2Proof.Machine.execVaddm e f s
  | .vsubm e f => Sys2Proof.Machine.execVsubm e f s
  | .vmul e f => Sys2Proof.Machine.execVmul e f s
  | .vmulw e f => Sys2Proof.Machine.execVmulw e f s
  | .vmacw e f => Sys2Proof.Machine.execVmacw e f s
  | .vdot e f => Sys2Proof.Machine.execVdot e f s
  | .vmont e f => Sys2Proof.Machine.execVmont e f s
  | .vmulm e f => Sys2Proof.Machine.execVmulm e f s
  | .vmodr e f => Sys2Proof.Machine.execVmodr e f s
  | .vcsub e f => Sys2Proof.Machine.execVcsub e f s
  | .vand e f => Sys2Proof.Machine.execVand e f s
  | .vor e f => Sys2Proof.Machine.execVor e f s
  | .vxor e f => Sys2Proof.Machine.execVxor e f s
  | .vshl e f => Sys2Proof.Machine.execVshl e f s
  | .vshr e f => Sys2Proof.Machine.execVshr e f s
  | .vrotl e f => Sys2Proof.Machine.execVrotl e f s
  | .vmov e f => Sys2Proof.Machine.execVmov e f s
  | .vbfly e f => Sys2Proof.Machine.execVbfly e f s
  | .vexch e f => Sys2Proof.Machine.execVexch e f s
  | .vperm e f => Sys2Proof.Machine.execVperm e f s
  | .vcvt e f => Sys2Proof.Machine.execVcvt e f s
  | .vbitpk e f => Sys2Proof.Machine.execVbitpk e f s
  | .vbitup e f => Sys2Proof.Machine.execVbitup e f s
  | .vcomp e f => Sys2Proof.Machine.execVcomp e f s
  | .vcmp e f => Sys2Proof.Machine.execVcmp e f s
  | .vsel e f => Sys2Proof.Machine.execVsel e f s
  | .vkinit e f => Sys2Proof.Machine.execVkinit e f s
  | .vkabs e f => Sys2Proof.Machine.execVkabs e f s
  | .vksqz e f => Sys2Proof.Machine.execVksqz e f s
  | .vsampu e f => Sys2Proof.Machine.execVsampu e f s
  | .vsampb e f => Sys2Proof.Machine.execVsampb e f s
  | .vsampball e f => Sys2Proof.Machine.execVsampball e f s
  | .vcbd e f => Sys2Proof.Machine.execVcbd e f s
  | .vref e f => Sys2Proof.Machine.execVref e f s
  | .vsand e f => Sys2Proof.Machine.execVsand e f s
  | .va2b e f => Sys2Proof.Machine.execVa2b e f s
  | .vb2a e f => Sys2Proof.Machine.execVb2a e f s
  | .vszero e f => Sys2Proof.Machine.execVszero e f s
  | .vunsh e f => Sys2Proof.Machine.execVunsh e f s
  | .vgather e f => Sys2Proof.Machine.execVgather e f s
  | .vscatter e f => Sys2Proof.Machine.execVscatter e f s
  | .br e f => Sys2Proof.Machine.execBr e f s
  | .call e f => Sys2Proof.Machine.execCall e f s
  | .ret e f => Sys2Proof.Machine.execRet e f s
  | .vend e f => Sys2Proof.Machine.execVend e f s
  | .customerOpcode e opc => Sys2Proof.Machine.execCustomerOpcode e opc s
  | .nop e w => Sys2Proof.Machine.execNop e w s
  | .alu e w => Sys2Proof.Machine.execAlu e w s
  | .alui e w => Sys2Proof.Machine.execAlui e w s
  | .ldi e w => Sys2Proof.Machine.execLdi e w s
  | .fld e w => Sys2Proof.Machine.execFld e w s
  | .srd e w => Sys2Proof.Machine.execSrd e w s
  | .swr e w => Sys2Proof.Machine.execSwr e w s
  | .immf e w => Sys2Proof.Machine.execImmf e w s
  | .microBr e w => Sys2Proof.Machine.execMicroBr e w s
  | .microCall e w => Sys2Proof.Machine.execMicroCall e w s
  | .microRet e w => Sys2Proof.Machine.execMicroRet e w s
  | .microNext e w => Sys2Proof.Machine.execMicroNext e w s
  | .kjmp e w => Sys2Proof.Machine.execKjmp e w s
  | .kpush e w => Sys2Proof.Machine.execKpush e w s
  | .kpop e w => Sys2Proof.Machine.execKpop e w s
  | .vissue e w => Sys2Proof.Machine.execVissue e w s
  | .vwait e w => Sys2Proof.Machine.execVwait e w s
  | .rowmv e w => Sys2Proof.Machine.execRowmv e w s
  | .port e w elem => Sys2Proof.Machine.execPort e w elem s
  | .kcore e w => Sys2Proof.Machine.execKcore e w s
  | .shmap e w => Sys2Proof.Machine.execShmap e w s
  | .chk e w => Sys2Proof.Machine.execChk e w s
  | .microFault e w => Sys2Proof.Machine.execMicroFault e w s
  | .poll e w => Sys2Proof.Machine.execPoll e w s
  | .jend e w => Sys2Proof.Machine.execJend e w s
  | .modw e w => Sys2Proof.Machine.execModw e w s
  | .ostr e w => Sys2Proof.Machine.execOstr e w s
  | .install data ok now => Sys2Proof.Machine.execInstall data ok now s
  | .removePackage => Sys2Proof.Machine.execRemovePackage s
  | .store steps ok => Sys2Proof.Machine.execStore steps ok s
  | .defaults now => Sys2Proof.Machine.execDefaults now s
  | .rwcWrite off v => Sys2Proof.Machine.execRwcWrite off v s
  | .check => Sys2Proof.Machine.execCheck s
  | .applyNow => Sys2Proof.Machine.execApplyNow s
  | .applyAt => Sys2Proof.Machine.execApplyAt s
  | .discard => Sys2Proof.Machine.execDiscard s
  | .commitInstant => Sys2Proof.Machine.execCommitInstant s
  | .transition steps ok => Sys2Proof.Machine.execTransition steps ok s
  | .installCodeKey data ok now => Sys2Proof.Machine.execInstallCodeKey data ok now s
  | .installDebugKey data ok now => Sys2Proof.Machine.execInstallDebugKey data ok now s
  | .newChallenge => Sys2Proof.Machine.execNewChallenge s
  | .present => Sys2Proof.Machine.execPresent s
  | .revoke => Sys2Proof.Machine.execRevoke s
  | .challengeExpiry => Sys2Proof.Machine.execChallengeExpiry s
  | .grantExpiry => Sys2Proof.Machine.execGrantExpiry s
  | .halt => Sys2Proof.Machine.execHalt s
  | .release => Sys2Proof.Machine.execRelease s
  | .dbgStep => Sys2Proof.Machine.execDbgStep s
  | .spare spare => Sys2Proof.Machine.execSpare spare s
  | .traceOn => Sys2Proof.Machine.execTraceOn s
  | .traceOff => Sys2Proof.Machine.execTraceOff s
  | .inject => Sys2Proof.Machine.execInject s
  | .dbgWinDataRead => Sys2Proof.Machine.execDbgWinDataRead s
  | .monitorTrip m count scope steps => Sys2Proof.Machine.execMonitorTrip m count scope steps s
  | .shadowWindowExpiry off => Sys2Proof.Machine.execShadowWindowExpiry off s
  | .clear holding => Sys2Proof.Machine.execClear holding s
  | .test empty => Sys2Proof.Machine.execTest empty s
  | .stimulusTestEnd pass => Sys2Proof.Machine.execStimulusTestEnd pass s
  | .periodicSelftest => Sys2Proof.Machine.execPeriodicSelftest s
  | .monCfgWrite m => Sys2Proof.Machine.execMonCfgWrite m s
  | .winterTrip m count => Sys2Proof.Machine.execWinterTrip m count s
  | .installAuthority data ok now => Sys2Proof.Machine.execInstallAuthority data ok now s
  | .loadTariff data ok now => Sys2Proof.Machine.execLoadTariff data ok now s
  | .separate ok now => Sys2Proof.Machine.execSeparate ok now s
  | .clearGrant => Sys2Proof.Machine.execClearGrant s
  | .clearToken len => Sys2Proof.Machine.execClearToken len s
  | .journalLookup hi => Sys2Proof.Machine.execJournalLookup hi s
  | .snapSetWrite off v => Sys2Proof.Machine.execSnapSetWrite off v s
  | .eventRecord code slice engine detail => Sys2Proof.Machine.execEventRecord code slice engine detail s
  | .aggregatorWindowClose unit cause => Sys2Proof.Machine.execAggregatorWindowClose unit cause s
  | .heldRecordRelease => Sys2Proof.Machine.execHeldRecordRelease s
  | .summary code => Sys2Proof.Machine.execSummary code s
  | .commitGroup ok => Sys2Proof.Machine.execCommitGroup ok s
  | .sysReset v => Sys2Proof.Machine.execSysReset v s
  | .badAccess off write => Sys2Proof.Machine.execBadAccess off write s
  | .registerWrite off v => Sys2Proof.Machine.execRegisterWrite off v s
  | .activate n => Sys2Proof.Machine.execActivate n s
  | .quiesce n => Sys2Proof.Machine.execQuiesce n s
  | .quiesceLimit n => Sys2Proof.Machine.execQuiesceLimit n s
  | .quiesced n => Sys2Proof.Machine.execQuiesced n s
  | .resume n => Sys2Proof.Machine.execResume n s
  | .reset n => Sys2Proof.Machine.execReset n s
  | .remove n => Sys2Proof.Machine.execRemove n s
  | .scrubDone n => Sys2Proof.Machine.execScrubDone n s
  | .healthFail src cause startup => Sys2Proof.Machine.execHealthFail src cause startup s
  | .noSamples src => Sys2Proof.Machine.execNoSamples src s
  | .blockReady => Sys2Proof.Machine.execBlockReady s
  | .reseedBackground inst => Sys2Proof.Machine.execReseedBackground inst s
  | .reseedDue inst => Sys2Proof.Machine.execReseedDue inst s
  | .retest src cause => Sys2Proof.Machine.execRetest src cause s
  | .standbyRetest src cause => Sys2Proof.Machine.execStandbyRetest src cause s
  | .rootGeneration => Sys2Proof.Machine.execRootGeneration s
  | .ovwDone ms => Sys2Proof.Machine.execOvwDone ms s
  | .patrolScrub ch corrected bad => Sys2Proof.Machine.execPatrolScrub ch corrected bad s
  | .ppsEdge => Sys2Proof.Machine.execPpsEdge s
  | .timeLoad hi => Sys2Proof.Machine.execTimeLoad hi s
  | .loadExpired => Sys2Proof.Machine.execLoadExpired s
  | .holdoverEntry => Sys2Proof.Machine.execHoldoverEntry s
  | .anchorWrite => Sys2Proof.Machine.execAnchorWrite s
  | .tsyncPulse => Sys2Proof.Machine.execTsyncPulse s
  | .xtalRc rc => Sys2Proof.Machine.execXtalRc rc s
  | .sleepEntry d3hot => Sys2Proof.Machine.execSleepEntry d3hot s
  | .wake => Sys2Proof.Machine.execWake s
  | .pfailFall width taken => Sys2Proof.Machine.execPfailFall width taken s
  | .pfailRise => Sys2Proof.Machine.execPfailRise s
  | .mainPowerLoss torn => Sys2Proof.Machine.execMainPowerLoss torn s
  | .aonChangeover vbat => Sys2Proof.Machine.execAonChangeover vbat s
  | .coldStart d => Sys2Proof.Machine.execColdStart d s
  | .smbId => Sys2Proof.Machine.execSmbId s
  | .smbTemp celsius => Sys2Proof.Machine.execSmbTemp celsius s
  | .smbLcs => Sys2Proof.Machine.execSmbLcs s
  | .smbAlarm => Sys2Proof.Machine.execSmbAlarm s
  | .smbStatus => Sys2Proof.Machine.execSmbStatus s
  | .smbusWrite => Sys2Proof.Machine.execSmbusWrite s
  | .smbusTimeout => Sys2Proof.Machine.execSmbusTimeout s
  | .extest pins => Sys2Proof.Machine.execExtest pins s
  | .idcode => Sys2Proof.Machine.execIdcode s
  | .samplePreload pins data => Sys2Proof.Machine.execSamplePreload pins data s
  | .clamp => Sys2Proof.Machine.execClamp s
  | .highz => Sys2Proof.Machine.execHighz s
  | .bypass code => Sys2Proof.Machine.execBypass code s
  | .internalFlagSet j k => Sys2Proof.Machine.execInternalFlagSet j k s
  | .overwriteReachesGroup g => Sys2Proof.Machine.execOverwriteReachesGroup g s
  | .poolLow e => Sys2Proof.Machine.execPoolLow e s
  | .monitorRearm m => Sys2Proof.Machine.execMonitorRearm m s
  | .aonDomainLost => Sys2Proof.Machine.execAonDomainLost s
  | .phaseSlewEnd => Sys2Proof.Machine.execPhaseSlewEnd s
  | .nameLoRead off => Sys2Proof.Machine.execNameLoRead off s

end Sys2Proof.Machine
end

