-- ==== Sys2Proof/Machine/Step.lean ====
section
/-! DEFINITION. One step of the block: the command at the front of the queue, or one idle cycle. -/

namespace Sys2Proof.Machine

/-- One step: the front command with the queue's rest; on an empty queue one idle cycle, in which only what the part does
of itself at its station time is carried out (log entry 5). DESIGN CHOICE, log entry 4, unsafe. -/
def step (s : State) : Host.Outcome State Fault Refusal :=
  match s.pending with
  | [] => .next s.cycle
  | c :: rest => exec c { s with pending := rest }

/-- `s` with the command that the word spells put at the front of its queue. The opcode table gives no row any bits,
so no word spells a command. DESIGN CHOICE, log entry 6, safe. -/
def State.withFetchWord (s : State) (nbits w : Nat) : State :=
  match Sys2Proof.decodeTableWord nbits w with
  | some c => { s with pending := c :: s.pending }
  | none => s

end Sys2Proof.Machine
end

