-- ==== Sys2Proof/WellFormed.lean ====
section
/-! DEFINITION. Which commands are well formed: their operands name things the part has (R41, R64, R68, R88, R286,
R300). A command that is not well formed spells nothing of the part; `exec` is total and answers it all the same. -/

namespace Sys2Proof

open Sys2Proof.Machine

/-- A slice: 1 to 64, or 127, the metrology slice (R68). -/
def sliceOk (n : Nat) : Bool := decide (1 ≤ n) && decide (n ≤ 64) || decide (n = 127)

/-- A queue of a slice (R64): SQ and CQ 0 to 15. -/
def queueOk (q : Nat) : Bool := decide (q < 16)

/-- A physical engine (R41). -/
def engineOk (e : Nat) : Bool := decide (e < 71)

/-- A physical vector engine (R41). -/
def vceOk (e : Nat) : Bool := decide (e < 34)

/-- A physical hash engine (R41). -/
def hashOk (e : Nat) : Bool := decide (34 ≤ e) && decide (e < 52)

/-- An aligned offset of BAR0; of BAR4 from 0x4000000, BAR2 from 0x5000000 and configuration space from 0x6000000 on
(R18, R53, R654). -/
def offsetOk (off : Nat) : Bool := decide (off % 4 = 0) && decide (off < 0x6001000)

/-- An offset of the nudge windows (R68). -/
def nudgeOk (off : Nat) : Bool := decide (off < 2 ^ 18)

/-- A tamper monitor (R546). -/
def monitorOk (m : Nat) : Bool := decide (m < 20)

/-- An entropy source (R459). -/
def sourceOk (n : Nat) : Bool := decide (n < 4)

/-- A descriptor has 16 words (R88). -/
def descOk (d : FetchedDesc) : Bool := decide (d.words.length = 16)

/-- An access names a slice and a queue of the part. -/
def accessOk : Access → Bool
  | .jobPart _ _ => true
  | .descriptor n q => sliceOk n && queueOk q
  | .doorbell n => sliceOk n
  | .completion n q _ => sliceOk n && queueOk q

/-- What a start finds is possible (R405, R472). -/
def startOk (d : StartData) : Bool :=
  decide (d.chA.ranks ≤ 2) && decide (d.chB.ranks ≤ 2) && d.startup.all fun c => decide (1 ≤ c) && decide (c ≤ 3)

/-- The command is well formed. -/
def Instr.wf : Instr → Bool
  | .doorbellPoll n | .dbErrClear n | .activate n | .quiesce n | .quiesceLimit n | .quiesced n | .resume n
  | .reset n | .remove n | .scrubDone n => sliceOk n
  | .nudge offset => nudgeOk offset
  | .doorbellReadData n words => sliceOk n && decide (words.length = 32)
  | .descriptorArrival n q descs => sliceOk n && queueOk q && descs.all descOk
  | .hostAccessFail a _ | .completionTimeout a => accessOk a
  | .atsInvalidation pasid range => decide (pasid ≤ 2 ^ 20) && decide (range.page + range.pages ≤ 2 ^ 52)
  | .sqErrClear n q | .cqErrClear n q | .sqEnable n q _ | .sqDisable n q _ | .cqEnable n q _ | .cqDisable n q _
  | .coalesceTimeout n q | .moderationAge n q => sliceOk n && queueOk q
  | .vectorUnmask v => decide (v < 2048)
  | .dispatchDecision e | .saveDone e | .runLimit e | .watchdog e | .quarantineTestEnd e _
  | .engineGate e | .thaw e | .poolLow e => engineOk e
  | .thawComplete t => engineOk t.unit && t.margins.all (fun m => decide (m < 256)) && decide (t.temp < 256)
  | .safePointStop p => engineOk p.unit
  | .engineFaultDetect e cause bad =>
    engineOk e && decide (1 ≤ cause) && decide (cause ≤ 15) && bad.all fun k => decide (k < 2)
  | .machineCheck e cause addr bad =>
    vceOk e && decide (4 ≤ cause) && decide (cause ≤ 6) && decide (addr < 2 ^ 15) && bad.all fun k => decide (k < 2)
  | .retireUnit e criterion => engineOk e && decide (1 ≤ criterion) && decide (criterion ≤ 4)
  | .spareBringIn sp old => engineOk sp && engineOk old
  | .agingSample e margin temp => engineOk e && margin.all (fun m => decide (m < 256)) && decide (temp < 256)
  | .spare sp => engineOk sp
  | .streamRowArrival e _ => vceOk e
  | .hashLend e h => vceOk e && hashOk h
  | .vsetl e _ | .vcfg e _ | .vsetq e _ | .sop e _ | .smovv e _ | .smpop e _ | .mop e _ | .vld e _ | .vst e _
  | .vout e _ | .vrel e _ | .vadd e _ | .vsub e _ | .vaddm e _ | .vsubm e _ | .vmul e _ | .vmulw e _ | .vmacw e _
  | .vdot e _ | .vmont e _ | .vmulm e _ | .vmodr e _ | .vcsub e _ | .vand e _ | .vor e _ | .vxor e _ | .vshl e _
  | .vshr e _ | .vrotl e _ | .vmov e _ | .vbfly e _ | .vexch e _ | .vperm e _ | .vcvt e _ | .vbitpk e _
  | .vbitup e _ | .vcomp e _ | .vcmp e _ | .vsel e _ | .vkinit e _ | .vkabs e _ | .vksqz e _ | .vsampu e _
  | .vsampb e _ | .vsampball e _ | .vcbd e _ | .vref e _ | .vsand e _ | .va2b e _ | .vb2a e _ | .vszero e _
  | .vunsh e _ | .vgather e _ | .vscatter e _ | .br e _ | .call e _ | .ret e _ | .vend e _ | .nop e _ | .alu e _
  | .alui e _ | .ldi e _ | .fld e _ | .srd e _ | .swr e _ | .immf e _ | .microBr e _ | .microCall e _
  | .microRet e _ | .microNext e _ | .kjmp e _ | .kpush e _ | .kpop e _ | .vissue e _ | .vwait e _ | .rowmv e _
  | .kcore e _ | .shmap e _ | .chk e _ | .microFault e _ | .poll e _ | .jend e _ | .modw e _ | .ostr e _ => vceOk e
  | .port e _ elem => vceOk e && decide (elem < 2 ^ 36)
  | .customerOpcode e opc => vceOk e && decide (opc < 256) && !listedOpcode opc
  | .reservationCommitDone r _ | .firstReservation r _ => decide (r < 4096)
  | .rwcWrite off _ | .shadowWindowExpiry off | .snapSetWrite off _ | .registerWrite off _ | .nameLoRead off
    => offsetOk off
  | .badAccess off _ => decide (off < 2 ^ 26)
  | .monitorTrip m _ _ _ | .monCfgWrite m => monitorOk m
  | .winterTrip m _ | .monitorRearm m => decide (m < 10)
  | .clearToken len => decide (len ≤ 4096)
  | .eventRecord _ _ engine detail => decide (engine < 256) && decide (detail.length ≤ 16)
  | .aggregatorWindowClose unit cause => decide (unit < 2 ^ 12) && decide (cause < 256)
  | .summary code => decide (code < 2 ^ 16)
  | .healthFail src cause _ => sourceOk src && (decide (cause = 1) || decide (cause = 2))
  | .noSamples src => sourceOk src
  | .retest src cause | .standbyRetest src cause => sourceOk src && decide (cause ≤ 3)
  | .reseedBackground inst | .reseedDue inst => decide (inst < 6) || (decide (256 ≤ inst) && sliceOk (inst - 256))
  | .patrolScrub ch _ _ => decide (ch < 2)
  | .smbTemp celsius => decide (-128 ≤ celsius) && decide (celsius < 128)
  | .bypass code => decide (code < 64)
  | .coldStart d => startOk d
  | .linkDown | .perstNAssert | .stationTick | .notBeforeReached _ | .expiryTick _ | .accountingWindowStart
  | .scratchAllocated _ | .keyloadDone _ _ | .entropyAvailable _ | .entropyWaitLimit _ | .inputStaged _ _
  | .jobStart _ _ | .jobResult _ | .frostDone _ | .flowRelease _ | .rbEntryFree | .mlKemKeyGeneration _
  | .mlKemDecapsulation _ | .mlKemEncapsulationReferenced _ | .mlKemEncapsulationInline _ | .mlDsaKeyGeneration _
  | .mlDsaSign _ | .mlDsaVerifyReferenced _ | .mlDsaVerifyInline _ | .slhDsaKeyGeneration _ | .slhDsaSign _
  | .slhDsaVerifyReferenced _ | .slhDsaVerifyInline _ | .lmsKeyGeneration _ | .lmsSign _ | .lmsVerifyReferenced _
  | .lmsVerifyInline _ | .xmssKeyGeneration _ | .xmssSign _ | .xmssVerifyReferenced _ | .xmssVerifyInline _
  | .traversalBuild _ | .hqcKeyGeneration _ | .hqcDecapsulation _ | .hqcEncapsulationReferenced _
  | .hqcEncapsulationInline _ | .mcelieceKeyGeneration _ | .mcelieceDecapsulation _
  | .mcelieceEncapsulationReferenced _ | .mcelieceEncapsulationInline _ | .hybridKemKeyGeneration _
  | .hybridKemDecapsulation _ | .hybridKemEncapsulationReferenced _ | .hybridKemEncapsulationInline _
  | .decapsulationRaw _ | .encapsulationRawReferenced _ | .encapsulationRawInline _ | .hybridSigKeyGeneration _
  | .hybridSign _ | .hybridVerifyReferenced _ | .hybridVerifyInline _ | .eccKeyGeneration _ | .eccSign _
  | .eccVerifyReferenced _ | .eccVerifyInline _ | .keyAgreement _ | .rsaKeyGeneration _ | .rsaSignPkcs1V15 _
  | .rsaSignPss _ | .rsaVerifyV15Referenced _ | .rsaVerifyPssReferenced _ | .rsaVerifyV15Inline _
  | .rsaVerifyPssInline _ | .oaepDecrypt _ | .gcmEncrypt _ | .gcmDecrypt _ | .gmacGenerate _ | .gmacVerify _
  | .cmacGenerate _ | .cmacVerify _ | .ctr _ | .kwWrap _ | .kwUnwrap _ | .kwpWrap _ | .kwpUnwrap _
  | .chacha20Poly1305Encrypt _ | .chacha20Poly1305Decrypt _ | .sha2Hash _ | .sha3Hash _ | .xof _ | .hmacGenerate _
  | .hmacVerify _ | .kmacGenerate _ | .kmacVerify _ | .hkdf _ | .hkdfExpand _ | .sp800108Counter _
  | .sp800108Feedback _ | .sp800108Kmac _ | .oneStepHash _ | .oneStepHmac _ | .oneStepKmac _ | .sessionCreate _
  | .sessionDestroy _ | .sessionRead _ | .seal _ | .sessionOpen _ | .tagGenerate _ | .tagVerify _ | .rekey _
  | .rngGenerate _ | .rngGeneratePr _ | .rngReseed _ | .noOp _ | .clearFlags _ | .generate _ | .importKey _
  | .wrap _ | .unwrap _ | .deriveKey _ | .rewrap _ _ | .destroy _ | .load _ | .evict _ | .blobStore _ | .loadList _
  | .readingVerify _ | .statement _ | .identify _ | .logRead _ | .statementCounterCommit _ | .kernelCall _
  | .install _ _ _ | .removePackage | .store _ _ | .defaults _ | .check | .applyNow | .applyAt | .discard
  | .commitInstant | .transition _ _ | .installCodeKey _ _ _ | .installDebugKey _ _ _ | .newChallenge | .present
  | .revoke | .challengeExpiry | .grantExpiry | .halt | .release | .dbgStep | .traceOn | .traceOff | .inject
  | .dbgWinDataRead | .clear _ | .test _ | .stimulusTestEnd _ | .periodicSelftest | .installAuthority _ _ _
  | .loadTariff _ _ _ | .separate _ _ | .clearGrant | .journalLookup _ | .heldRecordRelease | .commitGroup _
  | .sysReset _ | .blockReady | .rootGeneration | .ovwDone _ | .ppsEdge | .timeLoad _ | .loadExpired
  | .holdoverEntry | .anchorWrite | .tsyncPulse | .xtalRc _ | .sleepEntry _ | .wake | .pfailFall _ _ | .pfailRise
  | .mainPowerLoss _ | .aonChangeover _ | .smbId | .smbLcs | .smbAlarm | .smbStatus | .smbusWrite | .smbusTimeout
  | .extest _ | .idcode | .samplePreload _ _ | .clamp | .highz | .internalFlagSet _ _ | .overwriteReachesGroup _
  | .aonDomainLost | .phaseSlewEnd => true

end Sys2Proof
end

