-- ==== Sys2Proof/Safety.lean ====
section
/-! DEFINITION. The terms in which claims about the part are made: when a command finds what its rule asks for, what one
command may change, and what a run keeps. -/

namespace Sys2Proof.Machine

/-! What a run keeps -/

/-- The state is in its form: context memory canonical, the entropy pool within its size, job numbers handed out once,
the sub-counters of time within their widths, and every indexed component in rising order of its index. -/
structure State.Good (s : State) : Prop where
  cells   : mapWf 0 s.cmc.cells = true
  pool    : s.rng.pool.length ≤ 16
  jobs    : keysRise s.sch.jobs = true
  numbers : ∀ e ∈ s.sch.jobs, e.1 < s.sch.nextJob
  frac    : s.tim.frac < 2 ^ 32
  opNs    : s.pwr.opNs < 1000000000
  counter : s.aon.counter < 2 ^ 48
  regs    : keysRise s.regs = true
  slices  : keysRise s.slices = true
  engines : keysRise s.engines = true
  vces    : keysRise s.vces = true
  slots   : keysRise s.kmg.slots = true
  sess    : keysRise s.kmg.sessions = true
  stf     : keysRise s.kmg.stf = true
  epochs  : keysRise s.kmg.epochs = true
  mons    : keysRise s.tmp.mons = true
  msix    : keysRise s.hif.msix = true

/-- From `r` the part has come to `s`: the part type and the queue are untouched, what it has sent outward, drawn,
counted and programmed once only grows, and the form of the state is kept. -/
structure Onward (r s : State) : Prop where
  fuses   : s.fuses = r.fuses
  pending : s.pending = r.pending
  out     : r.out <+: s.out
  free    : r.freeCtr ≤ s.freeCtr
  elapsed : r.tim.elapsed ≤ s.tim.elapsed
  op      : r.pwr.opSec * 1000000000 + r.pwr.opNs ≤ s.pwr.opSec * 1000000000 + s.pwr.opNs
  words   : r.lcs.words <+: s.lcs.words
  highest : ∀ t, mapGet 0 r.code.highest t ≤ mapGet 0 s.code.highest t
  sepFuse : r.mp.sepFuse = true → s.mp.sepFuse = true
  good    : r.Good → s.Good

/-! Kernels -/

/-- Engine `e` runs the kernel of job `j`, held as `x`, its run limit is not spent, and the word at its KPC, and with
`long` the word after it, lies in the range of its kernel (R345, R346, R353). -/
structure State.RunsKernel (s : State) (e j : Nat) (x : Job) (long : Bool) : Prop where
  running : s.kernelOn e = some (j, x)
  limit   : s.limitReached e (s.vce e) = false
  word    : (s.vce e).inRange s.mpInService (s.vce e).kpc = true
  next    : long = true → (s.vce e).inRange s.mpInService ((s.vce e).kpc + 1) = true

/-- As far as the kernel stores are known, the words at the KPC of engine `e` are the instruction of opcode `op` with the
fields `f`, and with `long` its immediate (R299). -/
def State.atWord (s : State) (e op : Nat) (f : VFields) (long : Bool) : Bool :=
  s.wordIs (s.vce e).kpc (kernelWordOf op f) && (!long || s.wordIs ((s.vce e).kpc + 1) f.imm)

/-- The engine when it has taken the word at KPC, and with `long` the word after it, at the safe point that this is
(R366, R372). -/
def Vce.fetched (v : Vce) (long : Bool) : Vce :=
  { v with kaddr := v.kpc, kpc := v.kpc + 1 + bitOf long, wd := 0, safe := true, waiting := false }

/-- The words of the mask stream that `u` has drawn since `v` pass the generator's test (R269). -/
def Vce.streamGood (v u : Vce) : Bool := u.seed.isNone || !u.streamRepeats v.used u.used

/-- The sequencer of engine `e` is at the micro-operation of major opcode `major` and format bits `w`, at address `a` or
patched to it: in the control stores it is that word, of good parity (R360, R363, R369). -/
def State.microAt (s : State) (e major : Nat) (w : BitVec 30) (a : Nat) : Prop :=
  s.patched (s.vce e).upc = some a ∧
    (0x4000 ≤ a → parityOk (s.controlWord a) = true ∧ majorOf (s.controlWord a) = major ∧ formatOf (s.controlWord a) = w)

/-- No register of `cnt` from `base` belongs to a share set. -/
def Vce.isPublic (v : Vce) (base cnt : Nat) : Bool := (List.range cnt).all fun i => !v.isShared (base + i)

/-! Registers -/

/-- The part takes a BAR0 write at the offset: it is READY, not in LOST or SCRAP or the write is one of R532, the slice of
the offset exists, and the partition is in service for a write to MP (R501, R520, R532, R600). -/
structure State.Takes (s : State) (off : Nat) : Prop where
  up    : s.pwr.ready = true
  alive : s.ended = true → s.endedWrites off = true
  slice : ∀ n, sliceOfOffset off = some n → s.present n = true
  mp    : 0xB0000 ≤ off → off < 0xC0000 → s.mpInService = true

/-! Jobs -/

/-- Job `j`, held as `x`, is of operation `op` of family `fam`; the last step of its plan runs, its engine computes, and it
has no result yet (R201, R220). -/
structure State.Ends (s : State) (j fam op : Nat) (x : Job) : Prop where
  at_ : s.atEnd j = some x
  fam : x.desc.fam = fam
  op  : x.desc.op = op

end Sys2Proof.Machine
end

