-- ==== Sys2Proof/Certificates/Slice0/Obligations.lean ====
section
/-! DEFINITION. The statements for the provers: what the commands of the part do, as the manual's rules give it. -/

open Sys2Proof Sys2Proof.Machine

/-! The step, the state after reset, and what every step keeps -/

/-- With command c at the front of the queue a step is exec of c on the state whose queue is the rest; with an empty
queue a step is one cycle of the clock that runs. The queue and the idle cycle are the model's own (log entries 4
and 5). (R605, R599) -/
def Obligations.StepTakesTheFront : Prop :=
  (∀ (s : State) (c : Instr) (rest : List Instr), s.pending = c :: rest → step s = exec c { s with pending := rest }) ∧
  ∀ s : State, s.pending = [] → step s = .next s.cycle

/-- The state after reset is in its form; it is a TRL3640 that leaves production test, without power, held in reset
and not READY, its queue is empty, every register holds its reset value, and every BAR0 word but PWR_STATUS reads
0. (R524, R599, R600) -/
def Obligations.ResetIsGood : Prop :=
  State.reset.Good ∧ State.reset.pending = [] ∧ State.reset.pwr.inReset = true ∧ State.reset.up = false ∧
    State.reset.lcs.words = [0xCCCCCCCC33333333] ∧ (∀ r : Reg, State.reset.reg r = r.reset) ∧
    ∀ off, off ≠ 0x10000 → State.reset.bar0 off = 0

/-- In every state, reached or not, a step that answers a next state keeps the form of the state: context memory
canonical, the entropy pool within 16 blocks, job numbers handed out once and in rising order, the sub-counters of
time within their widths, and every indexed component in rising order of its index. (R20, R196, R410, R465, R605,
R665) -/
def Obligations.StepKeepsGood : Prop :=
  ∀ s t : State, s.Good → step s = .next t → t.Good

/-- In every state, a step that answers a next state takes exactly the front of the queue, leaves the fuses as they
are, and only adds to what the part has sent, to the programmed life-cycle words, to elapsed and operating time,
to the highest package version of each type, and to the free values drawn; a programmed separation fuse stays
programmed. (R386, R522, R524, R529, R605, R612) -/
def Obligations.StepOnward : Prop :=
  ∀ s t : State, step s = .next t →
    t.fuses = s.fuses ∧ t.pending = s.pending.tail ∧ s.out <+: t.out ∧ s.lcs.words <+: t.lcs.words ∧
      s.tim.elapsed ≤ t.tim.elapsed ∧ s.freeCtr ≤ t.freeCtr ∧
      s.pwr.opSec * 1000000000 + s.pwr.opNs ≤ t.pwr.opSec * 1000000000 + t.pwr.opNs ∧
      (∀ k, mapGet 0 s.code.highest k ≤ mapGet 0 t.code.highest k) ∧ (s.mp.sepFuse = true → t.mp.sepFuse = true)

/-! Kernels of the VCEs (chapter 07) -/

/-- A row of the tables of chapter 07 whose effect lies in the engine: its opcode and command, whether a long immediate
follows, the fault its operands raise, and its effect. -/
structure KernelRow where
  opc   : Nat
  cmd   : Nat → VFields → Instr
  long  : VFields → Bool := fun _ => false
  fault : State → Vce → VFields → Option Nat
  eff   : Vce → VFields → Vce

/-- The rows of R308 to R329 and of R343 whose effect lies in the engine. -/
def kernelRows : List KernelRow :=
  [⟨0x01, .vsetl, fun f => f.vs1 = 0, fun _ => vsetlFault, vsetlDo⟩, ⟨0x02, .vcfg, fun _ => false, fun _ => vcfgFault, vcfgDo⟩,
   ⟨0x03, .vsetq, fun f => f.vs1 = 0, fun _ => vsetqFault, vsetqDo⟩, ⟨0x08, .sop, fun f => fn f 4 4 = 1, fun _ => sopFault, sopDo⟩,
   ⟨0x09, .smovv, fun _ => false, fun _ => smovvFault, smovvDo⟩, ⟨0x0A, .smpop, fun _ => false, fun _ => smpopFault, smpopDo⟩,
   ⟨0x42, .mop, fun _ => false, fun _ => mopFault, mopDo⟩, ⟨0x11, .vst, fun _ => false, fun _ => vstFault, vstDo⟩,
   ⟨0x13, .vrel, fun _ => false, fun _ => vrelFault, vrelDo⟩, ⟨0x20, .vadd, fun _ => false, fun _ => vaddFault, vaddDo⟩,
   ⟨0x21, .vsub, fun _ => false, fun _ => vsubFault, vsubDo⟩, ⟨0x22, .vaddm, fun _ => false, fun _ => vaddmFault, vaddmDo⟩,
   ⟨0x23, .vsubm, fun _ => false, fun _ => vsubmFault, vsubmDo⟩, ⟨0x24, .vmul, fun _ => false, fun _ => vmulFault, vmulDo⟩] ++
  [⟨0x25, .vmulw, fun _ => false, fun _ => vmulwFault, vmulwDo⟩, ⟨0x26, .vmacw, fun _ => false, fun _ => vmacwFault, vmacwDo⟩,
   ⟨0x27, .vdot, fun _ => false, fun _ => vdotFault, vdotDo⟩, ⟨0x28, .vmont, fun _ => false, fun _ => vmontFault, vmontDo⟩,
   ⟨0x29, .vmulm, fun _ => false, fun _ => vmulmFault, vmulmDo⟩, ⟨0x2A, .vmodr, fun _ => false, fun _ => vmodrFault, vmodrDo⟩,
   ⟨0x2B, .vcsub, fun _ => false, fun _ => vcsubFault, vcsubDo⟩, ⟨0x2C, .vand, fun _ => false, fun _ => vandFault, vandDo⟩,
   ⟨0x2D, .vor, fun _ => false, fun _ => vorFault, vorDo⟩, ⟨0x2E, .vxor, fun _ => false, fun _ => vxorFault, vxorDo⟩,
   ⟨0x30, .vshl, fun _ => false, fun _ => vshlFault, vshlDo⟩, ⟨0x31, .vshr, fun _ => false, fun _ => vshrFault, vshrDo⟩,
   ⟨0x32, .vrotl, fun _ => false, fun _ => vrotlFault, vrotlDo⟩, ⟨0x38, .vmov, fun _ => false, fun _ => vmovFault, vmovDo⟩] ++
  [⟨0x34, .vbfly, fun _ => false, fun _ => vbflyFault, vbflyDo⟩, ⟨0x35, .vexch, fun _ => false, fun _ => vexchFault, vexchDo⟩,
   ⟨0x36, .vperm, fun _ => false, fun _ => vpermFault, vpermDo⟩, ⟨0x3C, .vcvt, fun _ => false, fun _ => vcvtFault, vcvtDo⟩,
   ⟨0x3D, .vbitpk, fun _ => false, fun _ => vbitpkFault, vbitpkDo⟩, ⟨0x3E, .vbitup, fun _ => false, fun _ => vbitupFault, vbitupDo⟩,
   ⟨0x3F, .vcomp, fun _ => false, fun _ => vcompFault, vcompDo⟩, ⟨0x40, .vcmp, fun _ => false, fun _ => vcmpFault, vcmpDo⟩,
   ⟨0x41, .vsel, fun _ => false, fun _ => vselFault, vselDo⟩, ⟨0x50, .vkinit, fun _ => false, fun _ => vkinitFault, vkinitDo⟩,
   ⟨0x51, .vkabs, fun _ => false, fun _ => vkabsFault, vkabsDo⟩, ⟨0x52, .vksqz, fun _ => false, fun _ => vksqzFault, vksqzDo⟩,
   ⟨0x48, .vsampu, fun _ => false, fun _ => vsampuFault, vsampuDo⟩, ⟨0x49, .vsampb, fun _ => false, fun _ => vsampbFault, vsampbDo⟩] ++
  [⟨0x4A, .vsampball, fun _ => false, fun _ => vsampballFault, vsampballDo⟩, ⟨0x4B, .vcbd, fun _ => false, fun _ => vcbdFault, vcbdDo⟩,
   ⟨0x58, .vref, fun _ => false, fun _ => vrefFault, vrefDo⟩, ⟨0x59, .vsand, fun _ => false, fun _ => vsandFault, vsandDo⟩,
   ⟨0x5A, .va2b, fun _ => false, fun _ => va2bFault, va2bDo⟩, ⟨0x5B, .vb2a, fun _ => false, fun _ => vb2aFault, vb2aDo⟩,
   ⟨0x5C, .vszero, fun _ => false, fun _ => vszeroFault, vszeroDo⟩, ⟨0x5F, .vunsh, fun _ => false, fun _ => vunshFault, vunshDo⟩,
   ⟨0x60, .br, fun _ => true, fun s v f => brFault v s.mpInService f, brDo⟩,
   ⟨0x61, .call, fun _ => true, fun s v f => callFault v s.mpInService f, callDo⟩,
   ⟨0x62, .ret, fun _ => false, fun s v f => retFault v s.mpInService f, fun v _ => retDo v⟩]

/-- For every instruction of chapter 07 whose effect lies in the engine, in every state in which a kernel runs on
engine e with its words in range and its run limit unspent, the words at its KPC, as far as they are known, those
of the instruction, for all operands that raise none of its faults and draw no two equal words in a row from the
mask stream: the command answers the next state in which engine e holds the row's effect on the engine that has
taken its words, and nothing else differs. (R308, R310, R316, R318, R321, R323, R327, R343, R346, R269, R299) -/
def Obligations.KernelRowsRun : Prop :=
  ∀ row ∈ kernelRows, ∀ (s : State) (e j : Nat) (x : Job) (f : VFields), s.RunsKernel e j x (row.long f) →
    s.atWord e row.opc f (row.long f) = true → row.fault s ((s.vce e).fetched (row.long f)) f = none →
    (s.vce e).streamGood (row.eff ((s.vce e).fetched (row.long f)) f) = true →
    exec (row.cmd e f) s = .next (s.onVce e fun _ => row.eff ((s.vce e).fetched (row.long f)) f)

/-- An element-wise instruction of R316 as its table states it: whether its second source is in use, whether a PUBLIC
operand enters share 0 only (R262), and its operation on the elements of share `j`. -/
structure ElementRow where
  opc    : Nat
  cmd    : Nat → VFields → Instr
  fault  : Vce → VFields → Option Nat
  two    : Bool
  share0 : Bool
  op     : Vce → VFields → Nat → Nat → Nat → Nat

/-- One operand is a set and the other is PUBLIC. -/
def mixedOperands (v : Vce) (f : VFields) : Bool :=
  v.isShared f.vs1.toNat != (!f.func.getLsbD 6 && v.isShared f.vs2.toNat)

/-- The element-wise rows of the table of R316. -/
def elementRows : List ElementRow :=
  [⟨0x20, .vadd, vaddFault, true, true, fun _ _ _ a b => a + b⟩,
   ⟨0x21, .vsub, vsubFault, true, true, fun _ f _ a b => a + 2 ^ wOf f - b⟩,
   ⟨0x22, .vaddm, vaddmFault, true, true, fun v f j a b =>
      if a + b ≥ v.q.toNat ∧ (j = 0 ∨ !mixedOperands v f) then a + b - v.q.toNat else a + b⟩,
   ⟨0x23, .vsubm, vsubmFault, true, true, fun v f _ a b => if a < b then a + v.q.toNat + 2 ^ wOf f - b else a - b⟩,
   ⟨0x24, .vmul, vmulFault, true, false, fun _ _ _ a b => a * b⟩,
   ⟨0x29, .vmulm, vmulmFault, true, false, fun v f _ a b => mont (wOf f) v.q.toNat v.qinv.toNat (a * b)⟩,
   ⟨0x2C, .vand, vandFault, true, false, fun _ _ _ a b => Nat.land a b⟩,
   ⟨0x2D, .vor, vorFault, true, false, fun _ _ _ a b => Nat.lor a b⟩,
   ⟨0x2E, .vxor, vxorFault, true, true, fun _ _ _ a b => Nat.xor a b⟩] ++
  [⟨0x2A, .vmodr, vmodrFault, false, false, fun v _ _ a _ => a % v.q.toNat⟩,
   ⟨0x2B, .vcsub, vcsubFault, false, false, fun v _ _ a _ => if a ≥ v.q.toNat then a - v.q.toNat else a⟩,
   ⟨0x30, .vshl, vshlFault, false, false, fun _ f _ a _ => a * 2 ^ fn f 5 0⟩,
   ⟨0x31, .vshr, vshrFault, false, false, fun _ f _ a _ => a / 2 ^ fn f 5 0⟩,
   ⟨0x32, .vrotl, vrotlFault, false, false, fun _ f _ a _ => a * 2 ^ fn f 5 0 + a / 2 ^ (wOf f - fn f 5 0)⟩,
   ⟨0x38, .vmov, vmovFault, false, false, fun _ _ _ a _ => a⟩]

/-- Element `i` of share `j` of the operand at `base`: its own element in a set; PUBLIC, the operand in every share, or
with `share0` in share 0 only and 0 in the others. -/
def operandElem (v : Vce) (t base : Nat) (share0 : Bool) (j i : Nat) : Nat :=
  if v.isShared base then v.elem t (base + j * v.shareStep base) i
  else if share0 ∧ j ≠ 0 then 0 else v.elem t base i

/-- Element `i` of share `j` of the second source: vs2, or its scalar in every element (R306). -/
def secondElem (v : Vce) (f : VFields) (share0 : Bool) (j i : Nat) : Nat :=
  if f.func.getLsbD 6 then (if share0 ∧ j ≠ 0 then 0 else (v.scal f.vs2.toNat).toNat % 2 ^ wOf f)
  else operandElem v (ty f) f.vs2.toNat share0 j i

/-- Register `n` holds no part of the operand of `k` shares of `c` registers at `d`. -/
def outside (v : Vce) (d c k n : Nat) : Prop := ∀ j < k, n < d + j * v.shareStep d ∨ d + j * v.shareStep d + c ≤ n

/-- Engine `u` differs from `v` in vector registers and INTERNAL marks at most, and holds what `v` holds in every
register outside the operand. -/
structure OnlyOperand (v u : Vce) (d c k : Nat) : Prop where
  rest : u = { v with v := u.v, share := u.share }
  regs : ∀ n, outside v d c k n → u.reg n = v.reg n
  ents : ∀ n, { u.ent n with internal := (v.ent n).internal } = v.ent n

/-- For every element-wise instruction of R316 that the kernel of engine e reaches, with operands that raise no fault,
PUBLIC or shared: the command answers a next state in which only engine e may differ; every active element of
every share of the destination is the table's operation on the elements of that share of the sources, modulo 2^w;
every inactive element keeps its contents; a PUBLIC operand enters share 0 only where R262 says so; every other
vector register and all else of the engine is unchanged. (R252, R254, R256, R258, R262, R306, R307, R316, R317) -/
def Obligations.ElementInstructions : Prop :=
  ∀ row ∈ elementRows, ∀ (s : State) (e j : Nat) (x : Job) (f : VFields), s.RunsKernel e j x false →
    s.atWord e row.opc f false = true → row.fault ((s.vce e).fetched false) f = none →
    ∃ t, exec (row.cmd e f) s = .next t ∧ t = s.onVce e (fun _ => t.vce e) ∧
      let v := (s.vce e).fetched false
      let d := f.vd.toNat
      let k := v.resultK f.vs1.toNat f.vs2.toNat (row.two && !f.func.getLsbD 6)
      OnlyOperand v (t.vce e) d (regCount (ty f) v.g) k ∧
      ∀ j < k, ∀ i < elemCount (ty f) v.g, (t.vce e).elem (ty f) (d + j * v.shareStep d) i =
        if v.elemActive f (ty f) i then
          row.op v f j (operandElem v (ty f) f.vs1.toNat row.share0 j i)
            (if row.two then secondElem v f row.share0 j i else 0) % 2 ^ wOf f
        else v.elem (ty f) (d + j * v.shareStep d) i

/-- VMULW, VMACW, VDOT and VMONT, for operands that raise no fault: the command answers a next state in which, in each
share, each element of the destination that an active source element faces is the product, the accumulated product
modulo 2^(2w), the accumulated sum of products over the slots of the lane modulo 2^36, or the Montgomery
reduction; the others keep their contents, and every other register is unchanged. VBFLY under a modulus and with
operands that raise no fault: in each share of vd, with x in the first half of its members, y in the second and
the PUBLIC twiddles in vs2, every pair of elements becomes the forward or the inverse butterfly of R319, and
nothing outside vd changes. (R256, R258, R262, R316, R317, R318, R319) -/
def Obligations.WideInstructions : Prop :=
  (∀ (s : State) (e j : Nat) (x : Job) (f : VFields), s.RunsKernel e j x false →
    let v := (s.vce e).fetched false
    let d := f.vd.toNat
    let t := ty f
    let w := wOf f
    let k := v.shareK f.vs1.toNat
    let a := fun j i => operandElem v t f.vs1.toNat false j i
    let b := fun i => v.elem t f.vs2.toNat i
    let at_ := fun (u : Vce) (t j i : Nat) => u.elem t (d + j * v.shareStep d) i
    (s.atWord e 0x25 f false = true → vmulwFault v f = none → ∃ r, exec (.vmulw e f) s = .next r ∧ r = s.onVce e (fun _ => r.vce e) ∧
      OnlyOperand v (r.vce e) d (2 * v.g) k ∧ ∀ j < k, ∀ i < elemCount t v.g, at_ (r.vce e) (t + 1) j i =
        if v.elemActive f t i then a j i * b i % 2 ^ (2 * w) else at_ v (t + 1) j i) ∧
    (s.atWord e 0x26 f false = true → vmacwFault v f = none → ∃ r, exec (.vmacw e f) s = .next r ∧ r = s.onVce e (fun _ => r.vce e) ∧
      OnlyOperand v (r.vce e) d (2 * v.g) k ∧ ∀ j < k, ∀ i < elemCount t v.g, at_ (r.vce e) (t + 1) j i =
        if v.elemActive f t i then (at_ v (t + 1) j i + a j i * b i) % 2 ^ (2 * w) else at_ v (t + 1) j i) ∧
    (s.atWord e 0x27 f false = true → vdotFault v f = none → ∃ r, exec (.vdot e f) s = .next r ∧ r = s.onVce e (fun _ => r.vce e) ∧
      OnlyOperand v (r.vce e) d v.g k ∧ ∀ j < k, ∀ m < v.g, ∀ l < 128, at_ (r.vce e) 2 j (128 * m + l) =
        if v.active f m l then
          (at_ v 2 j (128 * m + l) + ((List.range (perLane t)).map fun c =>
            a j ((128 * m + l) * perLane t + c) * b ((128 * m + l) * perLane t + c)).sum) % 2 ^ 36
        else at_ v 2 j (128 * m + l)) ∧
    (s.atWord e 0x28 f false = true → vmontFault v f = none → ∃ r, exec (.vmont e f) s = .next r ∧ r = s.onVce e (fun _ => r.vce e) ∧
      OnlyOperand v (r.vce e) d v.g k ∧ ∀ j < k, ∀ i < elemCount t v.g, at_ (r.vce e) t j i =
        if v.elemActive f t i then
          mont w v.q.toNat v.qinv.toNat (operandElem v (t + 1) f.vs1.toNat false j i) % 2 ^ w
        else at_ v t j i)) ∧
  (∀ (s : State) (e j : Nat) (x : Job) (f : VFields), s.RunsKernel e j x false →
    let v := (s.vce e).fetched false
    let d := f.vd.toNat
    let t := ty f
    let w := wOf f
    let n := elemCount t (v.g / 2)
    let q := v.q.toNat
    let mo := mont w q v.qinv.toNat
    s.atWord e 0x34 f false = true → vbflyFault v f = none → v.q ≠ 0 →
    ∃ r, exec (.vbfly e f) s = .next r ∧ r = s.onVce e (fun _ => r.vce e) ∧
      OnlyOperand v (r.vce e) d v.g (v.shareK d) ∧ ∀ j < v.shareK d, ∀ i < n,
        let o := d + j * v.shareStep d
        let x := v.elem t o i
        let y := v.elem t o (n + i)
        let tw := v.elem t f.vs2.toNat i
        if f.func.getLsbD 0 then
          (r.vce e).elem t o i = (x + y) % 2 ^ w ∧
          ((r.vce e).elem t o (n + i) : Int) = mo (((x : Int) - y) % q * tw).toNat % 2 ^ w
        else
          (r.vce e).elem t o i = (x + mo (y * tw)) % 2 ^ w ∧
          ((r.vce e).elem t o (n + i) : Int) = ((x : Int) + q - mo (y * tw)) % 2 ^ w)

/-- VSETL and VSETQ with operands that raise no fault: VSETL sets G to the power of two its func names, VL to the
lesser of n and 128 G, S[vd] to VL and a named mask to the tail of the last member; VSETQ sets Q, QINV with Q
times QINV one below a multiple of 2^36, and QSQ = 2^72 mod Q. Nothing else of the engine or the part differs.
VCFG with operands that raise no fault: registers b to b + kG - 1 read 0 and are share (i - b) div G of the new
set, or PUBLIC for k = 1; every register of an earlier set that shares a register with the new set reads 0 and is
PUBLIC; every other register keeps its contents and its entry. (R251, R308, R260, R261) -/
def Obligations.ConfigurationInstructions : Prop :=
  (∀ (s : State) (e j : Nat) (x : Job) (f : VFields), s.RunsKernel e j x (f.vs1 = 0) →
    let v := (s.vce e).fetched (f.vs1 = 0)
    let n := if f.vs1 = 0 then f.imm.toNat else (v.scal f.vs1.toNat).toNat
    (s.atWord e 0x01 f (f.vs1 = 0) = true → vsetlFault v f = none → ∃ r u, exec (.vsetl e f) s = .next r ∧ r = s.onVce e (fun _ => u) ∧
      u = { v with g := 2 ^ fn f 1 0, vl := min n (128 * 2 ^ fn f 1 0), s := u.s, smark := u.smark, m := u.m, mmark := u.mmark } ∧
      u.scal f.vd.toNat = (if f.vd = 0 then 0 else BitVec.ofNat 36 u.vl) ∧ (∀ i, i ≠ f.vd.toNat → u.scal i = v.scal i) ∧
      (∀ l < 128, f.mx ≠ 0 → (u.mask f.mx.toNat).getLsbD l = decide (128 * (u.g - 1) + l < u.vl)) ∧
      ∀ i, i ≠ f.mx.toNat → u.mask i = v.mask i) ∧
    (s.atWord e 0x03 f (f.vs1 = 0) = true → vsetqFault v f = none → ∃ r u, exec (.vsetq e f) s = .next r ∧ r = s.onVce e (fun _ => u) ∧
      u = { v with q := BitVec.ofNat 36 n, qinv := u.qinv, qsq := BitVec.ofNat 72 (2 ^ 72 % n) } ∧
      (n * u.qinv.toNat + 1) % 2 ^ 36 = 0)) ∧
  (∀ (s : State) (e j : Nat) (x : Job) (f : VFields), s.RunsKernel e j x false →
    let v := (s.vce e).fetched false
    let b := f.vd.toNat
    let g := 2 ^ fn f 1 0
    let k := fn f 3 2 + 1
    s.atWord e 0x02 f false = true → vcfgFault v f = none → ∃ u, exec (.vcfg e f) s = .next (s.onVce e fun _ => u) ∧
      u = { v with v := u.v, share := u.share } ∧
      ∀ i < 32,
        let own := b ≤ i ∧ i < b + k * g
        let struck := v.isShared i ∧ ∃ n, b ≤ n ∧ n < b + k * g ∧ v.isShared n ∧ (v.ent n).base = (v.ent i).base
        (own → u.reg i = 0 ∧ u.ent i = if k = 1 then {} else
          { k := k, base := b, g := g, idx := (i - b) / g, kind := if f.func.getLsbD 4 then .bool else .arith }) ∧
        (¬ own → struck → u.reg i = 0 ∧ u.ent i = {}) ∧
        (¬ own → ¬ struck → u.reg i = v.reg i ∧ u.ent i = v.ent i))

/-- The operations of the table of R309 on 36-bit values. -/
def sopValue (v : Vce) (op a b : Nat) : Nat :=
  match op with
  | 0 => a + b | 1 => a + 2 ^ 36 - b | 2 => Nat.land a b | 3 => Nat.lor a b | 4 => Nat.xor a b
  | 5 => a * 2 ^ (b % 64) | 6 => a / 2 ^ (b % 64) | 7 => a * b | 8 => b | 9 => v.vfault.toNat | _ => v.vl

/-- SOP with operands that raise no fault: S[vd] holds the value that R309 gives for its operation, modulo 2^36; CLRF
clears VFAULT and no other operation changes it; S0 reads 0, and no other scalar or state differs. SMOVV, SMPOP
and MOP with operands that raise no fault: S[vd] is slot 0 of the named lane, or the number of lanes below min(VL,
128) whose mask bit allows them; Md is Ma combined with Mb as func names; S0 and M0 keep their fixed values, and
nothing else differs. (R249, R308, R309, R340, R256, R257) -/
def Obligations.ScalarInstructions : Prop :=
  (∀ (s : State) (e j : Nat) (x : Job) (f : VFields), s.RunsKernel e j x (fn f 4 4 = 1) →
    let v := (s.vce e).fetched (fn f 4 4 = 1)
    let a := (v.scal f.vs1.toNat).toNat
    let b := if fn f 4 4 = 1 then f.imm.toNat else (v.scal f.vs2.toNat).toNat
    s.atWord e 0x08 f (fn f 4 4 = 1) = true → sopFault v f = none → ∃ u, exec (.sop e f) s = .next (s.onVce e fun _ => u) ∧
      u = { v with s := u.s, smark := u.smark, vfault := if fn f 3 0 = 10 then 0 else v.vfault } ∧
      (∀ i, i ≠ f.vd.toNat → u.scal i = v.scal i) ∧
      u.scal f.vd.toNat = (if f.vd = 0 then 0 else BitVec.ofNat 36 (sopValue v (fn f 3 0) a b))) ∧
  (∀ (s : State) (e j : Nat) (x : Job) (f : VFields), s.RunsKernel e j x false →
    let v := (s.vce e).fetched false
    let scalar := fun (u : Vce) (n : Nat) => u = { v with s := u.s, smark := u.smark } ∧
      (∀ i, i ≠ f.vd.toNat → u.scal i = v.scal i) ∧ u.scal f.vd.toNat = if f.vd = 0 then 0 else BitVec.ofNat 36 n
    (s.atWord e 0x09 f false = true → smovvFault v f = none → ∃ u, exec (.smovv e f) s = .next (s.onVce e fun _ => u) ∧
      scalar u (laneOf (v.reg f.vs1.toNat) f.func.toNat % 2 ^ elemW (ty f))) ∧
    (s.atWord e 0x0A f false = true → smpopFault v f = none → ∃ u, exec (.smpop e f) s = .next (s.onVce e fun _ => u) ∧
      scalar u ((List.range (min v.vl 128)).countP fun l => (v.mask f.mx.toNat).getLsbD l != f.inv)) ∧
    (s.atWord e 0x42 f false = true → mopFault v f = none → ∃ u, exec (.mop e f) s = .next (s.onVce e fun _ => u) ∧ u = { v with m := u.m, mmark := u.mmark } ∧
      (∀ i, i ≠ f.vd.toNat → u.mask i = v.mask i) ∧
      ∀ l < 128, f.vd ≠ 0 → (u.mask f.vd.toNat).getLsbD l =
        let p := (v.mask f.vs1.toNat).getLsbD l
        let q := (v.mask f.vs2.toNat).getLsbD l
        match fn f 1 0 with | 0 => p && q | 1 => p || q | 2 => p != q | _ => p && !q))

/-- VCMP and VSEL with operands that raise no fault: bit l of Md is 1 exactly when lane l is active and its condition
holds for every slot, and keeps its value in an inactive lane; VSEL gives each lane below VL of each share the
lane of a where the mask allows it and of b elsewhere, and keeps the tail. (R256, R257, R258, R321) -/
def Obligations.CompareAndSelect : Prop :=
  ∀ (s : State) (e j : Nat) (x : Job) (f : VFields), s.RunsKernel e j x false →
    let v := (s.vce e).fetched false
    let t := ty f
    let holds := fun a b => match fn f 2 0 with
      | 0 => a = b | 1 => a ≠ b | 2 => a < b | 3 => a ≥ b | _ => a < v.q.toNat
    (s.atWord e 0x40 f false = true → vcmpFault v f = none → ∃ u, exec (.vcmp e f) s = .next (s.onVce e fun _ => u) ∧ u = { v with m := u.m, mmark := u.mmark } ∧
      (∀ i, i ≠ f.vd.toNat → u.mask i = v.mask i) ∧
      ∀ l < 128, f.vd ≠ 0 → ((u.mask f.vd.toNat).getLsbD l = true ↔
        if v.active f 0 l then ∀ c < perLane t, holds (v.elem t f.vs1.toNat (l * perLane t + c)) (v.elem t f.vs2.toNat (l * perLane t + c))
        else (v.mask f.vd.toNat).getLsbD l = true)) ∧
    (s.atWord e 0x41 f false = true → vselFault v f = none → ∃ u, exec (.vsel e f) s = .next (s.onVce e fun _ => u) ∧
      OnlyOperand v u f.vd.toNat (regCount t v.g) (v.shareK f.vs1.toNat) ∧
      ∀ j < v.shareK f.vs1.toNat, ∀ i < elemCount t v.g, u.elem t (f.vd.toNat + j * v.shareStep f.vd.toNat) i =
        let l := i / perLane t
        if v.vl ≤ l then v.elem t (f.vd.toNat + j * v.shareStep f.vd.toNat) i
        else operandElem v t (if v.maskBit f (l % 128) then f.vs1.toNat else f.vs2.toNat) false j i)

/-- BR, CALL and RET with operands that raise no fault: BR goes to its target exactly when its condition holds and
otherwise to the word after the immediate; CALL pushes the address after the immediate and goes to its target; RET
pops an address and goes to it; nothing else differs. (R343, R344, R346) -/
def Obligations.KernelControlFlow : Prop :=
  ∀ (s : State) (e j : Nat) (x : Job) (f : VFields),
    let v := s.vce e
    let a := (v.scal f.vs1.toNat).toNat
    let b := (v.scal f.vs2.toNat).toNat
    let many := (List.range (min v.vl 128)).any fun l => (v.mask f.mx.toNat).getLsbD l != f.inv
    let holds : Bool := match fn f 2 0 with
      | 0 => true | 1 => a == 0 | 2 => a != 0 | 3 => a < b | 4 => b ≤ a | 5 => many | _ => !many
    let at_ := fun (k : Nat) (w : Vce) => { w with kaddr := v.kpc, kpc := k, wd := 0, safe := true, waiting := false }
    (s.RunsKernel e j x true → s.atWord e 0x60 f true = true → brFault (v.fetched true) s.mpInService f = none →
      exec (.br e f) s = .next (s.onVce e (at_ (if holds then f.imm.toNat else v.kpc + 2)))) ∧
    (s.RunsKernel e j x true → s.atWord e 0x61 f true = true → callFault (v.fetched true) s.mpInService f = none →
      exec (.call e f) s = .next (s.onVce e fun w => { at_ f.imm.toNat w with kstack := (v.kpc + 2) :: w.kstack })) ∧
    (s.RunsKernel e j x false → ∀ k r, v.kstack = k :: r → s.atWord e 0x62 f false = true → retFault (v.fetched false) s.mpInService f = none →
      exec (.ret e f) s = .next (s.onVce e fun w => { at_ k w with kstack := r }))

/-- The rows that a load or store of R310 names, each with its register and share: share j, member r is row
S[vs1] + func + j × S[vs2] + r. -/
def rowsNamed (v : Vce) (f : VFields) : List (Nat × Nat × Nat) :=
  (List.range (v.shareK f.vd.toNat)).flatMap fun j => (List.range (regCount (ty f) v.g)).map fun r =>
    ((v.scal f.vs1.toNat).toNat + f.func.toNat + j * (v.scal f.vs2.toNat).toNat + r, f.vd.toNat + j * v.shareStep f.vd.toNat + r, j)

/-- VLD of rows that have arrived, VST and VREL with operands that raise no fault: each register of vd takes the row
it names, each named row takes its register (the last, where two name one row) with the share index and the secret
mark of a set, and VREL releases the streamed rows below S[vs1]; every other register and row is unchanged. VLD of
a streamed row that has not arrived, with operands that raise no fault, changes nothing but that the engine waits,
which is a safe point. (R310, R311, R312, R314, R372) -/
def Obligations.LocalRows : Prop :=
  (∀ (s : State) (e j : Nat) (x : Job) (f : VFields), s.RunsKernel e j x false →
    let v := (s.vce e).fetched false
    let n := (v.scal f.vs1.toNat).toNat
    (s.atWord e 0x10 f false = true → vldStalls v f = false → vldFault v f = none → ∃ u, exec (.vld e f) s = .next (s.onVce e fun _ => u) ∧
      OnlyOperand v u f.vd.toNat (regCount (ty f) v.g) (v.shareK f.vd.toNat) ∧
      ∀ p ∈ rowsNamed v f, u.reg p.2.1 = (v.row (v.rowKey p.1)).bits) ∧
    (s.atWord e 0x11 f false = true → vstFault v f = none → ∃ u, exec (.vst e f) s = .next (s.onVce e fun _ => u) ∧ u = { v with rows := u.rows } ∧
      ∀ i, match ((rowsNamed v f).filter fun p => p.1 = i).getLast? with
        | none => u.row i = v.row i
        | some p => (u.row i).bits = v.reg p.2.1 ∧
          (u.row i).secret = ((v.row i).secret || v.isShared f.vd.toNat) ∧
          (v.isShared f.vd.toNat = true → (u.row i).share = p.2.2)) ∧
    (s.atWord e 0x13 f false = true → vrelFault v f = none → ∃ u, exec (.vrel e f) s = .next (s.onVce e fun _ => u) ∧
      u = { v with rows := u.rows, released := u.released } ∧ (v.streaming = true → u.released = max v.released n) ∧
      ∀ i, ¬ (v.streaming = true ∧ 1000 ≤ i ∧ i < 1000 + n) → u.row i = v.row i)) ∧
  (∀ (s : State) (e j : Nat) (x : Job) (f : VFields), s.kernelOn e = some (j, x) → s.atWord e 0x10 f false = true →
    vldStalls (s.vce e) f = true →
    vldFault (s.vce e) f = none → exec (.vld e f) s = .next (s.onVce e fun v => { v with wd := 0, safe := true, waiting := true }))

/-- VOUT with operands that raise no fault appends the 576 G bytes of its registers to the engine's stream, and what
has been streamed is written out; VEND on the last step, with no hash left to lend, ends the job with
OUT_TOO_SMALL and the required length where OUT_LEN exceeds OUT_CAP, with VERIFY_FAIL where func says so and the
operation may fail, and else with the streamed bytes and the first bytes of the result slot, KEY reading what a
vendor kernel leaves for it beside the output and a 0x70 kernel giving its output alone; KERNEL_CALL of a 0x70 job
that its engine has begun and no instruction has entered yet enters the kernel through its entry word, at which
KPC already stands. An opcode that chapter 07 does not list: in a customer kernel, from 0xE0 with a routine loaded
for it, the sequencer goes to the routine; otherwise the job ends with the fault ILLEGAL_OPCODE, cause 0x10. Where
the decode entry has wrong parity, the engine takes the machine check CS_PARITY instead. (R280, R310, R315, R350,
R351, R302, R339, R341, R360) -/
def Obligations.KernelOutput : Prop :=
  (∀ (s : State) (e j : Nat) (x : Job) (f : VFields),
    let v := (s.vce e).fetched false
    let n := (v.scal f.vs1.toNat).toNat
    (s.RunsKernel e j x false → s.atWord e 0x12 f false = true → voutFault v f = none → ∃ t, exec (.vout e f) s = .next t ∧
      t.vce e = { v with streamed := v.streamed ++ leBytes (576 * v.g) (v.bitString f.vd.toNat v.g) } ∧
      (∀ i, i ≠ e → t.vce i = s.vce i) ∧ s.out <+: t.out ∧
      t = { s with vces := t.vces, out := t.out, sch := t.sch, hif := t.hif, freeCtr := t.freeCtr }) ∧
    (s.RunsKernel e j x false → s.atWord e 0x63 f false = true → vendFault v f = none → x.ending = true →
      s.wantsLend e = false →
      let r : Result := if n > x.desc.outCap then { status := .outTooSmall, need := n }
        else if f.func.getLsbD 0 = true ∧ x.mayFail = true then fail .verifyFail else { out := vendOut v f }
      let g := (s.onVce e fun _ => v).kernelGives x v r
      exec (.vend e f) s = .next (g.2.produce j g.1) ∧ (x.desc.fam = 0x70 → g = (r, s.onVce e fun _ => v))) ∧
    (s.job? j = some x → s.runningOn j = some e → x.desc.fam = 0x70 → clsOf e = .vce → s.awake = true → s.computing j = true →
      x.abort = none → (s.vce e).entered = false →
      exec (.kernelCall j) s = .next (s.onVce e fun w => { w with entered := true }))) ∧
  (∀ (s : State) (e j opc : Nat) (x : Job), s.RunsKernel e j x false → opc < 256 → listedOpcode opc = false →
    (s.wordKnown (s.vce e).kpc = true → (s.kernelWord (s.vce e).kpc).toNat / 2 ^ 28 = opc) →
    let v := (s.vce e).fetched false
    let w := { v with ir := BitVec.ofNat 36 (opc * 2 ^ 28 + (s.kernelWord v.kaddr).toNat % 2 ^ 28) }
    let d := s.decodeEntry opc
    exec (.customerOpcode e opc) s = .next (
      if entryOk 16 d.toNat = false then s.machineCheck e 4 (s.vce e).upc
      else if 0xE0 ≤ opc ∧ d.getLsbD 15 = true ∧ v.ctx.kind = .customer then
        s.onVce e fun _ => { w with upc := d.toNat % 2 ^ 15 }
      else s.kernelFault e w 0x10 0))

/-- VGATHER with operands that raise no fault, from its first element, with no stop asked for, the groups it needs
within the table of R411 and every active index inside the window at a word that reads well: each active element
of vd below VL takes its word, bits [35:0] for E36 and [63:0] for E72, the others keep their contents, with FF the
named scalar takes VL, and VFAULT and everything else is unchanged but the groups that the reads initialise, whose
blocks no longer fail. VSCATTER under the same conditions: the job sees the element in each word that an active
element below VL names, the highest where several name one word, with bits [63:36] 0 for E36, and every other word
that reads well as before; every byte of context memory reads as before until the job's entry is issued, and is
then what the job saw; the engine keeps its registers and the job is marked as having scattered. (R331, R332,
R335, R411, R336, R337, R352, R406) -/
def Obligations.GatherAndScatter : Prop :=
  (∀ (s : State) (e j : Nat) (x : Job) (f : VFields), s.RunsKernel e j x false →
    let v := (s.vce e).fetched false
    let o := (s.openElems x.slice v f v.vl).1
    let index := fun i => v.elem 2 f.vs1.toNat i
    s.atWord e 0x14 f false = true → vgatherFault v f = none → v.gsAt = 0 → s.stopAsked e x = false →
    (s.openElems x.slice v f v.vl).2 = v.vl →
    (∀ i < v.vl, v.active f 0 i = true → index i < s.windowWords x.slice ∧ (s.windowWordAt x (index i)).isSome = true) →
    ∃ u, exec (.vgather e f) s = .next (o.onVce e fun _ => u) ∧ 
      o = { s with cmc := { s.cmc with onDemand := o.cmc.onDemand, bad := o.cmc.bad, badTag := o.cmc.badTag } } ∧
      u = { v with v := u.v, share := u.share, s := u.s, smark := u.smark } ∧
      (∀ i < 128, u.elem (ty f) f.vd.toNat i =
        if i < v.vl ∧ v.active f 0 i = true then
          (s.windowWordAt x (index i)).getD 0 % (if ty f = 3 then 2 ^ 64 else 2 ^ 36)
        else v.elem (ty f) f.vd.toNat i) ∧
      (∀ n, outside v f.vd.toNat (if ty f = 3 then 2 else 1) 1 n → u.reg n = v.reg n) ∧
      ∀ i, u.scal i = if f.func.getLsbD 0 = true ∧ i = fn f 4 1 ∧ i ≠ 0 then BitVec.ofNat 36 v.vl else v.scal i) ∧
  ((∀ (s : State) (e j : Nat) (x : Job) (f : VFields), s.RunsKernel e j x false →
    let v := (s.vce e).fetched false
    let index := fun i => v.elem 2 f.vs1.toNat i
    let on := fun i => i < v.vl ∧ v.active f 0 i = true
    s.atWord e 0x15 f false = true → vscatterFault v f = none → v.gsAt = 0 → s.stopAsked e x = false →
    (s.openElems x.slice v f v.vl).2 = v.vl →
    (∀ i, on i → index i < s.windowWords x.slice ∧ (s.windowWordAt x (index i)).isSome = true) →
    ∃ t y, exec (.vscatter e f) s = .next t ∧ t.vce e = v ∧ t.job? j = some y ∧ y = { x with scattered := true, scat := y.scat } ∧
      t = { s with sch := t.sch, vces := t.vces, cmc := { s.cmc with
        onDemand := t.cmc.onDemand, bad := t.cmc.bad, badTag := t.cmc.badTag } } ∧
      (∀ i, on i → (∀ k, on k → index k = index i → k ≤ i) →
        t.windowWordAt y (index i) = some (v.elem (ty f) f.vd.toNat i % 2 ^ 64)) ∧
      ∀ w, (∀ i, on i → index i ≠ w) → (s.windowWordAt x w).isSome = true → t.windowWordAt y w = s.windowWordAt x w) ∧
  ∀ (s : State) (j : Nat) (x : Job), s.job? j = some x → s.releasable j x = true → keysRise x.scat = true →
    (∀ p ∈ x.scat, ∀ q ∈ x.scat, p.1 < q.1 → p.1 + 8 ≤ q.1) →
    ∃ t, exec (.flowRelease j) s = .next t ∧
      (∀ p ∈ x.scat, ∀ b < 8, t.cmcBytes (p.1 + b) 1 = [BitVec.ofNat 8 (p.2 / 256 ^ b)]) ∧
      ∀ a, (∀ p ∈ x.scat, a < p.1 ∨ p.1 + 8 ≤ a) → t.cmcBytes a 1 = s.cmcBytes a 1)

/-! The micro-sequencer (chapter 08) -/

/-- A micro-operation of a running kernel, at the sequencer's address a, whose selectors, function and destination are
not reserved and whose unused bits are 0: NOP goes on to the next address, as VWAIT does once the datapath is
idle; ALU, ALUI, LDI, FLD and SRD write the micro-register D (U0 discards) with the value of their row; SWR writes
the scalar that its A names (S0 discards); POLL marks a safe point, where the run limit is not spent and neither a
stop nor an abort is asked for. Each but VWAIT takes one cycle, and nothing else differs. (R361, R362, R363, R364) -/
def Obligations.MicroArithmetic : Prop :=
  ∀ (s : State) (e j a : Nat) (x : Job) (w : BitVec 30), s.kernelOn e = some (j, x) →
    let v := { s.vce e with upc := a, safe := false, waiting := false }
    let on := fun (v : Vce) => { v with upc := v.upc + 1, wd := v.wd + 1, cycles := v.cycles + 1, dp := v.dp - 1 }
    let d := mb w 29 25
    let writes := fun (cmd : Instr) (n : Nat) => exec cmd s = .next (s.onVce e fun _ =>
      on (if d = 0 then v else { v with u := mapSet 0 v.u d (BitVec.ofNat 36 n) }))
    (w = 0 → (s.microAt e 0 w a → exec (.nop e w) s = .next (s.onVce e fun _ => on v)) ∧
      (s.microAt e 0x11 w a → exec (.vwait e w) s = .next (s.onVce e fun _ => { v with
        upc := a + 1, wd := v.wd + (v.dp + 1), cycles := v.cycles + (v.dp + 1), dp := 0 })) ∧
      (s.microAt e 0x18 w a → s.limitReached e v = false → s.stopAsked e x = false →
        exec (.poll e w) s = .next (s.onVce e fun _ => on { v with wd := 0, safe := true }))) ∧
    (∀ p q n, s.microAt e 1 w a → v.sel (mb w 24 20) = some p → v.sel (mb w 19 15) = some q →
      aluFn (mb w 3 0) p q = some n → mb w 14 4 = 0 → d < 16 → writes (.alu e w) n) ∧
    (∀ p n, s.microAt e 2 w a → v.sel (mb w 24 20) = some p → aluFn (mb w 19 16) p (mb w 15 0) = some n → d < 16 →
      writes (.alui e w) n) ∧
    (s.microAt e 3 w a → mb w 24 20 = 0 → d < 16 → writes (.ldi e w) (mb w 19 0)) ∧
    (s.microAt e 4 w a → mb w 24 20 = 0 → mb w 7 0 = 0 → 1 ≤ mb w 13 8 → mb w 19 14 + mb w 13 8 ≤ 36 → d < 16 →
      writes (.fld e w) (v.ir.toNat / 2 ^ mb w 19 14 % 2 ^ mb w 13 8)) ∧
    (∀ p, s.microAt e 5 w a → v.sel (mb w 24 20) = some p → mb w 19 0 = 0 → d < 16 →
      writes (.srd e w) (v.scal (p % 16)).toNat) ∧
    (∀ p q, s.microAt e 6 w a → v.sel (mb w 24 20) = some p → v.sel (mb w 19 15) = some q → mb w 29 25 = 0 → mb w 14 0 = 0 →
      exec (.swr e w) s = .next (s.onVce e fun _ => on (v.setScal (p % 16) (BitVec.ofNat 36 q))))

/-- A micro-operation of a running kernel with no reserved field: BR goes to its target when its condition holds,
taking two cycles, and else goes on; CALL pushes the next address with its parity on a stack that is not full and
goes to its target; RET pops an entry of good parity; NEXT at a safe point with an empty micro-stack, an unspent
run limit and no stop or abort asked for takes the word at KPC, within the kernel's range, into IR and goes to the
routine that a VALID decode entry of good parity names, in two cycles after a KJMP and else in one; IMMF takes
that word into IMM; KJMP sets KPC; KPUSH and KPOP use the kernel call stack. Nothing else differs. (R343, R346,
R363, R364, R365, R366, R367) -/
def Obligations.MicroSequencing : Prop :=
  ∀ (s : State) (e j a : Nat) (x : Job) (w : BitVec 30), s.kernelOn e = some (j, x) →
    let v := { s.vce e with upc := a, safe := false, waiting := false }
    let go := fun (to_ c : Nat) (v : Vce) => { v with upc := to_, wd := v.wd + c, cycles := v.cycles + c, dp := v.dp - c }
    let on := fun (v : Vce) => { v with upc := v.upc + 1, wd := v.wd + 1, cycles := v.cycles + 1, dp := v.dp - 1 }
    (∀ p q t, s.microAt e 8 w a → v.sel (mb w 25 21) = some p → v.sel (mb w 20 16) = some q →
      v.uCond (mb w 29 26) p q = some t → mb w 15 15 = 0 →
      exec (.microBr e w) s = .next (s.onVce e fun _ => if t then go (mb w 14 0) 2 v else on v)) ∧
    (s.microAt e 9 w a → mb w 29 15 = 0 → v.ustack.length < 8 → exec (.microCall e w) s = .next (s.onVce e fun _ =>
      go (mb w 14 0) 2 { v with ustack := BitVec.ofNat 17 (storedEntry 15 (a + 1)) :: v.ustack })) ∧
    (∀ b r, s.microAt e 0xA w a → w = 0 → v.ustack = b :: r → entryOk 15 b.toNat = true →
      exec (.microRet e w) s = .next (s.onVce e fun _ => go (b.toNat % 2 ^ 15) 2 { v with ustack := r })) ∧
    (s.microAt e 0xB w a → w = 0 → v.ustack = [] → v.inRange s.mpInService v.kpc = true → s.limitReached e v = false →
      s.stopAsked e x = false →
      let ir := s.kernelWord v.kpc
      let d := s.decodeEntry (ir.toNat / 2 ^ 28)
      entryOk 16 d.toNat = true → d.getLsbD 15 = true → (ir.toNat / 2 ^ 28 < 0xE0 ∨ v.ctx.kind = .customer) →
      exec (.microNext e w) s = .next (s.onVce e fun _ => go (d.toNat % 2 ^ 15) (if v.jumped then 2 else 1) { v with
        wd := 0, safe := true, jumped := false, ir := ir, kaddr := v.kpc, kpc := v.kpc + 1 })) ∧
    (s.microAt e 7 w a → w = 0 → v.inRange s.mpInService v.kpc = true →
      exec (.immf e w) s = .next (s.onVce e fun _ => on { v with imm := s.kernelWord v.kpc, kpc := v.kpc + 1 })) ∧
    (∀ p, v.sel (mb w 24 20) = some p → mb w 29 25 = 0 → mb w 19 0 = 0 →
      (s.microAt e 0xC w a →
        exec (.kjmp e w) s = .next (s.onVce e fun _ => on { v with kpc := p % 2 ^ 14, jumped := true })) ∧
      (s.microAt e 0xD w a → v.kstack.length < 8 →
        exec (.kpush e w) s = .next (s.onVce e fun _ => on { v with kstack := p % 2 ^ 14 :: v.kstack }))) ∧
    (∀ p r, s.microAt e 0xE w a → v.kstack = p :: r → mb w 24 0 = 0 → mb w 29 25 < 16 →
      exec (.kpop e w) s = .next (s.onVce e fun _ => on ({ v with kstack := r }.setU (mb w 29 25) p)))

/-- CHK of a running kernel with no reserved field and a cause that R339 lists goes on to the next address where its
condition fails, and where it holds takes the instruction fault of its cause field, as FAULT always does: VFAULT
holds cause, address and index 0, the micro-stack is empty, the sequencer stands at the fault routine 0x0040, and
the job ends as R341 says. JEND with VEND in IR and operands that raise no fault, on the last step of the job and
with no hash left to lend, ends the job as R351 says of VEND; with any other word in IR, and no row of the result
slot marked secret, it ends it with OK or, where the operation may fail one, with a verdict that the manual does
not publish (log entry 25), within OUT_CAP; what a vendor kernel leaves for KEY is read beside it. NOP, RET, VWAIT
and IMMF words with a bit set, a CALL word with a bit above its target set, a RET on an empty micro-stack, and one
of an entry of wrong parity, raise a machine check of engine e at the address of the word: cause 0x04 for the word
and the entry, 0x05 for the empty stack. (R340, R363, R364, R375, R119, R351, R286, R360, R367, R376) -/
def Obligations.MicroChecks : Prop :=
  (∀ (s : State) (e j a : Nat) (x : Job) (w : BitVec 30), s.kernelOn e = some (j, x) → listedCause (mb w 13 8) = true →
    let v := { s.vce e with upc := a, safe := false, waiting := false }
    let taken := (s.onVce e fun _ => { v with
      ustack := [], upc := 0x40, vfault := vfaultWord (mb w 13 8) v.kaddr 0 }).instrFault e (mb w 13 8) 0
    (∀ p t, s.microAt e 0x16 w a → v.sel (mb w 24 20) = some p → v.chkCond (mb w 19 14) p (mb w 7 0) = some t →
      mb w 29 25 = 0 →
      exec (.chk e w) s = .next (if t then taken else s.onVce e fun _ =>
        { v with upc := a + 1, wd := v.wd + 1, cycles := v.cycles + 1, dp := v.dp - 1 })) ∧
    (s.microAt e 0x17 w a → mb w 29 14 = 0 → mb w 7 0 = 0 → exec (.microFault e w) s = .next taken)) ∧
  (∀ (s : State) (e j a : Nat) (x : Job) (w : BitVec 30), s.kernelOn e = some (j, x) → x.ending = true → s.wantsLend e = false →
    s.microAt e 0x19 w a →
    let v := { s.vce e with upc := a, safe := false, waiting := false }
    let ends := fun r =>
      let g := (s.onVce e fun _ => v).kernelGives x v r
      exec (.jend e w) s = .next (g.2.produce j g.1)
    (v.irOpcode = 0x63 → vendFault v v.irFields = none → ends (vendResult x v v.irFields)) ∧
    (v.irOpcode ≠ 0x63 → (v.ctx.k = 1 ∨ ∀ n, v.slotMarked n = false) → ∃ r, ends r ∧ (r.status = .ok ∨ r = fail .verifyFail) ∧
      (r.status ≠ .ok → x.mayFail = true) ∧ r.out.length ≤ x.desc.outCap)) ∧
  (∀ (s : State) (e j a : Nat) (x : Job) (w : BitVec 30), s.kernelOn e = some (j, x) →
    let stop := fun c => Host.Outcome.next (φ := Fault) (ρ := Refusal)
      ((s.onVce e fun v => { v with upc := a, safe := false, waiting := false }).machineCheck e c a)
    (w ≠ 0 → (s.microAt e 0 w a → exec (.nop e w) s = stop 4) ∧ (s.microAt e 0xA w a → exec (.microRet e w) s = stop 4) ∧
      (s.microAt e 0x11 w a → exec (.vwait e w) s = stop 4) ∧ (s.microAt e 7 w a → exec (.immf e w) s = stop 4)) ∧
    (s.microAt e 9 w a → mb w 29 15 ≠ 0 → exec (.microCall e w) s = stop 4) ∧
    (s.microAt e 0xA w a → w = 0 → (s.vce e).ustack = [] → exec (.microRet e w) s = stop 5) ∧
    ∀ b r, s.microAt e 0xA w a → w = 0 → (s.vce e).ustack = b :: r → entryOk 15 b.toNat = false →
      exec (.microRet e w) s = stop 4)

/-- A whole VISSUE of a running kernel whose operation raises no fault and takes at most 128 beats and draws no two
equal words in a row from the mask stream has the effect of its vector operation on the operands of IR (the fields
it does not use count as 0, log entry 82), after a stall for a busy datapath; a whole ROWMV whose rows raise no
fault moves the registers of its group, or waits for a row that has not arrived; KCORE, SHMAP, MODW and OSTR have
the effect of the operation in IR where it is one of theirs; PORT reads the word that an active element of a
gather names into that element; each goes on to the next address. (R310, R323, R331, R363, R365, R370, R371, R372) -/
def Obligations.MicroDatapath : Prop :=
  ∀ (s : State) (e j a : Nat) (x : Job) (w : BitVec 30), s.kernelOn e = some (j, x) →
    let v := { s.vce e with upc := a, safe := false, waiting := false }
    let f := v.irFields
    let op := mb w 29 24 + 0x20
    (∀ p, s.microAt e 0x10 w a → vop op = some p → w.toNat % 2 ^ 20 = 0 → p.1 v (f.usedBy op) = none →
      let u := p.2 v (f.usedBy op)
      v.beats u op (f.usedBy op) ≤ 128 → v.streamGood u = true →
      exec (.vissue e w) s = .next (s.onVce e fun _ => v.uissue u (v.beats u op (f.usedBy op)))) ∧
    (∀ row, s.microAt e 0x12 w a → mb w 29 25 = 0 → v.sel (mb w 24 20) = some row → mb w 14 0 = 0 →
      badGroup f.vd.toNat v.g = false → v.isPublic f.vd.toNat v.g = true →
      (∀ i < v.g, v.rowFault (mb w 19 19 = 1) (row + i) none (v.ent (f.vd.toNat + i)).internal = none) →
      let waits : Bool := mb w 19 19 = 0 && (List.range v.g).any fun i => v.unarrived (row + i)
      (waits = true → exec (.rowmv e w) s = .next (s.onVce e fun _ => { v with wd := 0, safe := true, waiting := true })) ∧
      (waits = false → exec (.rowmv e w) s = .next (s.onVce e fun _ => v.uissue ((List.range v.g).foldl (fun u i =>
        u.rowMove (mb w 19 19 = 1) (f.vd.toNat + i) (row + i) none) v) (4 * v.g)))) ∧
    (∀ p, irVop v.irOpcode = some p → p.1 v f = none → v.streamGood (p.2 v f) = true →
      (s.microAt e 0x14 w a → v.irOpcode ∈ [0x50, 0x51, 0x52] →
        exec (.kcore e w) s = .next (s.onVce e fun _ => (p.2 v f).uadv 1)) ∧
      (s.microAt e 0x15 w a → v.irOpcode = 0x02 → exec (.shmap e w) s = .next (s.onVce e fun _ => (p.2 v f).uadv 1)) ∧
      (s.microAt e 0x1A w a → v.irOpcode ∈ [0x01, 0x03] →
        exec (.modw e w) s = .next (s.onVce e fun _ => (p.2 v f).uadv 1)) ∧
      (s.microAt e 0x1B w a → v.irOpcode ∈ [0x12, 0x13] →
        exec (.ostr e w) s = .next ((s.onVce e fun _ => (p.2 v f).uadv 1).streamOut e j x))) ∧
    (∀ n i, s.microAt e 0x13 w a → v.irOpcode = 0x14 → vgatherFault v f = none → i < v.vl → v.active f 0 i = true →
      v.elem 2 f.vs1.toNat i < s.windowWords x.slice → s.windowWordAt x (v.elem 2 f.vs1.toNat i) = some n →
      s.groupsWait ((s.window x.slice).1 + 8 * v.elem 2 f.vs1.toNat i) 8 = false →
      ∃ o u, exec (.port e w i) s = .next (State.onVce o e fun _ => u) ∧ o = { s with cmc := o.cmc } ∧
        u = { v with v := u.v, share := u.share, wd := 1, safe := true, waiting := true, upc := a + 1, cycles := v.cycles + 1, dp := v.dp - 1 } ∧
        ∀ k < 128, u.elem (ty f) f.vd.toNat k =
          if k = i then n % (if ty f = 3 then 2 ^ 64 else 2 ^ 36) else v.elem (ty f) f.vd.toNat k)

/-! Operations of the opcode table (chapters 03, 04, 10 and 13) -/

/-- An operation of the opcode table: its command, family and operation, and the result it gives. -/
structure OpcodeRow where
  cmd : Nat → Instr
  fam : Nat
  op  : Nat
  res : Nat → Job → State → Result × State

/-- Every operation of the opcode table that waits for nothing once its last step runs. -/
def opcodeRows : List OpcodeRow :=
  [⟨.mlKemKeyGeneration, 1, 0, fun _ => kemGenJob⟩, ⟨.mlKemDecapsulation, 1, 1, fun _ => kemDecJob⟩,
   ⟨.mlKemEncapsulationReferenced, 1, 2, fun _ => kemEncRefJob⟩,
   ⟨.mlKemEncapsulationInline, 1, 3, fun _ => kemEncInlineJob⟩, ⟨.hqcKeyGeneration, 6, 0, fun _ => kemGenJob⟩,
   ⟨.hqcDecapsulation, 6, 1, fun _ => kemDecJob⟩, ⟨.hqcEncapsulationReferenced, 6, 2, fun _ => kemEncRefJob⟩,
   ⟨.hqcEncapsulationInline, 6, 3, fun _ => kemEncInlineJob⟩,
   ⟨.mcelieceKeyGeneration, 7, 0, fun _ => kemGenJob⟩, ⟨.mcelieceDecapsulation, 7, 1, fun _ => kemDecJob⟩,
   ⟨.mcelieceEncapsulationReferenced, 7, 2, fun _ => mceEncRefJob⟩,
   ⟨.mcelieceEncapsulationInline, 7, 3, fun _ => kemEncInlineJob⟩,
   ⟨.mlDsaKeyGeneration, 2, 0, fun _ => mldsaGenJob⟩, ⟨.mlDsaSign, 2, 1, fun _ => mldsaSignJob⟩,
   ⟨.mlDsaVerifyReferenced, 2, 2, fun _ => mldsaVerifyJob⟩, ⟨.mlDsaVerifyInline, 2, 3, fun _ => mldsaInlineJob⟩] ++
  [⟨.slhDsaKeyGeneration, 3, 0, fun _ => slhGenJob⟩, ⟨.slhDsaSign, 3, 1, fun _ => slhSignJob⟩,
   ⟨.slhDsaVerifyReferenced, 3, 2, fun _ => slhVerifyJob⟩, ⟨.slhDsaVerifyInline, 3, 3, fun _ => slhInlineJob⟩,
   ⟨.lmsKeyGeneration, 4, 0, stfGenJob⟩, ⟨.lmsSign, 4, 1, fun _ => stfSignJob⟩,
   ⟨.lmsVerifyReferenced, 4, 2, fun _ => stfVerifyJob⟩, ⟨.lmsVerifyInline, 4, 3, fun _ => stfInlineJob⟩,
   ⟨.xmssKeyGeneration, 5, 0, stfGenJob⟩, ⟨.xmssSign, 5, 1, fun _ => stfSignJob⟩,
   ⟨.xmssVerifyReferenced, 5, 2, fun _ => stfVerifyJob⟩, ⟨.xmssVerifyInline, 5, 3, fun _ => stfInlineJob⟩,
   ⟨.hybridKemKeyGeneration, 0xA, 0, fun _ => hkemGenJob⟩,
   ⟨.hybridKemDecapsulation, 0xA, 1, fun _ => hkemDecJob⟩,
   ⟨.hybridKemEncapsulationReferenced, 0xA, 2, fun _ => hkemEncRefJob⟩,
   ⟨.hybridKemEncapsulationInline, 0xA, 3, fun _ => hkemEncInlineJob⟩] ++
  [⟨.decapsulationRaw, 0xA, 5, fun _ => rawDecJob⟩,
   ⟨.encapsulationRawReferenced, 0xA, 6, fun _ => rawEncRefJob⟩,
   ⟨.encapsulationRawInline, 0xA, 7, fun _ => rawEncInlineJob⟩,
   ⟨.hybridSigKeyGeneration, 0xB, 0, fun _ => hsigGenJob⟩, ⟨.hybridSign, 0xB, 1, fun _ => hsigSignJob⟩,
   ⟨.hybridVerifyReferenced, 0xB, 2, fun _ => hsigVerifyJob⟩,
   ⟨.hybridVerifyInline, 0xB, 3, fun _ => hsigInlineJob⟩, ⟨.eccKeyGeneration, 8, 0, fun _ => eccGenJob⟩,
   ⟨.eccSign, 8, 1, fun _ => eccSignJob⟩, ⟨.eccVerifyReferenced, 8, 2, fun _ => eccVerifyJob⟩,
   ⟨.eccVerifyInline, 8, 3, fun _ => eccInlineJob⟩, ⟨.keyAgreement, 8, 4, fun _ => agreementJob⟩,
   ⟨.rsaKeyGeneration, 9, 0, fun _ => rsaGenJob⟩, ⟨.rsaSignPkcs1V15, 9, 1, fun _ => rsaSignJob⟩,
   ⟨.rsaSignPss, 9, 2, fun _ => rsaPssJob⟩, ⟨.rsaVerifyV15Referenced, 9, 3, fun _ => rsaVerifyJob false⟩] ++
  [⟨.rsaVerifyPssReferenced, 9, 4, fun _ => rsaVerifyJob true⟩,
   ⟨.rsaVerifyV15Inline, 9, 5, fun _ => rsaInlineJob false⟩,
   ⟨.rsaVerifyPssInline, 9, 6, fun _ => rsaInlineJob true⟩, ⟨.oaepDecrypt, 9, 7, fun _ => oaepJob⟩,
   ⟨.gcmEncrypt, 0x10, 0, fun _ => aeadEncJob false⟩, ⟨.gcmDecrypt, 0x10, 1, fun _ => aeadDecJob false⟩,
   ⟨.gmacGenerate, 0x10, 2, fun _ => gmacGenJob⟩, ⟨.gmacVerify, 0x10, 3, fun _ => gmacVerifyJob⟩,
   ⟨.cmacGenerate, 0x10, 4, fun _ => cmacGenJob⟩, ⟨.cmacVerify, 0x10, 5, fun _ => cmacVerifyJob⟩,
   ⟨.ctr, 0x10, 6, fun _ => ctrJob⟩, ⟨.kwWrap, 0x10, 7, fun _ => kwJob false⟩,
   ⟨.kwUnwrap, 0x10, 8, fun _ => kwUnwrapJob false⟩, ⟨.kwpWrap, 0x10, 9, fun _ => kwJob true⟩,
   ⟨.kwpUnwrap, 0x10, 10, fun _ => kwUnwrapJob true⟩,
   ⟨.chacha20Poly1305Encrypt, 0x11, 0, fun _ => aeadEncJob true⟩] ++
  [⟨.chacha20Poly1305Decrypt, 0x11, 1, fun _ => aeadDecJob true⟩, ⟨.sha2Hash, 0x12, 1, fun _ => sha2Job⟩,
   ⟨.sha3Hash, 0x12, 2, fun _ => sha3Job⟩, ⟨.xof, 0x12, 3, fun _ => xofJob⟩,
   ⟨.hmacGenerate, 0x12, 4, fun _ => macGenJob⟩, ⟨.hmacVerify, 0x12, 5, fun _ => macVerifyJob⟩,
   ⟨.kmacGenerate, 0x12, 6, fun _ => macGenJob⟩, ⟨.kmacVerify, 0x12, 7, fun _ => macVerifyJob⟩,
   ⟨.hkdf, 0x13, 0, fun _ => kdfJob⟩, ⟨.hkdfExpand, 0x13, 1, fun _ => kdfJob⟩,
   ⟨.sp800108Counter, 0x13, 2, fun _ => kdfJob⟩, ⟨.sp800108Feedback, 0x13, 3, fun _ => kdfJob⟩,
   ⟨.sp800108Kmac, 0x13, 4, fun _ => kdfJob⟩, ⟨.oneStepHash, 0x13, 5, fun _ => kdfJob⟩,
   ⟨.oneStepHmac, 0x13, 6, fun _ => kdfJob⟩, ⟨.oneStepKmac, 0x13, 7, fun _ => kdfJob⟩] ++
  [⟨.sessionCreate, 0x20, 0, fun _ => createJob⟩, ⟨.sessionDestroy, 0x20, 1, fun _ => onSessionJob destroyOne⟩,
   ⟨.sessionRead, 0x20, 2, fun _ => onSessionJob readOne⟩, ⟨.rekey, 0x20, 7, fun _ => onSessionJob rekeyOne⟩,
   ⟨.seal, 0x20, 3, fun _ => onSessionJob sealOne⟩, ⟨.sessionOpen, 0x20, 4, fun _ => onSessionJob openOne⟩,
   ⟨.tagGenerate, 0x20, 5, fun _ => onSessionJob tagOne⟩,
   ⟨.tagVerify, 0x20, 6, fun _ => onSessionJob verifyOne⟩, ⟨.rngGenerate, 0x40, 0, fun _ => rngJob⟩,
   ⟨.rngGeneratePr, 0x40, 1, fun _ => rngPrJob⟩, ⟨.rngReseed, 0x40, 2, fun _ => reseedJob⟩,
   ⟨.noOp, 0x50, 0, fun _ => controlJob⟩, ⟨.clearFlags, 0x50, 1, fun _ => controlJob⟩,
   ⟨.generate, 0x30, 0, fun _ => generateJob⟩, ⟨.importKey, 0x30, 1, fun _ => importJob⟩,
   ⟨.wrap, 0x30, 2, fun _ => wrapJob⟩] ++
  [⟨.unwrap, 0x30, 3, fun _ => unwrapJob⟩, ⟨.deriveKey, 0x30, 4, fun _ => deriveJob⟩,
   ⟨(.rewrap · true), 0x30, 5, fun _ => rewrapJob true⟩,
   ⟨(.rewrap · false), 0x30, 5, fun _ => rewrapJob false⟩, ⟨.load, 0x30, 7, fun _ => loadJob⟩,
   ⟨.evict, 0x30, 8, fun _ => evictJob⟩, ⟨.readingVerify, 0x60, 0, fun _ => readingJob⟩,
   ⟨.statement, 0x60, 1, fun _ => statementJob⟩, ⟨.identify, 0x60, 2, fun _ => identifyJob⟩,
   ⟨.logRead, 0x60, 3, fun _ => logReadJob⟩]

/-- For every operation of the opcode table but DESTROY, STORE and LOAD_LIST, in every state in which job j of that
family and operation runs the last step of its plan on a computing engine and has no result: the command answers
the next state, in which the state the operation leaves has the job hold the operation's result for the collector
and its engine free for the next job. DESTROY with no commit pending on its key, STORE into groups that need not
wait, and LOAD_LIST whose reads need neither wait nor the harvest give their result as the other operations do;
while the wait lasts the command changes nothing. (R113, R129, R145, R164, R173, R175, R184, R191, R440, R444,
R446, R447) -/
def Obligations.OpcodeRowsRun : Prop :=
  (∀ row ∈ opcodeRows, ∀ (s : State) (j : Nat) (x : Job), s.Ends j row.fam row.op x →
    exec (row.cmd j) s = .next ((row.res j x s).2.produce j (row.res j x s).1)) ∧
  (∀ (s : State) (j : Nat) (x : Job),
    (s.Ends j 0x30 6 x → exec (.destroy j) s =
      .next (if s.destroyWaits x then s else (destroyJob x s).2.produce j (destroyJob x s).1)) ∧
    (s.Ends j 0x30 9 x → exec (.blobStore j) s =
      .next (if s.storeWaits x then s else (storeJob x s).2.produce j (storeJob x s).1)) ∧
    (s.Ends j 0x30 10 x → exec (.loadList j) s =
      .next (if s.listWaits x then s else (loadListJob x s).2.produce j (loadListJob x s).1)))

/-- NO_OP, whose effect is its result alone: the job holds the result OK with no output and waits for the collector;
an engine on which it ran runs no job, holds the result in a slot, and its slice is charged the time; every other
job is unchanged. (R201, R219, R220) -/
def Obligations.ResultWaitsForCollector : Prop :=
  ∀ (s : State) (j : Nat) (x : Job), s.Ends j 0x50 0 x → ∃ t, exec (.noOp j) s = .next t ∧
    (t.job? j).bind Job.computed = some {} ∧ (∀ i, i ≠ j → t.job? i = s.job? i) ∧
    (∀ e, s.runningOn j = some e → (t.engine e).running = none) ∧
    t = { s with sch := t.sch, engines := t.engines, vces := t.vces, slices := t.slices }

/-- The decapsulations, with the length of their secret: ML-KEM, HQC, Classic McEliece and the hybrid KEMs. -/
def decapsulations : List ((Nat → Instr) × Nat × Nat) :=
  [(.mlKemDecapsulation, 1, 32), (.hqcDecapsulation, 6, 64), (.mcelieceDecapsulation, 7, 32), (.hybridKemDecapsulation, 0xA, 32)]

/-- The verifications of the opcode table. -/
def verifications : List ((Nat → Instr) × Nat × Nat) :=
  [(.mlDsaVerifyReferenced, 2, 2), (.mlDsaVerifyInline, 2, 3), (.slhDsaVerifyReferenced, 3, 2), (.slhDsaVerifyInline, 3, 3),
   (.lmsVerifyReferenced, 4, 2), (.lmsVerifyInline, 4, 3), (.xmssVerifyReferenced, 5, 2), (.xmssVerifyInline, 5, 3),
   (.eccVerifyReferenced, 8, 2), (.eccVerifyInline, 8, 3), (.rsaVerifyV15Referenced, 9, 3), (.rsaVerifyPssReferenced, 9, 4),
   (.rsaVerifyV15Inline, 9, 5), (.rsaVerifyPssInline, 9, 6), (.hybridVerifyReferenced, 0xB, 2), (.hybridVerifyInline, 0xB, 3),
   (.gmacVerify, 0x10, 3), (.cmacVerify, 0x10, 5), (.hmacVerify, 0x12, 5), (.kmacVerify, 0x12, 7), (.readingVerify, 0x60, 0)]

/-- For every KEM of the part, every key and every ciphertext: a decapsulation whose destination is the host gives OK
and a secret of the KEM's length, and changes nothing else of the part than the end of its job; no ciphertext
makes it fail. Every verification of the opcode table: its status is OK or VERIFY_FAIL with DETAIL 0, it has no
output, and the part changes only in that the job ends. (R114, R123, R145, R148, R115, R129, R133, R140, R164,
R169, R173, R517) -/
def Obligations.DecapsulationsAndVerdicts : Prop :=
  (∀ row ∈ decapsulations, ∀ (s : State) (j : Nat) (x : Job), s.Ends j row.2.1 1 x → x.dest = 0 →
    ∃ b : Bytes, b.length = row.2.2 ∧ exec (row.1 j) s = .next (s.produce j { out := b })) ∧
  (∀ row ∈ verifications, ∀ (s : State) (j : Nat) (x : Job), s.Ends j row.2.1 row.2.2 x →
    exec (row.1 j) s = .next (s.produce j {}) ∨ exec (row.1 j) s = .next (s.produce j (fail .verifyFail)))

/-- AES-GCM and ChaCha20-Poly1305 decryption give OK exactly when the first TAGLEN bytes of the tag over the AAD and
the ciphertext equal the tag of the input, and KW and KWP unwrap exactly when the integrity value verifies;
otherwise they complete TAG_MISMATCH with no output. Nothing else changes than the end of the job. (R98, R172,
R173) -/
def Obligations.NothingOpensWithoutItsTag : Prop :=
  ∀ (s : State) (j : Nat) (x : Job),
    let aad := x.inp.take (leAt x.block 28 4)
    let rest := x.inp.drop (leAt x.block 28 4)
    let c := rest.take (rest.length - symTag x.block)
    let t := rest.drop (rest.length - symTag x.block)
    let ends := fun (cmd : Instr) (ok : Prop) => ∃ r : Result, exec cmd s = .next (s.produce j r) ∧
      (ok → r.status = .ok) ∧ (¬ ok → r = fail .tagMismatch)
    (s.Ends j 0x10 1 x → ends (.gcmDecrypt j) ((fit 16 (Config.gcmTag (s.bodyOf x) x.nonce aad c)).take t.length = t)) ∧
    (s.Ends j 0x11 1 x →
      ends (.chacha20Poly1305Decrypt j) ((fit 16 (Config.chachaTag (s.bodyOf x) x.nonce aad c)).take t.length = t)) ∧
    (s.Ends j 0x10 8 x → ends (.kwUnwrap j) ((Config.kwUnwrap (s.bodyOf x) x.inp).isSome = true)) ∧
    (s.Ends j 0x10 10 x → ends (.kwpUnwrap j) ((Config.kwpUnwrap (s.bodyOf x) x.inp).isSome = true))

/-- Operations whose output length the manual fixes, with that length. -/
def lengthRows : List ((Nat → Instr) × Nat × Nat × (Job → Nat)) :=
  [(.xof, 0x12, 3, fun x => x.desc.outCap), (.ctr, 0x10, 6, fun x => x.inp.length),
   (.kwWrap, 0x10, 7, fun x => x.inp.length + 8), (.kwpWrap, 0x10, 9, fun x => (x.inp.length + 7) / 8 * 8 + 8),
   (.mlDsaSign, 2, 1, fun x => ((mldsaSize x.desc.set).getD (0, 0, 0)).2.2), (.slhDsaSign, 3, 1, fun x => x.slh.2),
   (.eccSign, 8, 1, fun x => x.ecc.sig), (.rsaSignPkcs1V15, 9, 1, fun x => x.rsa), (.rsaSignPss, 9, 2, fun x => x.rsa),
   (.hybridSign, 0xB, 1, fun x => x.hsig.sigM + x.hsig.sigC)]

/-- Each listed operation gives OK with an output of exactly the stated length: an XOF OUT_CAP bytes, CTR IN_LEN
bytes, KW IN_LEN + 8, KWP IN_LEN rounded up to 8 and 8 more, and each signature the length of its parameter set;
nothing else changes than the end of the job. (R125, R131, R150, R161, R168, R172, R175) -/
def Obligations.OutputLengths : Prop :=
  ∀ row ∈ lengthRows, ∀ (s : State) (j : Nat) (x : Job), s.Ends j row.2.1 row.2.2.1 x →
    ∃ b : Bytes, b.length = row.2.2.2 x ∧ exec (row.1 j) s = .next (s.produce j { out := b })

/-- For every session with REPLAY_CHECK set and every counter c that its window takes: after the window has admitted c
it refuses c with REPLAY detail 0, and it refuses every counter that it refused before. OPEN and TAG_VERIFY on a
session of the job's slice whose window refuses the counter: REPLAY with the DETAIL of R187 and no output; of the
part, the session's count of replays and the end of the job alone change, and the window stays. (R187, R188) -/
def Obligations.ReplayWindow : Prop :=
  (∀ (y : Session) (c : Nat), y.replay = true → y.replayed c = none →
    (y.admitted c).replayed c = some 0 ∧ ∀ d, (y.replayed d).isSome = true → ((y.admitted c).replayed d).isSome = true) ∧
  (∀ (s : State) (j i d : Nat) (x : Job),
    s.sessionBy x.slice x.desc.session = some i → (s.session i).replayed (leAt x.inp 0 8) = some d →
    let r := s.onSession i fun y => { y with replays := (y.replays + 1) % 2 ^ 64 }
    (s.Ends j 0x20 4 x → exec (.sessionOpen j) s = .next (r.produce j (fail .replay d))) ∧
    (s.Ends j 0x20 6 x → exec (.tagVerify j) s = .next (r.produce j (fail .replay d))))

/-- SESSION_DESTROY of a session of the job's slice: OK with no output; the session is FREE with the next generation
modulo 4,096, so that the handle of the job names no session any more; every other session keeps its context.
(R180, R181, R184) -/
def Obligations.SessionLifeCycle : Prop :=
  ∀ (s : State) (j i : Nat) (x : Job), s.Ends j 0x20 1 x → s.sessionBy x.slice x.desc.session = some i →
    ∃ t, exec (.sessionDestroy j) s = .next t ∧ (t.job? j).bind Job.computed = some {} ∧
      (t.session i).st = .free ∧ (t.session i).gen = ((s.session i).gen + 1) % 4096 ∧
      t.sessionBy x.slice x.desc.session = none ∧ ∀ n, n ≠ i → t.session n = s.session n

/-- STATEMENT over readings that pass every check takes the next counter value within the committed range, puts it in
bytes 8 to 15 of the statement, and leaves the counter one above it; over readings that fail a check it gives
VERIFY_FAIL and the counter stays; with the range used up it gives STATEFUL_BUSY. STATEMENT_COUNTER_COMMIT that
succeeds, with a commit in progress on a part with the partition in service: the end of the range moves on by
1,024, a further commit is in progress only while 256 values or fewer remain, and nothing else differs. (R515,
R518) -/
def Obligations.StatementCounter : Prop :=
  (∀ (s : State) (j : Nat) (x : Job), s.Ends j 0x60 1 x →
    let l := readings (meterSig (s.keyOf x).alg.toNat) x.inp
    (rated l (s.keyOf x) x.tariffs = none → exec (.statement j) s = .next (s.produce j (fail .verifyFail))) ∧
    (rated l (s.keyOf x) x.tariffs ≠ none → s.mp.ctrEnd ≤ s.mp.ctrNext →
      exec (.statement j) s = .next (s.produce j (fail .statefulBusy))) ∧
    (rated l (s.keyOf x) x.tariffs ≠ none → s.mp.ctrNext < s.mp.ctrEnd →
      ∃ (t : State) (b : Bytes), exec (.statement j) s = .next (t.produce j { out := b }) ∧ cut b 8 8 = leBytes 8 s.mp.ctrNext ∧
        t.mp.ctrNext = s.mp.ctrNext + 1 ∧ t.mp.ctrEnd = s.mp.ctrEnd)) ∧
  (∀ s : State, s.mp.ctrBusy = true → s.mpInService = true →
    exec (.statementCounterCommit true) s = .next { s with mp := { s.mp with
      ctrEnd := s.mp.ctrEnd + 1024, ctrBusy := decide (s.mp.ctrEnd + 1024 - s.mp.ctrNext ≤ 256) } })

/-! The host interface (chapter 02) -/

/-- DOORBELL_POLL of a slice whose page is read, when its interval has passed, and NUDGE at the window of one of the
slices 1 to 62, on an awake part: with no read outstanding the part issues one read of the 128 bytes of the
slice's page, translated through the ATS cache where ATS is enabled, and notes the time; with one outstanding it
notes that one further read follows; nothing else differs. (R63, R64, R68, R69, R71) -/
def Obligations.DoorbellReads : Prop :=
  ∀ (s : State) (n : Nat), s.awake = true → s.dbRuns n = true →
    let t := if (s.slice n).dbReading then s.onSlice n fun x => { x with dbAgain := true }
      else (s.onSlice n fun x => { x with dbReading := true, polled := s.tim.elapsed }).request (s.pasidOf n)
        (s.pair (.dbBase n)) 128 (.doorbellRead n (s.pasidOf n) (s.pair (.dbBase n)))
    ((s.slice n).polled + s.pollInterval n ≤ s.tim.elapsed → exec (.doorbellPoll n) s = .next t) ∧
    (1 ≤ n → n ≤ 62 → exec (.nudge (n * 0x1000)) s = .next t)

/-- DOORBELL_READ_DATA with a read outstanding: every enabled SQ without an error takes its word as tail, or stops
with TAIL_RANGE where the word is not below its size, and keeps its head; every enabled CQ without an error takes
its word as head, which releases the entries from the head before up to it, or stops with HEAD_RANGE; the queues
of every other slice keep theirs. (R62, R67, R71, R85, R86, R102) -/
def Obligations.DoorbellPageArrives : Prop :=
  ∀ (s : State) (n : Nat) (ws : List Word), (s.slice n).dbReading = true →
    ∃ t, exec (.doorbellReadData n ws) s = .next t ∧
      (∀ q < 16, s.sqEn n q = true → (s.sq n q).err = false →
        let w := (dword ws q).toNat
        (t.sq n q).head = (s.sq n q).head ∧
        if w < s.sqSize n q then (t.sq n q).tail = w ∧ (t.sq n q).err = false
        else (t.sq n q).err = true ∧ (t.sq n q).cause = .tailRange ∧ (t.sq n q).tail = (s.sq n q).tail) ∧
      (∀ q < 16, s.cqEn n q = true → (s.cq n q).err = false →
        let w := (dword ws (16 + q)).toNat
        if w < s.cqSize n q then (t.cq n q).head = w ∧ (t.cq n q).err = false ∧
          (t.cq n q).unrel = (s.cq n q).unrel - (w + s.cqSize n q - (s.cq n q).head) % s.cqSize n q
        else (t.cq n q).err = true ∧ (t.cq n q).cause = .headRange) ∧
      ∀ m, m ≠ n → t.slice m = s.slice m

/-- DESCRIPTOR_ARRIVAL of one descriptor on an outstanding read of a running SQ, on an awake part with the scheduler
running, the time of the next admission reached, no descriptor of another SQ waiting for its turn, and nothing
holding its consumption: the head of the ring moves on by one, modulo its size, the SQ is the one consumed last,
the tail stays, and the job it makes carries the next admission number. (R85, R87, R194, R195, R196) -/
def Obligations.DescriptorsAreConsumed : Prop :=
  ∀ (s : State) (n q : Nat) (d : FetchedDesc), s.up = true → s.awake = true → q < 16 →
    s.sch.admitAt ≤ s.tim.elapsed → (∀ m k, (s.sq m k).fetched = []) → (s.sq n q).reading = true → 0 < s.descCount n q → s.sqRuns n q = true →
    s.schStopped = false → (s.slice n).capHold = false → s.mayConsume n q (parseDesc d.words) = true →
    ∃ t, exec (.descriptorArrival n q [d]) s = .next t ∧ (t.sq n q).head = ((s.sq n q).head + 1) % s.sqSize n q ∧
      (t.sq n q).tail = (s.sq n q).tail ∧ (t.slice n).lastSq = q ∧ t.sch.nextJob = s.sch.nextJob + 1

/-- A queue, a doorbell page or a job fails with a cause: what R60 says happens to it. -/
def accessStops (s t : State) (a : Access) (c : HCause) : Prop :=
  match a with
  | .jobPart j p => ∃ y, t.job? j = some y ∧ y.stage = .done ∧ y.result = fail .bufferFault (bufferDetail c p)
  | .descriptor n q => (t.sq n q).err = true ∧ (t.sq n q).cause = c ∧ (t.sq n q).reading = false ∧
      (t.sq n q).head = (s.sq n q).head
  | .doorbell n => (t.slice n).dbErr = true ∧ (t.slice n).dbCause = c ∧ (t.slice n).dbReading = false
  | .completion n q k => (t.cq n q).err = true ∧ (t.cq n q).cause = (if (s.cq n q).err then (s.cq n q).cause else c) ∧
      (t.cq n q).gather = (s.cq n q).sent.drop ((s.cq n q).sent.length - k) ++ (s.cq n q).gather

/-- The access is in progress: the job is not done, or its output was written, with OK or as the zeros
of TAG_MISMATCH; the entries of a completion write were written and are not yet released. -/
def accessRuns (s : State) (a : Access) : Prop :=
  match a with
  | .jobPart j p => ∃ x, s.job? j = some x ∧ (x.stage ≠ .done ∨ (p = .output ∧ (x.result.status = .ok ∨ x.result.status = .tagMismatch)))
  | .descriptor n q => (s.sq n q).reading = true
  | .doorbell n => (s.slice n).dbReading = true
  | .completion n q k => 0 < k ∧ k ≤ (s.cq n q).sent.length

/-- HOST_ACCESS_FAIL of an access in progress with a cause that R59 gives for its completion, or of a request that a
translation denied before it was issued, and COMPLETION_TIMEOUT of a read that has been outstanding for the time
of the Completion Timeout Value, with the timeout enabled: the job of a job's access is DONE with BUFFER_FAULT and
the DETAIL of part and cause; a descriptor read stops its SQ, a doorbell read stops polling and nudges of its
slice, and a completion write stops its CQ, which holds the entries from the failed one on ahead of those gathered
later, and keeps its first cause where it was stopped already. SQ_ERR_CLEAR, CQ_ERR_CLEAR and DB_ERR_CLEAR of a
stopped queue or doorbell on a part that takes the write: ERR and the cause are clear afterwards, and the rings
keep their places. (R59, R60, R104, R684, R61, R501) -/
def Obligations.FailedAccesses : Prop :=
  (∀ (s : State) (a : Access) (c : HCause), accessRuns s a →
    (failCause c a.isRead = true → ∃ t, exec (.hostAccessFail a c) s = .next t ∧ accessStops s t a c) ∧
    (s.hif.denied.any (s.requestOf a) = true →
      ∃ t, exec (.hostAccessFail a .translation) s = .next t ∧ accessStops s t a .translation) ∧
    (a.isRead = true → s.hif.noTimeout = false →
      (s.issuedAt a).any (fun t => decide (t + timeoutNs s.hif.timeout ≤ s.tim.elapsed)) = true → ∃ t, exec (.completionTimeout a) s = .next t ∧ accessStops s t a .timeout)) ∧
  (∀ (s : State) (n q : Nat), q < 16 →
    (s.Takes (Reg.sqStatus n q).addr → (s.sq n q).err = true → ∃ t, exec (.sqErrClear n q) s = .next t ∧
      (t.sq n q).err = false ∧ (t.sq n q).cause = .none ∧ (t.sq n q).head = (s.sq n q).head ∧ (t.sq n q).tail = (s.sq n q).tail) ∧
    (s.Takes (Reg.cqStatus n q).addr → (s.cq n q).err = true → ∃ t, exec (.cqErrClear n q) s = .next t ∧
      (t.cq n q).err = false ∧ (t.cq n q).cause = .none ∧ (t.cq n q).gather = [] ∧ (t.cq n q).head = (s.cq n q).head) ∧
    (s.Takes (Reg.dbStatus n).addr → (s.slice n).dbErr = true → ∃ t, exec (.dbErrClear n) s = .next t ∧
      (t.slice n).dbErr = false ∧ (t.slice n).dbCause = .none))

/-- On a part that takes the write, in an ACTIVE slice: CQ_ENABLE of a disabled CQ with no reserved encoding puts the
set-up in effect and starts the ring at 0 with phase 1; SQ_ENABLE of a disabled SQ whose CQ is enabled, with PROT
only where the slice permits it, starts its ring at 0; SQ_DISABLE of an enabled SQ with its other fields as they
are clears EN and ends its reads; CQ_DISABLE does so for a CQ that no enabled SQ names. (R74, R76, R79, R80, R81,
R82, R493) -/
def Obligations.QueueSetUp : Prop :=
  ∀ (s : State) (n q : Nat) (v : Word), q < 16 → s.wakeUp.sliceState n = .active →
    let w := s.wakeUp
    (s.Takes (Reg.cqCfg n q).addr → bitAt v 31 = true → bitAt (w.reg (.cqCfg n q)) 31 = false →
      w.reservedFor (.cqCfg n q) (v &&& (Reg.cqCfg n q).mask) = false →
      ∃ t, exec (.cqEnable n q v) s = .next t ∧ t.reg (.cqCfg n q) = v &&& (Reg.cqCfg n q).mask ∧
        (t.cq n q).tail = 0 ∧ (t.cq n q).head = 0 ∧ (t.cq n q).phase = true ∧ (t.cq n q).err = false) ∧
    (s.Takes (Reg.sqCfg n q).addr → bitAt v 31 = true → bitAt (w.reg (.sqCfg n q)) 31 = false →
      w.reservedFor (.sqCfg n q) (v &&& (Reg.sqCfg n q).mask) = false → w.cqEn n (fld v 19 16) = true →
      (bitAt v 30 = true → bitAt (w.reg (.perm n)) 0 = true) →
      ∃ t, exec (.sqEnable n q v) s = .next t ∧ t.reg (.sqCfg n q) = v &&& (Reg.sqCfg n q).mask ∧ t.sq n q = {}) ∧
    (s.Takes (Reg.sqCfg n q).addr → bitAt (w.reg (.sqCfg n q)) 31 = true →
      v = w.reg (.sqCfg n q) &&& 0x7FFFFFFF → w.reservedFor (.sqCfg n q) (v &&& (Reg.sqCfg n q).mask) = false →
      ∃ t, exec (.sqDisable n q v) s = .next t ∧ bitAt (t.reg (.sqCfg n q)) 31 = false ∧ (t.sq n q).reading = false) ∧
    (s.Takes (Reg.cqCfg n q).addr → bitAt (w.reg (.cqCfg n q)) 31 = true →
      v = w.reg (.cqCfg n q) &&& 0x7FFFFFFF → w.reservedFor (.cqCfg n q) (v &&& (Reg.cqCfg n q).mask) = false →
      (∀ k < 16, w.sqEn n k = true → w.cqOf n k ≠ q) →
      ∃ t, exec (.cqDisable n q v) s = .next t ∧ bitAt (t.reg (.cqCfg n q)) 31 = false)

/-- COALESCE_TIMEOUT of a CQ without an error writes the entries gathered for it once the oldest is as old as HIF_COAL
has it, and they are gathered no more; entries that lie within one aligned block of 128 bytes go out in one write
at TAIL, with the phase of the ring and the heads of their SQs, TAIL moves on by as many, modulo the size, and the
phase turns where the ring wraps. MODERATION_AGE of a CQ with interrupts enabled and TIME_US not 0, whose oldest
unannounced entry has reached its age, leaves none unannounced and sends the message of the vector of the CQ, or
sets its pending bit where it is masked. VECTOR_UNMASK clears the mask, sends the message that was pending and
clears its bit, and leaves the other vectors. ATS_INVALIDATION on a READY part with its link up discards the
cached translations of the pages of its range, keeps the others, and is completed; a part in SLEEP wakes for it.
(R53, R56, R57, R100, R101, R103, R654) -/
def Obligations.EntriesAndMessages : Prop :=
  (∀ (s : State) (n q : Nat), (s.cq n q).gather ≠ [] → (s.cq n q).err = false →
    (s.cq n q).since + fld (s.reg .hifCoal) 10 0 ≤ s.tim.elapsed →
    let c := s.cq n q
    ∃ t, exec (.coalesceTimeout n q) s = .next t ∧ (t.cq n q).gather = [] ∧ (∃ o, t.out = s.out ++ o ∧ o ≠ []) ∧
      (c.tail % 4 + c.gather.length ≤ 4 → c.tail + c.gather.length ≤ s.cqSize n q →
        let a := s.pair (.cqBase n q) + 32 * c.tail
        let o : Out := .cqWrite n q (s.pasidOf n) a (c.gather.map fun x => x.words' (s.sq n x.sq).head c.phase)
        (t.cq n q).sent = c.sent ++ c.gather ∧
        (t.cq n q).tail = (c.tail + c.gather.length) % s.cqSize n q ∧
        (t.cq n q).phase = (if c.tail + c.gather.length = s.cqSize n q then !c.phase else c.phase) ∧
        ∃ l, t.out = (s.request (s.pasidOf n) a (32 * c.gather.length) o).out ++ l ∧ l.length ≤ 1)) ∧
  (∀ (s : State) (n q : Nat), fld (s.reg (.cqMod n q)) 9 0 ≠ 0 → bitAt (s.reg (.cqCfg n q)) 30 = true →
    (s.cq n q).unsig ≠ 0 → (s.cq n q).oldest + fld (s.reg (.cqMod n q)) 9 0 * 1000 ≤ s.tim.elapsed →
    let v := fld (s.reg (.cqCfg n q)) 26 16
    ∃ t, exec (.moderationAge n q) s = .next t ∧ (t.cq n q).unsig = 0 ∧
      if (s.msix v).mask then t.out = s.out ∧ mapGet false t.hif.pba v = true
      else t.out = s.out ++ [.message v ((s.msix v).lo.toNat / 4 * 4 + 2 ^ 32 * (s.msix v).hi.toNat) (s.msix v).data]) ∧
  (∀ (s : State) (v : Nat), s.up = true → v < 2048 →
    ∃ t, exec (.vectorUnmask v) s = .next t ∧ t.msix v = { s.msix v with mask := false } ∧
      t.out = s.out ++ (if mapGet false s.hif.pba v then
        [.message v ((s.msix v).lo.toNat / 4 * 4 + 2 ^ 32 * (s.msix v).hi.toNat) (s.msix v).data] else []) ∧
      mapGet false t.hif.pba v = false ∧
      ∀ i, i ≠ v → t.msix i = s.msix i ∧ mapGet false t.hif.pba i = mapGet false s.hif.pba i) ∧
  (∀ (s : State) (p : Nat) (r : PageRange), s.up = true → s.hif.linkUp = true → exec (.atsInvalidation p r) s = .next { s.wakeUp with
    hif := { s.wakeUp.hif with
      cache := s.hif.cache.filter fun c => !(c.1 = p && r.page ≤ c.2.1 && c.2.1 < r.page + r.pages) }
    out := s.wakeUp.out ++ [.atsDone] })

/-! Registers (chapter 01) -/

/-- BAD_ACCESS on a READY part: a write changes nothing but that the event of class 0x4 with the offset and detail 0
(size or alignment) is recorded; a read is answered with 0x0000_0000 beside that event. (R18) -/
def Obligations.BadAccesses : Prop :=
  ∀ (s : State) (off : Nat), s.up = true →
    let t := s.wakeUp.event 4 srcHif 0 0 0xFF (leBytes 4 off ++ leBytes 1 0)
    exec (.badAccess off true) s = .next t ∧ exec (.badAccess off false) s = .next { t with out := t.out ++ [.readReply 0] }

/-- The pairs that a write of their high half puts in effect at once (R20). -/
def plainPairs : List (Bool → Reg) := [.commitAt, .pkgAddr, .ownerAddr, .clrUpto, .mpAddr]

/-- For each pair that nothing freezes, on a part that takes the writes: after a write of NAME_LO alone the pair in
effect is as before; a write of NAME_HI then makes the pair the high half written beside the low half, whether or
not NAME_LO was written since the last write of NAME_HI; no other register in effect changes. (R20) -/
def Obligations.RegisterPairs : Prop :=
  ∀ f ∈ plainPairs, ∀ (s : State) (lo hi : Word), s.Takes (f false).addr → s.Takes (f true).addr → s.pwr.st ≠ .sleep →
    (∃ t u, exec (.registerWrite (f false).addr lo) s = .next t ∧ t.pair f = s.pair f ∧ t.regs = s.regs ∧
      exec (.registerWrite (f true).addr hi) t = .next u ∧ u.pair f = lo.toNat + 2 ^ 32 * hi.toNat ∧
      (∀ r : Reg, r.addr ≠ (f false).addr → r.addr ≠ (f true).addr → u.reg r = s.reg r) ∧
      ∃ w, exec (.registerWrite (f true).addr 0) u = .next w ∧ w.pair f = lo.toNat)

/-- NAME_LO_READ of a 64-bit value x, of a block or of an engine, on a READY, awake part that answers the offset: the
reply is the low half of x (for a pair of R20, the low half written last), and the next read of NAME_HI, at
whatever the value has become since, is answered with the upper half of x as it was at that moment, and takes the
captured half. (R21) -/
def Obligations.CapturedHalf : Prop :=
  ∀ (s : State) (off x : Nat), s.up = true → s.pwr.st ≠ .sleep → s.ended = false → off % 8 = 0 →
    (s.wide off = some x ∨ ∃ e, (s.engine e).unit ≠ .absent ∧
      ((engineAt off = some (e, 0x20) ∧ x = (s.engine e).jobs) ∨ (engineAt off = some (e, 0x28) ∧ x = s.busyOf e))) →
    (regAt off = none ∨ s.mpInService = false → mapFind s.loHeld off = none) →
    ∃ t, exec (.nameLoRead off) s = .next t ∧
      t.out = s.out ++ [.readReply ((mapFind s.loHeld off).getD (loHalf x))] ∧
      ∀ u : State, u.loCap = t.loCap → u.up = true → u.pwr.st ≠ .sleep → u.ended = false →
        u.mpInService = s.mpInService → ∃ w, exec (.nameLoRead (off + 4)) u = .next w ∧
          w.out = u.out ++ [.readReply (hiHalf x)] ∧ mapFind w.loCap off = none

/-- For every RWS register on a part that takes the write: a companion write of another value than the inverse of the
held one, 64 FABCLK cycles without it (SHADOW_WINDOW_EXPIRY), and a companion write with nothing held each leave
nothing held and nothing accepted, and fire the event of monitor 15 with the offset; nothing else changes. (R23) -/
def Obligations.ShadowMismatch : Prop :=
  ∀ (s : State) (r : Reg) (v u : Word) (h : Nat), r.isRws = true → regAt r.addr = some r →
    regAt (r.addr + 4) = some (.inv r.addr) →
    (s.Takes (r.addr + 4) → mapFind s.wakeUp.held r.addr = some (v, h) → s.wakeUp.tim.elapsed ≤ h + 64 → u ≠ ~~~v →
      exec (.registerWrite (r.addr + 4) u) s =
        .next (({ s.wakeUp with held := mapErase s.wakeUp.held r.addr }).shadow (r.addr + 4))) ∧
    (mapFind s.held r.addr = some (v, h) → h + 64 ≤ s.tim.elapsed →
      exec (.shadowWindowExpiry r.addr) s = .next (({ s with held := mapErase s.held r.addr }).shadow r.addr)) ∧
    (s.Takes (r.addr + 4) → mapFind s.wakeUp.held r.addr = none →
      exec (.registerWrite (r.addr + 4) u) s = .next (s.wakeUp.shadow (r.addr + 4)))

/-- For every RWS register on an awake part that takes the writes: a first write is held and changes nothing in
effect; the inverse within 64 FABCLK cycles makes the command wait to be carried out and holds nothing more, where
its encoding is not reserved, its block not busy, and, of SLC_CTRL, its CMD one that R490 lists; another CMD of
SLC_CTRL leaves no command waiting and sets BAD_STATE. (R22, R24, R27, R492) -/
def Obligations.ShadowedWrites : Prop :=
  ∀ (s : State) (r : Reg) (v : Word), r.isRws = true → regAt r.addr = some r → regAt (r.addr + 4) = some (.inv r.addr) →
    s.Takes r.addr → s.Takes (r.addr + 4) → s.pwr.st ≠ .sleep → mapFind s.held r.addr = none →
    let t := { s with held := mapInsert s.held r.addr (v, s.tim.elapsed) }
    exec (.registerWrite r.addr v) s = .next t ∧
    (s.reservedFor r (v &&& r.mask) = false → s.commandBlocked r = false →
      (∀ n, r = .slcCtrl n → outside 1 5 (fld (v &&& r.mask) 31 28) = false) →
      ∃ u, exec (.registerWrite (r.addr + 4) (~~~v)) t = .next u ∧ mapFind u.accepted r.addr = some (v &&& r.mask) ∧
        mapFind u.held r.addr = none ∧ u = { s with held := u.held, accepted := u.accepted, regs := u.regs }) ∧
    ∀ n, r = .slcCtrl n → s.commandBlocked r = false → outside 1 5 (fld (v &&& r.mask) 31 28) = true →
      ∃ u, exec (.registerWrite (r.addr + 4) (~~~v)) t = .next u ∧ mapFind u.accepted r.addr = none ∧
        mapFind u.held r.addr = none ∧ (u.slice n).badState = true

/-- REGISTER_WRITE of a plain register on an awake part that takes it: the register reads the value written, in the
bits it has, and every other register is unchanged; a reserved encoding changes no register and is recorded as a
configuration event. SNAP_SET_WRITE does the same for the registers of a snapshot set and records SNAP_CHANGED.
RWC_WRITE of a staged register on an awake part that takes it, with no commit armed, room in the table and no
reserved encoding: the value waits in the staging table, the commit is STAGED, and the register in effect is
unchanged. (R22, R27, R493, R574, R575, R19, R628) -/
def Obligations.PlainAndStagedWrites : Prop :=
  (∀ (s : State) (n q i k : Nat) (v : Word), s.pwr.st ≠ .sleep →
    (∀ r ∈ [Reg.hifCoal, .schPoll, .schIdlePoll, .evrFlood, .rngWaitLimit, .limit n, .mvec n, .cqMod n q],
      regAt r.addr = some r → s.Takes r.addr → (∀ m, r.sliceOf = some m → s.present m = true) →
      exec (.registerWrite r.addr v) s = .next (if s.reservedFor r (v &&& r.mask)
        then s.event 0xA (blockSrc r.addr) 0 (r.sliceOf.getD 0)
        else { s with regs := mapSet r.reset s.regs r.addr (v &&& r.mask) })) ∧
    ∀ r ∈ [Reg.snapCtrl i, .snapMatch i, .snapReg i k], regAt r.addr = some r → s.Takes r.addr →
      s.reservedFor r (v &&& r.mask) = false →
      exec (.snapSetWrite r.addr v) s = .next
        (({ s with regs := mapSet r.reset s.regs r.addr (v &&& r.mask) }).event 0xD srcEvr 7 0 0xFF (leBytes 1 i))) ∧
  (∀ (s : State) (r : Reg) (v : Word), r.isRwc = true → regAt r.addr = some r → s.Takes r.addr → s.pwr.st ≠ .sleep →
    (∀ n, r.sliceOf = some n → s.present n = true) → s.nvm.commit ≠ .armed → s.nvm.staging.length < 512 →
    s.reservedFor r (v &&& r.mask) = false →
    exec (.rwcWrite r.addr v) s = .next { s with
      nvm := { s.nvm with staging := mapInsert s.nvm.staging r.addr (v &&& r.mask), commit := .staged } })

/-! The scheduler (chapter 05) -/

/-- The job READY from its wait, the steps that depend on nothing with it (R198, R201). -/
def readied (x : Job) : Job := ({ x with stage := .active }).wake

/-- For a job of the table: SCRATCH_ALLOCATED gives the oldest waiting job its area, and it goes on from KEYLOAD, or
from HELD where nothing else holds it, as a job whose NOT_BEFORE_REACHED on a tick ends its wait does; EXPIRY_TICK
on a tick completes a job with TIMED_OUT if its flag wait is open, with DEADLINE_MISSED if it has not started, and
otherwise drops the expiry; KEYLOAD_DONE of a job that has no key yet reads the rest of the blob from the host and
takes it, where it holds no secret or the share instance can serve, or takes it from the window, whose groups are
opened; ENTROPY_AVAILABLE makes a waiting job READY, a job that takes a fresh block with its block, and one that
needs no engine reads its input; ENTROPY_WAIT_LIMIT on a tick makes it READY where its randomness has come by
then, and else completes it with ENTROPY_UNAVAILABLE, or DEADLINE_MISSED where its expiry has come too. (R198,
R200, R238, R239, R240, R427, R431, R476, R477) -/
def Obligations.PathToReady : Prop :=
  ∀ (s : State) (j : Nat) (x : Job), s.job? j = some x →
    (x.needScratch = true → (∀ e ∈ s.sch.jobs, e.1 < j → e.2.needScratch = false) →
      let t := s.putJob j { x with needScratch := false, scratch := true }
      exec (.scratchAllocated j) s = .next (if x.stage = .keyload then t.toReady j else t.passOne j)) ∧
    (∀ k, s.onTick = true → x.stage = .held → x.notBefore = some k → k ≤ s.us →
      exec (.notBeforeReached j) s = .next ((s.putJob j { x with notBefore := none }).passOne j)) ∧
    (∀ k, s.onTick = true → x.stage ≠ .done → x.expiry = some k → k ≤ s.us → ∃ t y, exec (.expiryTick j) s = .next t ∧
      t.job? j = some y ∧ (if x.waitFlags then y.stage = .done ∧ y.result = fail .timedOut
        else if x.started then y = { x with expiry := none }
        else y.stage = .done ∧ y.result = fail .deadlineMissed)) ∧
    (∀ b a, x.stage = .keyload ∨ x.loadWaits = true → x.key = none → keyForm x.desc.keyref = .host a →
      let b' := b.take (80 + leAt b 36 4)
      let y := { x with readAt := none }
      let t := (if x.harvestWait then s else s.jobRead j x.slice (a + 64) (16 + leAt b 36 4)).putJob j y
      (algKind (leAt b' 6 2) = 1 ∨ t.canServe 4 = true) → exec (.keyloadDone j b) s = .next (t.takeBlob j y b')) ∧
    (∀ b off, x.stage = .keyload ∨ x.loadWaits = true → x.key = none → keyForm x.desc.keyref = .window off →
      let r := s.blobRange x.slice off
      s.groupsWait r.1 r.2 = false → exec (.keyloadDone j b) s =
        .next (((s.openGroups r.1 r.2).noteRead r.1 r.2).blobArrives j x (s.windowBlob x.slice off))) ∧
    (x.stage = .entropyWait → x.harvestWait = false →
      let reads := fun (t : State) => if x.steps.all fun p => p.cls.isNone then t.readInput j x else t
      (x.takesFresh = false → s.canRun x = true → exec (.entropyAvailable j) s = .next (reads (s.putJob j (readied x)))) ∧
      (x.takesFresh = true → (∃ g ∈ s.rng.granted, g.1 = j) →
        exec (.entropyAvailable j) s = .next (reads (s.putJob j (readied x)))) ∧
      ∀ b l, x.takesFresh = true → (∀ g ∈ s.rng.granted, g.1 ≠ j) → s.rng.ready = true → s.rng.pool = b :: l →
        nextFresh s.rng.waiting = some (.job j x.prot) → exec (.entropyAvailable j) s =
          .next (reads (({ s with rng := { s.rng with
            pool := l, waiting := dropReq s.rng.waiting (.job j x.prot)
            granted := s.rng.granted ++ [(j, b)] } }).putJob j (readied x)))) ∧
    ((x.stage = .entropyWait ∧ x.harvestWait = false) ∨ (x.loadWaits = true ∧ s.canServe 4 = false) →
      x.waitUntil ≤ s.tim.elapsed → s.onTick = true →
      (s.entropyFor j x = none → ∃ t y, exec (.entropyWaitLimit j) s = .next t ∧ t.job? j = some y ∧ y.stage = .done ∧
        y.result = fail (if x.expiry.any (· ≤ s.us) then .deadlineMissed else .entropyUnavailable)) ∧
      ∀ t, s.entropyFor j x = some t → exec (.entropyWaitLimit j) s = .next t)

/-- DISPATCH_DECISION for an engine whose incoming slot is empty stages the step that R203 chooses, and for a full one
the step that displaces under R206; a protection-class step held behind the running job of a reserved engine moves
to an engine that runs nothing (R223). No other engine changes where the slot was empty. INPUT_STAGED keeps the
input and, where the instances of the job serve and no slot it reads is lost, draws the randomness of the attempt
and marks every slot of the job as loaded; where a key slot that KEY reads for it, its own first, meets an
uncorrectable error, that slot is lost and the job completes KEY_STATE. JOB_START begins a step on the engine that
holds it, where its save image need not wait and no lend is before it, or a step that needs none, and the job
counts as started. STREAM_ROW_ARRIVAL adds the next row while fewer lie unreleased than the window has; HASH_LEND
of a job whose message exceeds 1 KiB, to an awake HSE that is free and not reserved against it, makes the job wait
and gives the HSE the hash with the time at which it ends, its input beyond the first 1,024 bytes being read.
(R199, R203, R206, R219, R223, R272, R275, R278, R314, R397, R432, R681) -/
def Obligations.DispatchAndStart : Prop :=
  (∀ (s : State) (e j k : Nat) (x : Job) (p : PStep), s.up = true → s.awake = true → s.schStopped = false →
    (s.engine e).takes = true → s.swapWaits e = false → s.rbUsed < 65536 → s.job? j = some x → x.steps[k]? = some p →
    (s.movesTo e = none → s.slotEmpty e = true → s.choose e = some (j, k) → ∃ t y, exec (.dispatchDecision e) s = .next t ∧
      (t.engine e).incoming = some (j, k) ∧ (t.engine e).loaded = false ∧ (∀ i, i ≠ e → t.engine i = s.engine i) ∧
      t.job? j = some y ∧ y.steps[k]? = some { p with
        st := .staged, engine := e, stagedAt := s.tim.elapsed, restore := p.restore || decide (p.st = .suspended) }) ∧
    (s.movesTo e = none → s.slotEmpty e = false → s.displaces e = some (j, k) →
      ∃ t, exec (.dispatchDecision e) s = .next t ∧
        (t.engine e).incoming = some (j, k) ∧ (t.engine e).loaded = false) ∧
    (∀ i, s.movesTo e = some (i, j, k) → ∃ t, exec (.dispatchDecision e) s = .next t ∧
      (t.engine e).incoming = some (j, k) ∧ (t.engine i).incoming = none)) ∧
  (∀ (s : State) (j : Nat) (x : Job) (d : StagedData), s.job? j = some x → x.stage ≠ .done → x.stage ≠ .held →
    (∀ y : Job, y = { x with input := some (fit x.desc.inLen d.input), subject := d.subject, readAt := none } →
      (d.keyBad = false ∧ d.otherBad = false ∨ s.slotsRead x = []) → y.subjectRead = [] →
      (∀ i ∈ (s.putJob j y).slotsRead y, (s.slot i).lost = false) → (s.putJob j y).deliverable y = true →
      ∃ t z, exec (.inputStaged j d) s = .next t ∧ t.job? j = some z ∧
        z = { y with drawn := z.drawn, rand := z.rand, seeds := z.seeds, blind := z.blind, rawMask := z.rawMask } ∧
        (∀ e < 71, (s.engine e).incoming.map (·.1) = some j → (t.engine e).loaded = true) ∧
        ∀ e, (t.engine e).incoming = (s.engine e).incoming) ∧
    ∀ i, (d.keyBad = true ∧ (s.slotsRead x).head? = some i) ∨
        (d.keyBad = false ∧ d.otherBad = true ∧ (s.slotsRead x).getLast? = some i) →
      ∃ t y, exec (.inputStaged j d) s = .next t ∧ t.job? j = some y ∧
        y.stage = .done ∧ y.result = fail .keyState ∧ t.slot i = (s.slot i).wiped) ∧
  (∀ (s : State) (j k : Nat) (x : Job) (p : PStep), s.job? j = some x → x.steps[k]? = some p → s.awake = true →
    s.schStopped = false → x.stage = .active → (s.canRun x = true ∨ x.drawn = true) → x.waitCommit = false → x.desc.fam ≠ 4 → x.desc.fam ≠ 5 →
    x.desc.fam ≠ 0x20 → (p.restore = true → ∀ a ∈ x.areas, a.bad = none) → s.imageWaits k x = false →
    (x.prot = true ∨ s.lendFirst p.engine = false) →
    (p.cls ≠ none → (s.engine p.engine).incoming = some (j, k) → (s.engine p.engine).mayStart = true →
      (s.engine p.engine).freeSlot ≠ none → ∃ t y, exec (.jobStart j k) s = .next t ∧
        (t.engine p.engine).running = some (j, k) ∧ (t.engine p.engine).incoming = none ∧ t.job? j = some y ∧
        y.started = true ∧ y.attempts = max 1 x.attempts ∧ (y.steps[k]?).map PStep.st = some .running) ∧
    (p.cls = none → p.st = .ready → (x.desc.inLen = 0 ∨ x.input ≠ none) → s.rbWaits j x = false →
      ∃ t y, exec (.jobStart j k) s = .next t ∧ t.job? j = some y ∧ y.started = true ∧
        (y.steps[k]?).map PStep.st = some .running)) ∧
  ∀ (s : State) (e h j k : Nat) (bits : Row),
    ((s.vce e).streaming = true → (s.vce e).arrived < (s.vce e).released + (s.vce e).ctx.windowRows →
      (s.vce e).arrived < ceilDiv (s.vce e).ctx.inLen 576 →
      ∃ t, exec (.streamRowArrival e bits) s = .next t ∧ (t.vce e).arrived = (s.vce e).arrived + 1 ∧
        (t.vce e).row (1000 + (s.vce e).arrived) = { bits := bits } ∧ t = { s with vces := t.vces }) ∧
    ∀ (x : Job) (m pk : Bytes), clsOf e = .vce → clsOf h = .hse → h < 52 → (s.engine e).running = some (j, k) →
      s.job? j = some x → x.stage = .active → s.lentMessage x = some (m, pk) → 1024 < m.length → (s.vce e).mu = [] →
      (s.engine h).takes = true → (s.engine h).gated = false → (s.engine h).thawing = false →
      (s.engine h).running = none → (s.engine h).lend = none → (x.prot = true ∨ s.reserved h = false) →
      (∀ i < 71, (s.engine i).lend.map (·.1) ≠ some e) →
      ∃ t, exec (.hashLend e h) s = .next t ∧ (t.vce e).lent = true ∧
        (t.engine h).lend = some (e, s.tim.elapsed + ceilDiv (4 * 12 * ceilDiv (m.length - 1024) 136) 5,
          muOf pk (if x.desc.fam = 2 then x.mPrime m else pureMessage x.binding m)) ∧
        t.out = (s.jobReads j x.slice (rangesFrom x.inSegs (x.inp.length - m.length + 1024))).out ∧
        (∀ i, i ≠ h → t.engine i = s.engine i) ∧ ∀ i, i ≠ e → t.vce i = s.vce i

/-- SAFE_POINT_STOP on an engine that runs a job and is at a safe point: an abort that is due completes the job with
its result, and one by which a quiesced or contained slice ends is counted; without one, and with no run limit
reached or in a wait, a stop asked for by HALT begins a save while an area is free, on a CDE where the safe point
is a round boundary: the job holds an area that no other holds, and a VCE enters SAVE with its resume address
kept. SAVE_DONE, once the group of its save area need not wait, leaves the engine free, its save ended, the image
in its save area, and the step SUSPENDED to be restored. (R202, R222, R223, R225, R226, R283, R284, R358, R372,
R395, R497) -/
def Obligations.SafePointsAndSaves : Prop :=
  ∀ (s : State) (e j k : Nat) (x : Job), (s.engine e).running = some (j, k) → s.job? j = some x →
    (∀ r b, s.atSafePoint e = true → x.stage ≠ .done → x.abort = some r → ∃ t y, exec (.safePointStop ⟨e, b⟩) s = .next t ∧
      t.job? j = some y ∧ y.stage = .done ∧
      y.result = (if r.status = .abortedTamper then { r with detail := max r.detail s.response } else r) ∧
      (t.slice x.slice).aborted =
        if r.status = .sliceQuiesced ∨ (r.status = .abortedTamper ∧ (s.slice x.slice).st = .quiescing) then
          sat 0xFFFF ((s.slice x.slice).aborted + 1) else (s.slice x.slice).aborted) ∧
    (∀ b, s.atSafePoint e = true → x.stage ≠ .done → x.abort = none → x.computed = none → (s.engine e).saving = false →
      (s.limitReached e (s.vce e) = false ∨ (s.vce e).waiting = true ∨ (s.vce e).lent = true) → (clsOf e = .cde → b = true) → (s.engine e).stopReq = true →
      s.areasUsed e < (s.saveAreas (clsOf e = .cde)).1 → s.freeArea e ∉ s.areasTaken (clsOf e = .cde) ∧
        ∃ t, exec (.safePointStop ⟨e, b⟩) s = .next t ∧ (t.engine e).saving = true ∧
        (t.engine e).running = some (j, k) ∧
        t.job? j = some { x with areas :=
          x.areas ++ [{ step := k, cde := decide (clsOf e = .cde), num := s.freeArea e }] } ∧
        (clsOf e = .vce → (t.vce e).upc = 0x80 ∧ (t.vce e).resume = (s.vce e).upc)) ∧
    (∀ p, (s.engine e).saving = true → x.steps[k]? = some p → s.imageWaits k x = false → ∃ t y, exec (.saveDone e) s = .next t ∧
      (t.engine e).running = none ∧ (t.engine e).saving = false ∧ t.job? j = some y ∧
      y.steps[k]? = some { p with st := .suspended, engine := 0, restore := true } ∧
      (if clsOf e = .vce then mapFind t.cmc.saves j = some
          ((s.vce e).image (engCycles (s.tim.elapsed - (s.engine e).since)))
        else mapFind t.cmc.buffers j = some (s.engine e).cur))

/-- JOB_RESULT of a job with a result, of no engine or of the port the round-robin serves now: the job is DONE and
stamped with station time, an output beyond OUT_CAP turns into OUT_TOO_SMALL; with OK the rest of the output is
written, with TAG_MISMATCH what had been written is overwritten with zeros, and else no memory is written; a job
of no engine shows ENGINE 0x7E. FROST_DONE ends the frosting of a DONE job that no engine runs any more and frees
its result slots. FLOW_RELEASE issues the entry of a releasable job, which leaves the table and requests its
flags, and changes nothing for a job that is not releasable. RB_ENTRY_FREE gives a free entry to the earliest DONE
job that needs one. INTERNAL_FLAG_SET ends an intermediate step that computes, where a public key it leaves finds
its lines, frees its engine and readies the steps that waited for it alone. (R49, R98, R201, R220, R227, R228,
R229, R233) -/
def Obligations.CollectorAndRelease : Prop :=
  ∀ (s : State) (j : Nat) (x : Job), s.job? j = some x →
    (∀ r, x.stage = .active → x.computed = some r →
      (∀ e, s.resultOn j = some e → s.nextPort = some e ∧ s.waitingResult e = some j) →
      ∃ t y, exec (.jobResult j) s = .next t ∧ t.job? j = some y ∧ y.stage = .done ∧ y.stamp = s.now ∧
        y.result = (if r.status = .ok ∧ x.desc.outCap < r.out.length then { status := .outTooSmall, need := r.out.length }
          else { r with key := [] }) ∧ (s.resultOn j = none → y.engineCode = 0x7E) ∧
        t.out = (match y.result.status with
          | .ok => s.writeOut x x.wrote (r.out.drop x.wrote)
          | .tagMismatch => s.writeOut x 0 (zeros x.wrote)
          | _ => s).out) ∧
    (x.stage = .done → x.frosted = false → s.runningOn j = none → ∃ t, exec (.frostDone j) s = .next t ∧
      t.job? j = some { x with frosted := true } ∧ ∀ e < 71, ∀ r ∈ (t.engine e).results, r.1 ≠ j) ∧
    (s.releasable j x = true → ∃ t, exec (.flowRelease j) s = .next t ∧ t.job? j = none ∧
      (x.desc.setev = true → x.desc.opc ≠ 0x5010 →
        ⟨true, flagMask x.desc.evgroup x.desc.evset⟩ ∈ (t.slice x.slice).flagReqs)) ∧
    (s.releasable j x = false → exec (.flowRelease j) s = .next s) ∧
    (∀ l r, s.sch.jobs = l ++ (j, x) :: r →
      (∀ e ∈ l, ¬(e.2.stage = .done ∧ e.2.rbEntry = false ∧ s.flowAhead e.1 e.2 = true)) →
      x.stage = .done → x.rbEntry = false → s.flowAhead j x = true → s.rbUsed < 65536 →
      exec .rbEntryFree s = .next (s.putJob j { x with rbEntry := true })) ∧
    ∀ k p, s.awake = true → x.stage = .active → x.computed = none → x.waitCommit = false → x.steps[k]? = some p → p.st = .running →
      1 < x.unfinished.length → s.stepComputes x k = true →
      (s.pubStep x k = true → (s.holdPub (x.key.getD 0)).1 = 0) → ∃ t y, exec (.internalFlagSet j k) s = .next t ∧
        t.job? j = some y ∧ (y.steps[k]?).map PStep.st = some .finished ∧
        ((s.engine p.engine).running = some (j, k) → (t.engine p.engine).running = none) ∧
        ∀ i q, i ≠ k → x.steps[i]? = some q → q.st = .blocked →
          (∀ d ∈ q.deps, d = k ∨ (x.steps[d]?).map PStep.st = some .finished) →
          (y.steps[i]?).map PStep.st = some .ready

/-- STATION_TICK of a part with its rails, whose clock advances by less than a µs in a cycle: station time stands in
the next µs and elapsed time has grown. On an awake, READY part with no armed commit and no PURGE sequence, the
flags of a slice whose mapped sources are off are the old ones with the requests applied in order.
ACCOUNTING_WINDOW_START, when its time has come, sets the next window; the usage of a slice without CAPPED is 0,
that of one with CAPPED the excess over its entitlement, at most one entitlement. (R212, R214, R233, R235, R240,
R605) -/
def Obligations.TicksAndWindows : Prop :=
  ∀ s : State,
    (s.timed = true → s.tim.frac < 2 ^ 32 → 0 < s.increment → s.cycleNs * s.increment ≤ 1000 * 2 ^ 32 →
      ∃ t, exec .stationTick s = .next t ∧ t.us = s.us + 1 ∧ s.tim.elapsed < t.tim.elapsed ∧
        (s.up = true → s.awake = true → s.ended = false → s.nvm.commit ≠ .armed → s.tmp.seq = none →
          ∀ n, s.present n = true → (∀ m < 4, bitAt (s.reg (.evmap n m)) 31 = false) →
            (t.slice n).flags = ((s.slice n).flagReqs.foldl Slice.applyReq (s.slice n)).flags ∧
            (t.slice n).flagReqs = [])) ∧
    (s.up = true → s.awake = true → s.sch.window ≤ s.us / 1000 →
      ∃ t, exec .accountingWindowStart s = .next t ∧ t.sch.window = s.us / 1000 + 1 ∧
        ∀ n, s.present n = true → (s.capped n = false → (t.slice n).usage = []) ∧
          (s.capped n = true → ∀ c, t.usage n c = min (s.usage n c - s.entitlement n c) (s.entitlement n c)))

/-- JOB_START of a stateful signature whose key has a leaf left below RESV_END gives the job that leaf and moves NEXT
past it. RESERVATION_COMMIT_DONE of a pending commit programs its target as the next RESV_END, or leaves the log
as it was when programming fails, and is no longer pending; a job that waited for it gets NEXT as its leaf, or
completes STATEFUL_BUSY with DETAIL 1. FIRST_RESERVATION, once the entry of the generating job is issued, programs
the first end. TRAVERSAL_BUILD for a waiting job holds an idle VCE for the cycles of the build, and when they have
passed the key is ready to sign and the VCE free. (R136, R137, R139, R450, R453, R454) -/
def Obligations.StatefulLeaves : Prop :=
  (∀ (s : State) (j k i n : Nat) (x : Job) (p : PStep) (r : StfRecord), s.job? j = some x → x.steps[k]? = some p →
    s.awake = true → s.schStopped = false → x.stage = .active → s.canRun x = true → (x.desc.fam = 4 ∨ x.desc.fam = 5) →
    x.desc.op = 1 → x.leaf = none → x.waitCommit = false → p.cls ≠ none → (s.engine p.engine).incoming = some (j, k) →
    (s.engine p.engine).mayStart = true → (s.engine p.engine).freeSlot ≠ none → p.restore = false →
    s.imageWaits k x = false → (x.prot = true ∨ s.lendFirst p.engine = false) → x.key = some i →
    s.recordOf (s.slot i).keyId = some n → s.record? n = some r → r.next ≠ r.total → r.next < r.log.getLastD 0 →
    ∃ t y q, exec (.jobStart j k) s = .next t ∧ t.job? j = some y ∧ y.leaf = some r.next ∧ t.record? n = some q ∧
      q.next = r.next + 1 ∧ q.log = r.log) ∧
  (∀ (s : State) (n : Nat) (ok : Bool) (x : StfRecord), s.record? n = some x → x.valid = true → x.close = 0 →
    (x.pending = true → x.heldBack = false → x.firstOf = none → x.log.length < 9 →
      (s.commitWaiter x = none → ∃ t y, exec (.reservationCommitDone n ok) s = .next t ∧ t.record? n = some y ∧
        y.pending = false ∧ y.next = x.next ∧ y.log = if ok then x.log ++ [x.target] else x.log) ∧
      (∀ j z, s.commitWaiter x = some j → s.job? j = some z → z.stage ≠ .done → s.recordOf x.keyId = some n →
        ∃ t y, exec (.reservationCommitDone n ok) s = .next t ∧ t.job? j = some y ∧
          if ok then y.leaf = some x.next ∧ y.waitCommit = false
          else y.stage = .done ∧ y.result = fail .statefulBusy 1)) ∧
    (∀ j, x.firstOf = some j → s.job? j = none → s.commitsHeld = false →
      ∃ t y, exec (.firstReservation n ok) s = .next t ∧ t.record? n = some y ∧ y.pending = false ∧ y.firstOf = none ∧
        y.log = if ok then [min 64 x.total] else x.log)) ∧
  (∀ (s : State) (j i n e : Nat) (x : Job), s.job? j = some x → x.stage = .active → s.awake = true →
    s.traversalReady x = false → x.key = some i → s.recordOf (s.slot i).keyId = some n → s.idleVce x.prot = some e →
    (∀ k < 71, (s.engine k).build.map (·.1) ≠ some n) →
    ∃ t c, exec (.traversalBuild j) s = .next t ∧ (t.engine e).build = some (n, s.tim.elapsed + ceilDiv (c * 4) 5) ∧
      (∀ b, buildCost x.desc.fam x.desc.set (stfField x.desc.fam (s.bodyOf x)) = some b → c = b) ∧
      (∀ k, k ≠ e → t.engine k = s.engine k) ∧ t.sch = s.sch) ∧
  ∀ (s : State) (e n a : Nat) (r : StfRecord), (s.engine e).build = some (n, a) → a ≤ s.tim.elapsed →
    s.record? n = some r →
    (s.endBuild e).record? n = some { r with built := true } ∧ ((s.endBuild e).engine e).build = none

/-! Engines, power and the start (chapters 03, 06, 08, 17, 18) -/

/-- What becomes of the running job `x` of a faulted engine `e`: it runs once more from its inputs on another unit, or
completes with `st` (R378, R394). -/
def faultedJob (x y : Job) (e k : Nat) (st : Status) (retry : Bool) : Prop :=
  if retry = true ∧ x.attempts ≤ 1 ∧ x.scattered = false then
    y.stage = x.stage ∧ y.attempts = x.attempts + 1 ∧ e ∈ y.faultyUnits ∧ y.drawn = false ∧ y.rand = [] ∧
      y.seeds = [] ∧ y.leaf = none ∧ y.counter = none ∧ (y.steps[k]?).map PStep.st = (x.steps[k]?).map fun _ => .ready
  else y.stage = .done ∧ y.result = fail st

/-- ENGINE_FAULT_DETECT of a cause that its class detects (R286, R393) on an ACTIVE engine and MACHINE_CHECK on an
ACTIVE VCE quarantine the unit and note when, count the fault, and run its job once more on another unit or
complete it; a machine check in the customer window other than a parity error leaves the unit ACTIVE and completes
the job; a frost that fails its read-back on a QUARANTINED unit is counted and stops nothing more. WATCHDOG is the
machine check 0x06 at the micro-address. RUN_LIMIT of a customer kernel that has spent its cycles, counted across
pre-emptions, completes its job at a POLL or NEXT KERNEL_FAULT with DETAIL 0x22, where no abort is asked for.
QUARANTINE_TEST_END returns the unit to ACTIVE, or retires it on a failure, on a retirement decided before, or on
a third fault or check within 24 hours. (R286, R287, R341, R353, R373, R376, R377, R378, R379, R380, R393, R394) -/
def Obligations.EngineFaults : Prop :=
  ∀ (s : State) (e : Nat), e < 71 →
    (∀ cause bad, (s.engine e).unit = .active → cause ∈ causesOf (clsOf e) →
      ∃ t, exec (.engineFaultDetect e cause bad) s = .next t ∧ (t.engine e).unit = .quarantined ∧
        (t.engine e).fcause = cause ∧ (t.engine e).fcount = sat 0xFFFF ((s.engine e).fcount + 1) ∧
        (t.engine e).incoming = none ∧ (t.engine e).faults = s.pwr.opSec :: (s.engine e).faults.take 2 ∧
        ∀ j k x, (s.engine e).running = some (j, k) → s.job? j = some x → x.abort = none → x.stage ≠ .done →
          (t.engine e).running = none ∧ ∃ y, t.job? j = some y ∧ faultedJob x y e k .engineFault true) ∧
    (∀ bad, (s.engine e).unit = .quarantined → ∃ t, exec (.engineFaultDetect e 9 bad) s = .next t ∧
      (t.engine e).unit = .quarantined ∧ (t.engine e).fcause = 9 ∧
      (t.engine e).fcount = sat 0xFFFF ((s.engine e).fcount + 1) ∧ t.sch.jobs = s.sch.jobs) ∧
    (∀ cause addr bad, clsOf e = .vce → (s.engine e).unit = .active → 4 ≤ cause → cause ≤ 6 →
      let own : Bool := microRegion addr = 2 ∧ cause ≠ 4
      ∃ t, exec (.machineCheck e cause addr bad) s = .next t ∧
        (t.engine e).unit = (if own then .active else .quarantined) ∧
        (t.engine e).checks = (if own then (s.engine e).checks else s.pwr.opSec :: (s.engine e).checks.take 2) ∧
        (t.engine e).fcause = cause ∧ (t.engine e).incoming = none ∧
        ∀ j k x, (s.engine e).running = some (j, k) → s.job? j = some x → x.abort = none → x.stage ≠ .done →
          (t.engine e).running = none ∧ ∃ y, t.job? j = some y ∧ faultedJob x y e k .machineCheck (!own)) ∧
    (clsOf e = .vce → (s.engine e).unit = .active → (s.engine e).running ≠ none → 257 ≤ (s.vce e).wd →
      (s.vce e).lent = false → exec (.watchdog e) s = exec (.machineCheck e 6 (s.vce e).upc []) s ∧
        ∃ t, exec (.watchdog e) s = .next t ∧ (t.engine e).fcause = 6) ∧
    (∀ j k x, clsOf e = .vce → (s.vce e).ctx.kind = .customer → (s.engine e).running = some (j, k) →
      (s.vce e).ctx.limit ≠ 0 → (s.vce e).safe = true → (s.vce e).waiting = false → (s.vce e).lent = false → (s.vce e).ctx.limit ≤
        max (s.vce e).cycles ((s.vce e).spent + engCycles (s.tim.elapsed - (s.engine e).since)) →
      s.job? j = some x → x.stage ≠ .done → x.abort = none → ∃ t y, exec (.runLimit e) s = .next t ∧ t.job? j = some y ∧
        y.stage = .done ∧ y.result = fail .kernelFault 0x22) ∧
    ∀ pass, (s.engine e).unit = .quarantined → (s.engine e).halted = false → (s.engine e).contained = false →
      ∃ t, exec (.quarantineTestEnd e pass) s = .next t ∧ (t.engine e).unit =
        if pass = true ∧ (s.engine e).retiring = 0 ∧ thriceIn24h (s.engine e).checks = false ∧ thriceIn24h (s.engine e).faults = false then
          .active else .retired

/-- RETIRE_UNIT retires an idle ACTIVE unit, gated and empty, and lets a busy one drain with its staged job READY
again; the drained unit is then retired. SPARE_BRING_IN on an awake part gives a spare the logical number of a
retired unit of its class, thawed, and changes no other engine. AGING_SAMPLE of an awake engine between jobs notes
the lowest margin and the temperature and keeps the sample in NVM; a second sample in a row of 20 ps or less at 85
°C or below retires the unit while a spare exists, once its results and a build have drained, and else it waits.
POOL_LOW records a waiting retirement again after 24 hours. ENGINE_GATE gates an engine idle for GATE_US, with the
last one the part is in DOZE; THAW begins and THAW_COMPLETE ends the thaw, in RUN, with a sample of the monitors;
a VCE whose generator fails its test is quarantined with cause 0x07. (R45, R288, R289, R296, R297, R591, R592,
R593, R637, R638, R641) -/
def Obligations.EnginePlaces : Prop :=
  ∀ (s : State) (e : Nat),
    (∀ c, (s.engine e).unit = .active → (s.engine e).running = none → (s.engine e).build = none →
      (s.engine e).results = [] → ∃ t, exec (.retireUnit e c) s = .next t ∧ (t.engine e).unit = .retired ∧ (t.engine e).gated = true ∧
        (t.engine e).incoming = none) ∧
    (∀ c, 0 < c → (s.engine e).unit = .active → (s.engine e).running ≠ none → ∃ t, exec (.retireUnit e c) s = .next t ∧
      (t.engine e).unit = .active ∧ (t.engine e).takes = false ∧ (t.engine e).incoming = none ∧
      (t.engine e).running = (s.engine e).running ∧ (t.engine e).retiring = c) ∧
    (e < 71 → (s.engine e).unit = .active → (s.engine e).retiring ≠ 0 → (s.engine e).running = none →
      (s.engine e).build = none → (s.engine e).results = [] → (s.retireDrained.engine e).unit = .retired) ∧
    (∀ o, s.awake = true → (∀ i < 71, (s.engine i).lend.map (·.1) ≠ some e) →
      (s.engine e).unit = .spare → (s.engine o).unit = .retired → (s.engine o).logical ≠ 0xFF → clsOf e = clsOf o →
      ∃ t, exec (.spareBringIn e o) s = .next t ∧ (t.engine e).unit = .active ∧
        (t.engine e).logical = (s.engine o).logical ∧ (t.engine e).gated = false ∧ (t.engine o).logical = 0xFF ∧
        (t.engine o).unit = .retired ∧ ∀ i, i ≠ e → i ≠ o → t.engine i = s.engine i) ∧
    (∀ m c, s.awake = true → (s.engine e).unit ≠ .absent → (s.engine e).running = none → (s.engine e).gated = false →
      let low := m.foldl min 0xFF
      let old := mapGet [] s.nvm.aging e
      let twice : Prop := low ≤ 10 ∧ c ≤ 85 + 64 ∧ ∃ y r, old = y :: r ∧ y.1 ≤ 10 ∧ y.2 ≤ 85 + 64
      ∃ t, exec (.agingSample e m c) s = .next t ∧ (t.engine e).ageNow = low ∧ (t.engine e).temp = c % 256 ∧
        (t.engine e).ageWorst = min (s.engine e).ageWorst low ∧ mapGet [] t.nvm.aging e = (low, c) :: old ∧
        (¬ twice → (t.engine e).unit = (s.engine e).unit) ∧
        (twice → (s.engine e).unit = .active → 0 < s.spareUnits (clsOf e) →
          if (s.engine e).results = [] ∧ (s.engine e).build = none then (t.engine e).unit = .retired
          else (t.engine e).takes = false ∧ (t.engine e).retiring = 4) ∧
        (twice → (s.engine e).unit = .active → s.spareUnits (clsOf e) = 0 →
          (t.engine e).unit = .active ∧ ∃ w ∈ t.nvm.waiting, w.1 = e)) ∧
    ((∃ w ∈ s.nvm.waiting, w.1 = e) → (∀ w ∈ s.nvm.waiting, w.1 = e → w.2 + 86400 ≤ s.pwr.opSec) →
      exec (.poolLow e) s = .next (({ s with nvm := { s.nvm with
        waiting := s.nvm.waiting.map fun (w : Nat × Nat) => if w.1 = e then (e, s.pwr.opSec) else w } }).event 0xE (srcEngine e) 4 0 e)) ∧
    (e < 71 → (∀ i < 71, (s.engine i).lend.map (·.1) ≠ some e) → (s.engine e).unit ≠ .absent → (s.engine e).gated = false → (s.engine e).thawing = false →
      (s.engine e).idle = true → s.reserved e = false → bitAt (s.reg .pwrCtrl) 30 = false → s.up = true →
      s.awake = true → (s.engine e).idleAt + fld (s.reg .pwrCtrl) 13 0 * 1000 ≤ s.tim.elapsed →
      ∃ t, exec (.engineGate e) s = .next t ∧ (t.engine e).gated = true ∧ (∀ i, i ≠ e → t.engine i = s.engine i) ∧
        t.pwr.st = if t.awakeEngines = 0 ∧ s.pwr.st = .run then .doze else s.pwr.st) ∧
    ((s.engine e).gated = true → (s.engine e).unit = .active → s.awake = true →
      ((s.engine e).incoming ≠ none ∨ s.reserved e = true) →
      exec (.thaw e) s = .next (s.onEngine e fun x => { x with thawing := true })) ∧
    (∀ z : ThawEnd, z.unit = e → (s.engine e).thawing = true → (∀ i < 71, (s.engine i).lend.map (·.1) ≠ some e) →
      ((clsOf e = .vce → z.testOk = true) → lowSample (z.margins.foldl min 0xFF, z.temp) = false →
        ∃ t, exec (.thawComplete z) s = .next t ∧ (t.engine e).gated = false ∧ (t.engine e).thawing = false ∧
          t.pwr.st = (if s.pwr.st = .doze then .run else s.pwr.st) ∧
          (z.margins ≠ [] → (t.engine e).ageNow = z.margins.foldl min 0xFF ∧ (t.engine e).temp = z.temp % 256) ∧
          ∀ i, i ≠ e → t.engine i = s.engine i) ∧
      (clsOf e = .vce → z.testOk = false → z.margins = [] → (s.engine e).unit = .active →
        ∃ t, exec (.thawComplete z) s = .next t ∧ (t.engine e).unit = .quarantined ∧ (t.engine e).fcause = 7))

/-- What a reset with power present leaves (R51, R105, R652): the volatile state at its reset values, NVM, the AON
domain and station time kept, the cause in START. -/
structure AfterReset (s t : State) (kind : Nat) : Prop where
  held   : t.pwr.inReset = true ∧ t.pwr.ready = false ∧ t.pwr.start = kind
  queues : t.slices = [] ∧ t.sch.jobs = [] ∧ t.kmg.slots = [] ∧ t.kmg.sessions = [] ∧ t.cmc = {} ∧ t.rng = {}
  regs   : ∀ r : Reg, r.addr ≠ Reg.timTrim.addr → t.reg r = r.reset
  trim   : t.reg .timTrim = s.reg .timTrim
  kept   : t.kmg.roots = s.kmg.roots ∧ t.kmg.epochs = s.kmg.epochs ∧ t.aon = s.aon ∧ t.tim.ns = s.tim.ns ∧
    t.lcs.words = s.lcs.words ∧ t.lcs.codeKey = s.lcs.codeKey ∧ t.code.active = s.code.active ∧
    t.nvm.images = s.nvm.images ∧ t.mp.audit = s.mp.audit
  ring   : t.evr.ring = [] ∧ t.dbg = {}

/-- LINK_DOWN, PERST_N_ASSERT and SYS_RESET of the value 0x5253_4554 reset a powered part: volatile state lost, NVM,
AON domain, station time and TIM_TRIM kept. SLEEP_ENTRY under its conditions enters SLEEP with every engine gated,
and nothing else touched than engines, source and recorder; WAKE leaves it, reseeding the instances that fell due,
and touches nothing else than them and the recorder. PFAIL_FALL of a low level of 400 ns writes the anchor, leaves
SLEEP, abandons a transition before its word M, stops a store and flushes; one below 200 ns is ignored; PFAIL_RISE
ends it and, with no transition accepted, starts the commits held back. MAIN_POWER_LOSS keeps NVM and the AON
domain, in Winter Hold while a supply of that domain is present; AON_CHANGEOVER changes its supply alone;
AON_DOMAIN_LOST loses it. (R51, R55, R105, R478, R530, R583, R591, R595, R596, R597, R598, R652) -/
def Obligations.ResetsAndPower : Prop :=
  ∀ s : State,
    (s.powered = true → ∃ t, exec .linkDown s = .next t ∧ AfterReset s t 2) ∧
    (s.powered = true → ∃ t, exec .perstNAssert s = .next t ∧ AfterReset s t 2 ∧ t.pins.perstN = false) ∧
    (s.Takes 0x10 → s.lcs.trans = none → ∃ t, exec (.sysReset 0x52534554) s = .next t ∧ AfterReset s t 3) ∧
    (∀ d, let f := { s with pwr := { s.pwr with d3hot := d } }
      f.maySleep = true → ∃ t, exec (.sleepEntry d) s = .next t ∧ t.pwr = { f.pwr with st := .sleep } ∧
      t.awakeEngines = 0 ∧
      t = { s with pwr := t.pwr, rng := t.rng, evr := t.evr, engines := t.engines, vces := t.vces }) ∧
    (s.pwr.st = .sleep → ∃ t, exec .wake s = .next t ∧ t.pwr.st = .run ∧ t.pwr.d3hot = false ∧
      t = { s with pwr := t.pwr, evr := t.evr, rng := t.rng, slices := t.slices } ∧
      ∀ n, t.slice n = { s.slice n with drbg := (t.slice n).drbg }) ∧
    (∀ n k, s.timed = true → s.pwr.pfail = false → 400 ≤ n → ∃ t, exec (.pfailFall n k) s = .next t ∧
      t.pwr.pfail = true ∧ t.pwr.st ≠ .sleep ∧ t.evr.flushing = true ∧
      t.aon.anchor = some { time := s.now, counter := s.aon.counter, freq := s.tim.freq } ∧
      (∀ x, s.lcs.trans = some x → x.step < 3 → t.lcs.trans = none ∧ t.lcs.result = 3) ∧
      ∀ p g c b i, s.nvm.op = some (.store p g c b i) → t.nvm.op = none ∧ t.nvm.result = 2) ∧
    (∀ n k, n < 200 → exec (.pfailFall n k) s = .next s) ∧
    (s.timed = true → s.pwr.pfail = true → ∃ t, exec .pfailRise s = .next t ∧ t.pwr.pfail = false ∧
      t.evr.flushing = false ∧ (s.lcs.trans = none → ∀ i x, t.record? i = some x → x.heldBack = false)) ∧
    (∀ n, s.timed = true → ∃ t, exec (.mainPowerLoss n) s = .next t ∧ t.regs = [] ∧ t.kmg.slots = [] ∧ t.sch.jobs = [] ∧
      t.pwr.st = (if s.pins.vbat = true ∨ s.pins.vaon = true then .winter else .off) ∧ t.pwr.ready = false ∧
      t.tim.st = .unset ∧ t.kmg.roots = s.kmg.roots ∧ t.lcs.words = s.lcs.words ∧ t.aon.alarms = s.aon.alarms ∧
      t.aon.anchor = s.aon.anchor ∧ t.nvm.images = s.nvm.images) ∧
    (∀ v, (v = true → s.pins.vbat = true) → exec (.aonChangeover v) s = .next
      { s with aon := { s.aon with onVbat := v }, pins := { s.pins with vaon := !v } }) ∧
    ∃ t, exec .aonDomainLost s = .next t ∧ t.aon = {} ∧ t.kmg = s.kmg ∧ t.regs = s.regs ∧
      t.pwr.st = if s.pwr.st = .winter then .off else s.pwr.st

/-- COLD_START of a part held in reset, its rails raised in order or present already: the part ends READY in RUN, out
of reset, in the life-cycle state that R525 determines, with the next boot count, and with newly applied power its
time base is in HOLDOVER from an intact anchor and in UNSET without one; without newly applied power its state of
time is kept. A power failure while a set latch erases the roots leaves the latch set, and one while the alarm
store is copied leaves the store, for the next start. With TESTMODE high the part stays in reset, and with rails
raised out of order the command stops, as R661 does not define that start. A part out of reset is unchanged. (R47,
R525, R565, R599, R600, R611, R617, R657, R661) -/
def Obligations.ColdStart : Prop :=
  ∀ (s : State) (d : StartData),
    (s.pwr.inReset = true → d.testmode = false → (s.newPower = true → d.inOrder = true) → d.failAt = 0 →
      ∃ t, exec (.coldStart d) s = .next t ∧ t.up = true ∧ t.pwr.st = .run ∧ t.pwr.inReset = false ∧
        t.pins.perstN = true ∧ t.lcs.code = s.lcs.determine ∧ t.kmg.boot = s.kmg.boot + 1 ∧
        t.tim.st = if s.newPower = true then
          (if s.aon.intact = true ∧ s.aon.anchor ≠ none then .holdover else .unset) else s.tim.st) ∧
    (s.pwr.inReset = true → d.testmode = false → (s.newPower = true → d.inOrder = true) → s.aon.intact = true →
      (d.failAt = 3 → s.aon.latch = true → ∃ t, exec (.coldStart d) s = .next t ∧ t.up = false ∧ t.aon.latch = true) ∧
      (d.failAt = 4 → s.aon.store ≠ [] → ∃ t, exec (.coldStart d) s = .next t ∧ t.up = false ∧
        t.aon.store = s.aon.store)) ∧
    (s.pwr.inReset = true → d.testmode = false → s.newPower = true → d.inOrder = false →
      exec (.coldStart d) s = .fault .startUndefined) ∧
    (s.pwr.inReset = true → d.testmode = true → ∃ t, exec (.coldStart d) s = .next t ∧ t.pwr = s.pwr) ∧
    (s.pwr.inReset = false → exec (.coldStart d) s = .next s)

/-! Code, settings, life cycle and debug (chapters 08, 13, 14, 18) -/

/-- With the command accepted and no power failure: INSTALL ends with the first failing check of R386 and changes
nothing, with NVM_FAIL where programming fails, the pending slot of its type erased, or, on blocks that are not
worn, with OK and the package in that slot with its VERSION the highest, while active packages and the slots of
other types stay; one that does not end at once is BUSY, its slot erased. REMOVE marks the CUSTOMER packages.
INSTALL_CODE_KEY and INSTALL_DEBUG_KEY put 1,952 bytes of the form of an ML-DSA-65 public key in the place of
their key in PROVISION and are refused elsewhere. INSTALL_AUTHORITY puts the first authority key in place,
LOAD_TARIFF a signed newer table with its audit entry at the head of the history, and SEPARATE programs the fuse
with its entry. (R386, R387, R389, R508, R509, R511, R512, R521, R522, R536, R583) -/
def Obligations.PackageCommands : Prop :=
  ∀ (s : State) (w : Word) (b : Bytes) (ok : Bool), s.pwr.pfail = false →
    (mapFind s.accepted Reg.pkgCmd.addr = some w → fld w 31 28 = 1 →
      (∃ t, exec (.install (some b) ok true) s = .next t ∧ t.code.busy = false ∧ t.code.active = s.code.active ∧
        (s.pkgCheck b ≠ 0 → t.code.result = s.pkgCheck b ∧ t.code.pending = s.code.pending ∧
          t.code.highest = s.code.highest) ∧
        (s.pkgCheck b = 0 → ok = false → t.code.result = 0xA ∧ t.code.highest = s.code.highest ∧
          t.code.pending = mapErase s.code.pending (pkgType b)) ∧
        (s.pkgCheck b = 0 → ok = true → s.maxErase 5 + 64 < 1000000 → t.code.result = 0 ∧
          mapFind t.code.pending (pkgType b) = some { version := pkgVersion b, bytes := b } ∧
          mapGet 0 t.code.highest (pkgType b) = pkgVersion b ∧
          ∀ i, i ≠ pkgType b → mapFind t.code.pending i = mapFind s.code.pending i)) ∧
      (s.nvm.op = none → ∃ t, exec (.install (some b) ok false) s = .next t ∧
        t.code = { s.code with
          busy := true, pending := if s.pkgCheck b = 0 then mapErase s.code.pending (pkgType b) else s.code.pending } ∧
        t.nvm.op = some (.install (some b) ok))) ∧
    (mapFind s.accepted Reg.pkgCmd.addr = some w → fld w 31 28 = 2 → ∃ t, exec .removePackage s = .next t ∧
      t.code = { s.code with removeAt := true, result := 0, type_ := 5 }) ∧
    (mapFind s.accepted Reg.ownerCmd.addr = some w →
      let keyForm65 := fun b : Bytes => b.length = 1952 ∧ Config.keyFormOk 0x0216 b = true
      (fld w 31 28 = 1 → ∃ t, exec (.installCodeKey (some b) ok true) s = .next t ∧ t.lcs.debugKey = s.lcs.debugKey ∧
        (if s.lcs.code = 5 ∧ keyForm65 b ∧ ok = true then t.lcs.codeKey = b ∧ t.lcs.ownerRes = 0
          else t.lcs.codeKey = s.lcs.codeKey ∧ t.lcs.ownerRes = if s.lcs.code ≠ 5 then 1 else if ¬ keyForm65 b then 2 else 4)) ∧
      (fld w 31 28 = 2 → ∃ t, exec (.installDebugKey (some b) ok true) s = .next t ∧ t.lcs.codeKey = s.lcs.codeKey ∧
        (if s.lcs.code = 5 ∧ keyForm65 b ∧ ok = true then t.lcs.debugKey = b ∧ t.lcs.ownerRes = 0
          else t.lcs.debugKey = s.lcs.debugKey ∧ t.lcs.ownerRes = if s.lcs.code ≠ 5 then 1 else if ¬ keyForm65 b then 2 else 4))) ∧
    (mapFind s.accepted Reg.mpCmd.addr = some w → s.mpInService = true →
      (fld w 31 28 = 1 → ∃ t, exec (.installAuthority (some b) ok true) s = .next t ∧
        (if (s.lcs.code = 3 ∨ s.lcs.code = 5) ∧ s.mp.authKey = [] ∧ s.mpLength = 2592 ∧ b.length = 2592 ∧ ok = true then
          t.mp.authKey = b ∧ t.mp.result = 0
        else t.mp.authKey = s.mp.authKey ∧ t.mp.result ≠ 0)) ∧
      (fld w 31 28 = 2 →
        let v := tariffVersion (b.take 160)
        ∃ t, exec (.loadTariff (some b) ok true) s = .next t ∧
          (s.code.loaded.contains 4 = true → s.mpLength = 3469 → b.length = 3469 → tariffForm (b.take 160) = true →
            Config.mldsaVerify 6 s.mp.tariffKey (pureMessage (ascii "TRL-MTT") (b.take 160)) (b.drop 160) = true →
            (s.mp.tariffs = [] ∨ s.mp.topTariff < v) → s.logFull = false → ok = true →
            t.mp.result = 0 ∧ t.mp.topTariff = v ∧ t.mp.tariffs = (b.take 160 :: s.mp.tariffs).take 4 ∧
              ∃ a, t.mp.audit = s.mp.audit ++ [a] ∧ a.kind = 2 ∧ a.old = s.mp.topTariff ∧ a.new = v) ∧
          (t.mp.result ≠ 0 → t.mp.tariffs = s.mp.tariffs ∧ t.mp.topTariff = s.mp.topTariff ∧ t.mp.audit = s.mp.audit)) ∧
      (fld w 31 28 = 3 → s.lcs.code = 5 → s.mp.sepFuse = false → ok = true →
        ∃ t a, exec (.separate ok true) s = .next t ∧ t.mp.sepFuse = true ∧ t.mp.result = 0 ∧
          t.mp.audit = s.mp.audit ++ [a] ∧ a.kind = 5))

/-- The staging table names writable registers by their own offsets, in rising order. -/
def stagingWf (s : State) : Prop :=
  keysRise s.nvm.staging = true ∧ ∀ e ∈ s.nvm.staging, ∃ r, regAt e.1 = some r ∧ r.addr = e.1 ∧ r.isRwc = true

/-- The staged values are in effect, every other register but the command word stands as it was, and nothing is staged
any more. -/
def stagedTaken (s t : State) : Prop :=
  t.nvm.commit = .idle ∧ t.nvm.staging = [] ∧ t.nvm.cres = 1 ∧
    ∀ r : Reg, regAt r.addr = some r → r ≠ .sysCommit → t.reg r = (mapFind s.nvm.staging r.addr).getD (s.reg r)

/-- STORE run to its end on blocks that are not worn puts the captured values into the next place, valid, with the
next GEN and their digest, and touches no other place; refused, it sets RESULT alone. DEFAULTS erases every image
and changes no register. CHECK gives CHECKED or the RESULT of R630; APPLY_NOW from CHECKED puts every staged value
into effect at once, if the set still passes; APPLY_AT arms the set for an instant in range and changes no
register, and COMMIT_INSTANT applies it on the tick at which the instant has come; DISCARD empties the table. In
IDLE each command returns EMPTY. (R621, R622, R625, R626, R627, R628, R629, R630, R631, R632, R633) -/
def Obligations.SettingsAndCommit : Prop :=
  ∀ (s : State) (w : Word),
    (mapFind s.accepted Reg.nvmCmd.addr = some w → fld w 31 28 = 1 →
      (s.storeRefusal = 0 → s.nvm.op = none →
        let p := s.nvm.nextPlace % 16
        let i : Image := { valid := true, gen := s.topGen + 1, part := s.partNumber, state := s.lcs.code, body := s.captured }
        s.maxErase 0 + 4 < 1000000 →
        ∃ t, exec (.store 5 true) s = .next t ∧ t.nvm.op = none ∧ t.nvm.result = 1 ∧ t.nvm.gen = s.topGen + 1 ∧
          mapFind t.nvm.images p = some { i with digest := fit 32 (Config.sha3 2 i.bodyBytes) } ∧
          ∀ i, i ≠ p → mapFind t.nvm.images i = mapFind s.nvm.images i) ∧
      (s.storeRefusal ≠ 0 → ∃ t, exec (.store 5 true) s = .next t ∧
        t.nvm = { s.nvm with result := s.storeRefusal })) ∧
    (mapFind s.accepted Reg.nvmCmd.addr = some w → fld w 31 28 = 2 → s.storeRefusal = 0 →
      ∃ t, exec (.defaults true) s = .next t ∧ t.nvm.images = [] ∧ t.nvm.result = 1 ∧
        ∀ r : Reg, r.addr ≠ Reg.nvmCmd.addr → t.reg r = s.reg r) ∧
    (mapFind s.accepted Reg.sysCommit.addr = some w → fld w 31 28 = 1 → s.nvm.commit = .staged ∨ s.nvm.commit = .checked →
      ∃ t, exec .check s = .next t ∧ t.nvm.cres = s.checkSet ∧ t.nvm.staging = s.nvm.staging ∧
        t.nvm.commit = if s.checkSet = 1 then .checked else .staged) ∧
    (mapFind s.accepted Reg.sysCommit.addr = some w → fld w 31 28 = 2 → s.nvm.commit = .checked → stagingWf s →
      s.checkSet = 1 → bitAt w 0 = false → ∃ t, exec .applyNow s = .next t ∧ stagedTaken s t) ∧
    (mapFind s.accepted Reg.sysCommit.addr = some w → fld w 31 28 = 3 → s.nvm.commit = .checked → s.tim.st ≠ .unset →
      s.us + 2 ≤ s.pair .commitAt → s.pair .commitAt ≤ s.us + 2 ^ 40 →
      ∃ t, exec .applyAt s = .next t ∧ t.nvm.commit = .armed ∧ t.nvm.instant = s.pair .commitAt ∧ t.nvm.cres = 1 ∧
        t.nvm.staging = s.nvm.staging ∧ t.nvm.storeAfter = bitAt w 0) ∧
    (mapFind s.accepted Reg.sysCommit.addr = some w → fld w 31 28 = 4 → s.nvm.commit ≠ .idle →
      ∃ t, exec .discard s = .next t ∧ t.nvm.commit = .idle ∧ t.nvm.staging = [] ∧ t.nvm.cres = 1 ∧
        ∀ r : Reg, r.addr ≠ Reg.sysCommit.addr → t.reg r = s.reg r) ∧
    (s.nvm.commit = .armed → s.onTick = true → s.nvm.instant ≤ s.us → s.checkSet = 1 → s.nvm.storeAfter = false → stagingWf s →
      ∃ t, exec .commitInstant s = .next t ∧ stagedTaken s t) ∧
    ∀ c ∈ [(Instr.check, 1), (.applyNow, 2), (.applyAt, 3), (.discard, 4)],
      mapFind s.accepted Reg.sysCommit.addr = some w → fld w 31 28 = c.2 → s.nvm.commit = .idle →
        ∃ t, exec c.1 s = .next t ∧ t.nvm = { s.nvm with cres := 2 }

/-- TRANSITION with an accepted request: one that fails a check of R528 sets RESULT and changes no word, marker or
root; one that passes while no commit of KEY is being programmed and the life-cycle area has room, carried out to
its end, has programmed the marker of FROM and TO with its complement and the state word of TO, erased the root of
FROM and no other, ended an active grant, and holds the part in reset, and the state that R525 then determines is
TO. (R524, R525, R526, R527, R528, R529) -/
def Obligations.TransitionSequence : Prop :=
  ∀ (s : State) (w : Word), mapFind s.accepted Reg.lcsTransition.addr = some w →
    let f := fld w 7 4
    let g := fld w 3 0
    (s.transitionCheck f g ≠ 0 → ∃ t, exec (.transition 8 true) s = .next t ∧ t.lcs.result = s.transitionCheck f g ∧
      t.lcs.words = s.lcs.words ∧ t.lcs.markers = s.lcs.markers ∧ t.kmg = s.kmg ∧ t.lcs.trans = s.lcs.trans) ∧
    (s.transitionCheck f g = 0 → s.commitRuns = false → s.lcs.words.length < 8 → s.lcs.markers.length < 8 →
      ∃ t x, exec (.transition 8 true) s = .next t ∧ stateWord g = some x ∧
      t.lcs.words = s.lcs.words ++ [x] ∧
      t.lcs.markers = s.lcs.markers ++ [{ m := markerWord f g, c := some (~~~ markerWord f g) }] ∧
      (f ≠ 0xF → mapFind t.kmg.roots f = none) ∧ (∀ c, c ≠ f ∨ f = 0xF → mapFind t.kmg.roots c = mapFind s.kmg.roots c) ∧
      t.pwr.inReset = true ∧ t.dbg.active = false ∧ t.lcs.determine = g)

/-- A grant has ended: no right is held, the trace ring is off, and no engine is halted by it (R543). -/
def grantEnded (t : State) : Prop :=
  t.dbg.active = false ∧ t.dbg.rights = 0 ∧ t.dbg.traceOn = false ∧ ∀ e < 71, (t.engine e).halted = false

/-- A clear up to `n` has happened: no record of the retained area or above `n` is gone (R587). -/
def clearedUpTo (s t : State) (n : Nat) : Prop :=
  t.evr.cmdRes = 1 ∧ t.evr.retained = s.evr.retained ∧ (∀ e ∈ t.evr.area, e ∈ s.evr.area) ∧
    ∀ e ∈ s.evr.area, n < e.2.seq → e ∈ t.evr.area

/-- NEW_CHALLENGE draws a challenge when the steward's instance can serve, and leaves none valid otherwise. PRESENT
uses the challenge and the mailbox up, sets the RESULT of R540, and leaves a grant active exactly when it is OK,
with the rights and end of the grant presented. CHALLENGE_EXPIRY after 600 s ends the challenge; REVOKE and
GRANT_EXPIRY end the grant. CLEAR_GRANT erases records only under the right JOURNAL_CLEAR, and CLEAR_TOKEN only
with a token that verifies, whose challenge it uses up; neither touches the retained area or a record above the
limit. (R537, R538, R539, R540, R543, R544, R545, R585, R586, R587) -/
def Obligations.GrantsAndClears : Prop :=
  ∀ (s : State) (w : Word),
    (mapFind s.accepted Reg.dbgCmd.addr = some w →
      (fld w 31 28 = 1 → ∃ t, exec .newChallenge s = .next t ∧
        if s.canServe 5 then (∃ b : Bytes, b.length = 32 ∧ t.dbg.chal = some (b, s.tim.elapsed) ∧ t.dbg.chalReg = b) ∧
          1 ≤ t.rng.stw.requests
        else t.dbg.chal = none ∧ t.dbg.chalReg = []) ∧
      (fld w 31 28 = 2 →
        let b := s.mboxBytes (fld w 13 0)
        ∃ t, exec .present s = .next t ∧ t.dbg.result = (s.checkGrant b).1 ∧ t.dbg.chal = none ∧ t.dbg.mbox = [] ∧
          (t.dbg.active = true ↔ (s.checkGrant b).1 = 1) ∧
          ((s.checkGrant b).1 = 1 → ∃ g, parseGrant b = some g ∧ t.dbg.rights = g.rights ∧ t.dbg.until_ = g.until_)) ∧
      (fld w 31 28 = 3 → s.dbg.active = true → ∃ t, exec .revoke s = .next t ∧ grantEnded t)) ∧
    (∀ b n, s.dbg.chal = some (b, n) → n + 600000000000 ≤ s.tim.elapsed →
      exec .challengeExpiry s = .next { s with dbg := { s.dbg with chal := none } }) ∧
    (s.dbg.active = true → s.dbg.until_ ≤ s.now → ∃ t, exec .grantExpiry s = .next t ∧ grantEnded t) ∧
    (s.Takes 0xA0088 → s.pwr.st ≠ .sleep → s.clearBusy = false →
      (s.dbg.active = true → bitAt s.dbg.rights 8 = true → ∃ t, exec .clearGrant s = .next t ∧
        clearedUpTo s t (s.pair .clrUpto)) ∧
      (s.dbg.active = false ∨ bitAt s.dbg.rights 8 = false → ∃ t, exec .clearGrant s = .next t ∧ t.evr.cmdRes = 2 ∧
        t.evr.area = s.evr.area ∧ t.evr.retained = s.evr.retained) ∧
      (let k := s.mboxBytes 3389
       leAt k 0 4 = 0x434C5254 → leAt k 4 2 = 1 → leAt k 6 2 = 3389 → cut k 8 16 = s.fuses.serial →
       s.dbg.chal.map (·.1) = some (cut k 24 32) → s.lcs.debugKey ≠ [] → cut k 64 16 = keyId s.lcs.debugKey →
       (s.lcs.code = 5 ∨ s.lcs.code = 6) →
       ∃ t, exec (.clearToken 3389) s = .next t ∧ t.dbg.chal = none ∧
         if Config.mldsaVerify 6 s.lcs.debugKey (pureMessage (ascii "TRL-CLR") (cut k 0 80)) (cut k 80 3309) then
           clearedUpTo s t (leAt k 56 8)
         else t.evr.cmdRes = 4 ∧ t.evr.area = s.evr.area))

/-- The state once the command that waits in the register at `off` has been taken. -/
def cmdTaken (s : State) (off : Nat) : State := { s with accepted := mapErase s.accepted off }

/-- With an action accepted in DBG_ACT and its right held: HALT stops an ACTIVE engine that is not reserved and holds
no metrology job, and empties its incoming slot; RELEASE returns it to ACTIVE; STEP advances the known-answer job
of the halted VCE by ARG micro-operations and changes nothing else, but that a machine check met on the way is
taken; SPARE exchanges the places of an engine and a spare of its class, and waits while the engine runs a job or
holds a result; TRACE_ON and TRACE_OFF start and stop the trace; INJECT of a code of a class that the part
records, whose source is no engine with a metrology job, puts a record with the injected mark into the recorder
and does nothing else. Each is recorded; without the right each is only recorded. DBG_WIN_DATA_READ returns the
selected word and advances OFFSET. (R16, R376, R505, R541, R542, R544) -/
def Obligations.DebugActions : Prop :=
  ∀ (s : State) (w : Word),
    let a := fld w 15 0
    let u := cmdTaken s Reg.dbgAct.addr
    (mapFind s.accepted Reg.dbgAct.addr = some w → s.dbg.active = true →
      (fld w 31 28 = 1 → bitAt s.dbg.rights 1 = true → a < 71 → (s.engine a).unit = .active → s.reserved a = false →
        s.holdsMetrology a = false → ∃ t, exec .halt s = .next t ∧ (t.engine a).unit = .quarantined ∧
          (t.engine a).halted = true ∧ (t.engine a).incoming = none ∧ (t.engine a).running = (s.engine a).running) ∧
      (fld w 31 28 = 2 → bitAt s.dbg.rights 1 = true → (s.engine a).halted = true →
        (∀ i < 71, (s.engine i).lend.map (·.1) ≠ some a) → ∃ t, exec .release s = .next t ∧
        (t.engine a).unit = .active ∧ (t.engine a).halted = false ∧ ∀ i, i ≠ a → t.engine i = s.engine i) ∧
      (∀ e k v r m, fld w 31 28 = 3 → bitAt s.dbg.rights 2 = true → 0 < a → u.haltedVce = some e → u.katOn e = (k, v) →
        u.stepVce a v = (r, m) → ∃ t, exec .dbgStep s = .next t ∧
          (m = none → t.vce e = r ∧
            t = { u with vces := t.vces, evr := t.evr, dbg := { u.dbg with kat := some (e, k) } }) ∧
          ∀ c, m = some c → (t.engine e).fcause = c % 256) ∧
      (∀ p, fld w 31 28 = 4 → bitAt s.dbg.rights 6 = true → a < 71 → p < 71 → (s.engine a).unit = .active →
        (s.engine p).unit = .spare → clsOf a = clsOf p →
        ((s.engine a).running ≠ none ∨ (s.engine a).results ≠ [] → exec (.spare p) s = .next (s.unstage a)) ∧
        ((s.engine a).running = none → (s.engine a).results = [] → (∀ i < 71, (s.engine i).lend.map (·.1) ≠ some a) →
          ∃ t, exec (.spare p) s = .next t ∧ (t.engine p).unit = .active ∧ (t.engine p).logical = (s.engine a).logical ∧
          (t.engine p).gated = false ∧ (t.engine a).unit = .spare ∧ (t.engine a).incoming = none ∧
          ∀ i, i ≠ a → i ≠ p → t.engine i = s.engine i)) ∧
      (fld w 31 28 = 5 → bitAt s.dbg.rights 3 = true → exec .traceOn s = .next
        (({ u with dbg := { u.dbg with traceOn := true } }).recordAction true 5 a)) ∧
      (fld w 31 28 = 6 → bitAt s.dbg.rights 3 = true → exec .traceOff s = .next
        (({ u with dbg := { u.dbg with traceOn := false } }).recordAction true 6 a)) ∧
      (fld w 31 28 = 7 → bitAt s.dbg.rights 7 = true → s.sealedSource a = false → codeCls a ≠ 0xF →
        exec .inject s = .next ((u.intake { u.mkRec a 0 0xFF [] with injected := true }).recordAction true 7 a))) ∧
    (∀ c ∈ [(Instr.halt, 1, 1), (.release, 2, 1), (.dbgStep, 3, 2), (.spare 0, 4, 6), (.traceOn, 5, 3), (.traceOff, 6, 3),
        (.inject, 7, 7)], mapFind s.accepted Reg.dbgAct.addr = some w → fld w 31 28 = c.2.1 →
      (s.dbg.active = false ∨ bitAt s.dbg.rights c.2.2 = false) →
      exec c.1 s = .next (u.recordAction false c.2.1 a)) ∧
    (s.up = true → s.ended = false → s.pwr.st ≠ .sleep →
      ∃ t, exec .dbgWinDataRead s = .next t ∧ t.out = s.out ++ [.readReply s.windowWord] ∧
        t.reg .winSel = setField (s.reg .winSel) 23 0 (fld (s.reg .winSel) 23 0 + 1) ∧
        ∀ r : Reg, r.addr ≠ Reg.winSel.addr → t.reg r = s.reg r)

/-! Tamper, the journal, slices, randomness, context memory, time and ports (chapters 09 to 12, 15 to 17, 20) -/

/-- A command word accepted for register `r`, and none other waiting there. -/
def accepts (s : State) (r : Reg) (w : Word) : Prop := mapFind s.accepted r.addr = some w

/-- MONITOR_TRIP of a live monitor whose COUNT is reached and whose alarm is not active: the alarm is active with the
monitor's response (HALT for a CONTAIN without scope), counted, other alarms stay, from HALT on the scheduler
stops and, while the pins show the alarms, TAMPER_N goes low beside ALARM_N; where no response as severe was in
force, PURGE starts its sequence and FORFEIT sets the latch. CLEAR clears exactly the named alarms whose window no
longer shows the condition, and the engine that one contained may be tested. TEST starts or refuses a stimulus
test, and refuses one of a window that is not empty; STIMULUS_TEST_END records it and a failure raises SELFTEST;
PERIODIC_SELFTEST starts a round with the first enabled monitor that has no alarm. MON_CFG_WRITE puts a
configuration in effect, empties the window and copies it into AON. WINTER_TRIP stores an entry, and for FORFEIT
sets the latch; MONITOR_REARM lets the monitor trip again. (R548, R549, R550, R552, R554, R556, R558, R559, R560,
R562, R564, R567) -/
def Obligations.TamperAlarms : Prop :=
  ∀ (s : State) (m : Nat),
    (∀ n sc, s.monLive m = true → s.monCount m ≤ n → s.alarmed m = false → s.pwr.st ≠ .sleep →
      let resp := if s.monResp m = 2 ∧ tripScope m sc = .all then 3 else s.monResp m
      ∃ t, exec (.monitorTrip m n sc 0) s = .next t ∧
        mapFind t.aon.alarms m = some { resp := resp, scope := tripScope m sc } ∧
        (∀ i, i ≠ m → mapFind t.aon.alarms i = mapFind s.aon.alarms i) ∧
        (t.mon m).trips = sat 0xFFFF ((s.mon m).trips + 1) ∧ (3 ≤ resp → t.schStopped = true) ∧
        (s.pinsShow = true → t.alarmLow = true ∧ (3 ≤ resp → t.tamperLow = true)) ∧
        (s.response < resp → (resp = 4 → t.tmp.seq ≠ none) ∧ (resp = 5 → t.aon.latch = true))) ∧
    (∀ w h, accepts s .tmpClear w → s.tmp.seq = none → keysRise s.engines = true → ∃ t, exec (.clear h) s = .next t ∧
      (∀ i < 20, t.alarmed i = true ↔ s.alarmed i = true ∧ ¬(bitAt w i = true ∧
        (17 ≤ i ∨ (h.getLsbD i = false ∧ (i = 15 → s.windowEvents 15 = []))))) ∧
      (t.tmp.clearRes = if (List.range 20).any fun i => bitAt w i && t.alarmed i then 2 else 1) ∧
      ∀ a e, bitAt w 13 = true → h.getLsbD 13 = false → mapFind s.aon.alarms 13 = some a → a.scope = .engine e → e < 71 →
        (t.engine e).contained = false) ∧
    (∀ w, accepts s .tmpTest w → bitAt w 31 = true → fld w 4 0 = m → ∃ t, exec (.test true) s = .next t ∧ t.tmp.tmon = m ∧
      if m < 17 ∧ s.monEn m = true ∧ s.alarmed m = false ∧ (m = 15 → s.windowEvents 15 = []) ∧ s.tmp.testing = none then
        t.tmp.testing = some m ∧ t.tmp.testRes = 1
      else t.tmp.testing = s.tmp.testing ∧ t.tmp.testRes = 4) ∧
    (∀ w, accepts s .tmpTest w → bitAt w 31 = true → ∃ t, exec (.test false) s = .next t ∧
      t.tmp.testing = s.tmp.testing ∧ t.tmp.testRes = 4) ∧
    (∀ p, s.tmp.testing = some m → s.tmp.round = [] → ∃ t, exec (.stimulusTestEnd p) s = .next t ∧ t.tmp.testing = none ∧
      t.tmp.testRes = (if p then 2 else 3) ∧ (t.mon m).broken = !p ∧ (t.mon m).inwin = 0 ∧
      (p = false → t.alarmed 17 = true)) ∧
    (∀ l, s.rng.ready = true → s.tmp.round = [] → s.tmp.testing = none →
      (s.tmp.rounded = false ∨ s.tmp.roundAt + 86400 ≤ s.pwr.opSec) →
      ((List.range 17).filter s.monEn).dropWhile s.alarmed = m :: l → ∃ t, exec .periodicSelftest s = .next t ∧
        t.tmp.testing = some m ∧ t.tmp.round = l ∧ t.tmp.roundAt = s.pwr.opSec ∧ t = { s with tmp := t.tmp }) ∧
    (∀ w, accepts s (.monCfg m) w →
      let v := (s.reg (.monCfg m) &&& ~~~(Reg.monCfg m).mask) ||| (w &&& (Reg.monCfg m).mask)
      ∃ t, exec (.monCfgWrite m) s = .next t ∧ t.reg (.monCfg m) = v ∧ mapFind t.aon.cfg m = some v ∧
        (t.mon m).inwin = 0 ∧ (t.mon m).trips = (s.mon m).trips) ∧
    (∀ n, s.pwr.st = .winter → m ≤ 9 →
      let c := mapGet (monDefault m) s.aon.cfg m
      bitAt c 31 = true → fld c 15 8 ≤ n → m ∉ s.aon.tripped → ∃ t, exec (.winterTrip m n) s = .next t ∧
        t.aon.latch = (decide (fld c 30 28 = 5) || s.aon.latch) ∧ m ∈ t.aon.tripped ∧ t = { s with aon := t.aon } ∧
        (s.aon.store.length < 15 → t.aon.store = s.aon.store ++
          [{ time := s.aon.counter, mon := m, resp := fld c 30 28, count := sat 255 n }]) ∧
        (15 ≤ s.aon.store.length → t.aon.store = s.aon.store ∧ t.aon.overEntry ≠ none)) ∧
    (s.pwr.st = .winter → ∃ t, exec (.monitorRearm m) s = .next t ∧ m ∉ t.aon.tripped ∧ t.aon.store = s.aon.store ∧
      ∀ i ∈ s.aon.tripped, i ≠ m → i ∈ t.aon.tripped)

/-- EVENT_RECORD of a code that no table lists changes nothing. That of a listed one never lowers the next SEQ and
touches the recorder, and beside it only what it counts: class 2 the corrections of an engine, class 3 the
corrections of a channel, marked rows and the block it retires; NVM_BLOCK the block of NVM it names, which is
retired; a unit fault opens or counts in the window of its unit and cause, a failed read of context memory makes
the data block it names fail from then on, and a record of a retained class enters a ring with room under the next
SEQ when no snapshot set matches. AGGREGATOR_WINDOW_CLOSE after 100 µs closes the window; HELD_RECORD_RELEASE
after 1 s lets the held record be committed; SUMMARY restarts a suppression that has ended. COMMIT_GROUP of an
awake part, once 8 records of one area are staged, the oldest is 10 ms old or a flush asks for it, programs as
many records as the group at the head of the ring holds, or none when it fails. JOURNAL_LOOKUP shows the record
with the lowest SEQ at or above the value written, or NONE; of a vendor record, without the right, the first 32
bytes, and of its extensions nothing. (R409, R410, R571, R573, R576, R577, R578, R579, R581, R584) -/
def Obligations.JournalRecords : Prop :=
  ∀ s : State,
    (∀ (code : BitVec 16) n e d, listedEvent code.toNat = false → exec (.eventRecord code n e d) s = .next s) ∧
    (∀ (code : BitVec 16) n e d, listedEvent code.toNat = true →
      let r := s.mkRec code.toNat n e d
      let cls := codeCls code.toNat
      let why := codeReason code.toNat
      let src := codeSrc code.toNat
      let b := leAt d 8 8 / 512
      ∃ t, exec (.eventRecord code n e d) s = .next t ∧ s.evr.next ≤ t.evr.next ∧
        (cls ≠ 3 ∨ why ≠ 1 → t = { s with evr := t.evr, engines := t.engines, nvm := t.nvm, cmc := t.cmc }) ∧
        (cls ≠ 2 → cls ≠ 3 → code.toNat ≠ eventCode 0xE 117 7 → t = { s with evr := t.evr }) ∧
        (code.toNat = eventCode 0xE 117 7 → t = { s with evr := t.evr, nvm := t.nvm }) ∧
        (cls = 2 → why = 3 → t = { s with evr := t.evr, engines := t.engines } ∧
          t.engine (src - 32) = { s.engine (src - 32) with corr := sat 0xFFFF ((s.engine (src - 32)).corr + 1) }) ∧
        (cls = 2 → why = 1 → t = { s with evr := t.evr } ∧ ∃ w ∈ t.evr.windows, w.unit = src ∧ w.cause = leAt d 0 1) ∧
        (cls = 3 → why = 0 → t = { s with evr := t.evr, cmc := t.cmc } ∧
          (src = 107 → t.cmc = { s.cmc with chA := { s.cmc.chA with corr := sat 0xFFFF (s.cmc.chA.corr + 1) } }) ∧
          (src = 108 → t.cmc = { s.cmc with chB := { s.cmc.chB with corr := sat 0xFFFF (s.cmc.chB.corr + 1) } })) ∧
        (cls = 3 → why = 1 → s.cmc.ready = true → b * 512 < s.cmc.usable → t.cmcBad (b * 512) 512 = true ∧
          t.cmc.errAddr = b * 512 ∧ t.cmc.integ = sat 0xFFFF (s.cmc.integ + 1) ∧ t.cmc.cells = s.cmc.cells) ∧
        (r.isRetained = true → s.matchingSets code.toNat = [] → s.evr.ring.length < 128 →
          t.evr.ring = s.evr.ring ++ [{ r with seq := s.evr.next }] ∧ t.evr.next = s.evr.next + 1)) ∧
    (∀ u c w, (s.evr.windows.find? fun x => x.unit = u && x.cause = c) = some w → w.opened + 100000 ≤ s.tim.elapsed →
      ∃ t, exec (.aggregatorWindowClose u c) s = .next t ∧ t = { s with evr := t.evr } ∧
        ∀ x, x ∈ t.evr.windows ↔ x ∈ s.evr.windows ∧ ¬(x.unit = u ∧ x.cause = c)) ∧
    (∀ q r, s.evr.held = some q → (s.evr.ring.find? fun x => x.seq = q) = some r → r.born + 1000000000 ≤ s.tim.elapsed →
      exec .heldRecordRelease s = .next { s with evr := { s.evr with held := none } }) ∧
    (∀ code i b, (s.evr.buckets.find? fun e => e.2.codes.contains code) = some (i, b) → mapFind s.evr.buckets i = some b →
      0 < b.supp → (b.lastAt + 1000000000 ≤ s.tim.elapsed ∨ b.firstAt + 60000000000 ≤ s.tim.elapsed) →
      ∃ t, exec (.summary code) s = .next t ∧ t = { s with evr := t.evr } ∧
        mapFind t.evr.buckets i = some { b with supp := 0 }) ∧
    (∀ ok, s.awake = true → s.evr.ready = true → s.lcs.trans = none → 0 < s.evr.groupLength →
      (8 ≤ s.evr.stagedOfOne ∨ s.evr.flushing = true ∨ ∃ r l, s.evr.ring = r :: l ∧ r.since + 10000000 ≤ s.tim.elapsed) →
      ∃ t, exec (.commitGroup ok) s = .next t ∧ t.evr.written + t.evr.retained.length =
        s.evr.written + s.evr.retained.length + if ok then s.evr.groupLength else 0) ∧
    ∀ hi, s.Takes 0xA0034 → s.pwr.st ≠ .sleep →
      let v := ((mapFind s.loHeld 0xA0030).getD (s.reg (.rdSeq false))).toNat + 2 ^ 32 * hi.toNat
      ∃ t, exec (.journalLookup hi) s = .next t ∧
        ((∀ r ∈ s.evr.all, r.seq < v) → t.evr.found = false ∧ t.evr.none_ = true) ∧
        ∀ r ∈ s.evr.all, v ≤ r.seq → (∀ q ∈ s.evr.all, v ≤ q.seq → r.seq ≤ q.seq) →
          t.evr.found = true ∧ t.evr.none_ = false ∧ t.pair .rdSeq = r.seq % 2 ^ 64 ∧
          ∃ q ∈ s.evr.all, q.seq = r.seq ∧ t.evr.data = if s.evr.isVendor q && !(s.dbg.active && bitAt s.dbg.rights 0)
            then (if q.ext.isSome then zeros 64 else q.bytes.take 32 ++ zeros 32) else q.bytes

/-- Of the registers of `s`, `t` differs in the command word of slice `n` alone, and in no slice but `n`. -/
def onlySlice (s t : State) (n : Nat) : Prop :=
  (∀ i, i ≠ n → t.slice i = s.slice i) ∧ ∀ r : Reg, r.addr ≠ (Reg.slcCtrl n).addr → t.reg r = s.reg r

/-- A command accepted in SLC_CTRL of slice n in a state other than its own sets BAD_STATE and changes no state.
ACTIVATE and RESUME of a slice whose binding passes make it ACTIVE with the PASID it names, and one that fails
sets BAD_CONFIG and its CAUSE; RESUME of a slice that an alarm contains is refused. QUIESCE stops the slice with
its limit and completes every job of it that neither runs nor is suspended; QUIESCE_LIMIT completes and counts the
suspended ones and makes the running ones abort; QUIESCED follows when the slice has drained. Each of these leaves
every other slice, its jobs, every other register, every key and every byte of context memory as they were. RESET
clears the queues, set-up, flags, usage and random instance of the slice, frees its key slots and its sessions and
raises their generations, and changes no other slot, session or slice; REMOVE of a general slice also raises its
epoch, erases its stateful records and returns its manager page grants and SCH settings to their defaults, and
SCRUB_DONE finds its former window 0 and every other byte as it was, the slice DISABLED; slice 127 cannot be
removed. (R490, R491, R492, R494, R497, R498, R499, R500, R551) -/
def Obligations.SliceCommands : Prop :=
  ∀ (s : State) (n : Nat) (w : Word),
    (∀ c ∈ [(Instr.activate n, 1, SliceSt.disabled), (.quiesce n, 2, .active), (.resume n, 3, .quiesced),
        (.reset n, 4, .quiesced), (.remove n, 5, .quiesced)], accepts s (.slcCtrl n) w → fld w 31 28 = c.2.1 →
      s.sliceState n ≠ c.2.2 → ∃ t, exec c.1 s = .next t ∧ onlySlice s t n ∧
        t = { s with regs := t.regs, accepted := mapErase s.accepted (Reg.slcCtrl n).addr, slices := t.slices, evr := t.evr } ∧
        t.slice n = { s.slice n with badState := true }) ∧
    (∀ c ∈ [(Instr.activate n, 1, SliceSt.disabled), (.resume n, 3, .quiesced)], accepts s (.slcCtrl n) w →
      fld w 31 28 = c.2.1 → s.sliceState n = c.2.2 →
      (c.2.1 = 3 → s.contained n = true → ∃ t, exec c.1 s = .next t ∧ onlySlice s t n ∧
        t.slice n = { s.slice n with badState := true }) ∧
      (c.2.1 = 1 ∨ s.contained n = false → ∃ t, exec c.1 s = .next t ∧ onlySlice s t n ∧
        t = { s with
          regs := t.regs, accepted := mapErase s.accepted (Reg.slcCtrl n).addr, slices := t.slices, evr := t.evr
          hif := t.hif, out := t.out } ∧
        t.slice n = if s.bindCheck n = 0 then { s.slice n with st := .active, cause := 0, pasid := s.namedPasid n }
          else { s.slice n with badConfig := true, cause := s.bindCheck n })) ∧
    (accepts s (.slcCtrl n) w → fld w 31 28 = 2 → s.sliceState n = .active → ∃ t, exec (.quiesce n) s = .next t ∧
      onlySlice s t n ∧ t.kmg = s.kmg ∧ t.cmc.cells = s.cmc.cells ∧ (t.slice n).st = .quiescing ∧
      (t.slice n).aborted = 0 ∧ (t.slice n).limitAt = s.tim.elapsed + fld (s.reg (.limit n)) 9 0 * 1000000 ∧
      ∀ j x, s.job? j = some x →
        (x.slice ≠ n ∨ x.stage = .done ∨ x.state = .running ∨ x.state = .suspended → t.job? j = some x) ∧
        (x.slice = n → x.stage ≠ .done → x.state ≠ .running → x.state ≠ .suspended →
          ∃ y, t.job? j = some y ∧ y.stage = .done ∧ y.result = fail .sliceQuiesced)) ∧
    ((s.slice n).st = .quiescing → (s.slice n).limitAt ≤ s.tim.elapsed → ∃ t, exec (.quiesceLimit n) s = .next t ∧
      onlySlice s t n ∧ t.kmg = s.kmg ∧ t.cmc.cells = s.cmc.cells ∧
      (t.slice n).aborted = sat 0xFFFF ((s.slice n).aborted +
        (s.sch.jobs.filter fun e => e.2.slice = n && e.2.state = .suspended).length) ∧
      ∀ j x, s.job? j = some x → (x.slice ≠ n ∨ x.stage = .done → t.job? j = some x) ∧
        (x.slice = n → x.stage ≠ .done → if x.state = .running then
            t.job? j = some { x with abort := some (x.abort.getD (fail .sliceQuiesced)) }
          else ∃ y, t.job? j = some y ∧ y.stage = .done ∧ y.result = fail .sliceQuiesced)) ∧
    ((s.slice n).st = .quiescing → s.drained n = true → ∃ t, exec (.quiesced n) s = .next t ∧
      t.slice n = { s.slice n with st := .quiesced } ∧ (∀ i, i ≠ n → t.slice i = s.slice i) ∧
      t = { s with slices := t.slices, evr := t.evr, hif := t.hif, out := t.out }) ∧
    (accepts s (.slcCtrl n) w → s.sliceState n = .quiesced → keysRise s.kmg.slots = true → keysRise s.kmg.sessions = true →
      let inBlocks := fun i => (s.sessionBlocks n).1 * 4096 ≤ i ∧ i < ((s.sessionBlocks n).1 + (s.sessionBlocks n).2) * 4096
      let cleared := fun t : State => (t.slice n).sqs = [] ∧ (t.slice n).cqs = [] ∧ (t.slice n).flags = 0 ∧
        (t.slice n).flagReqs = [] ∧ (t.slice n).usage = [] ∧ (t.slice n).drbg = {} ∧ (∀ r ∈ queueRegs n, t.reg r = r.reset) ∧
        (∀ m < 4, t.reg (.evmap n m) = 0) ∧ (∀ i, i ≠ n → t.slice i = s.slice i) ∧
        (∀ i, t.slot i = if (s.slot i).inUse = true ∧ (s.slot i).owner = n ∧ (s.slot i).zombie = false
          then (s.slot i).freed else s.slot i) ∧
        ∀ i, (inBlocks i → (t.session i).st = .free ∧ t.sessGen i = (s.sessGen i + 1) % 4096) ∧
          (¬ inBlocks i → t.session i = s.session i ∧ t.sessGen i = s.sessGen i)
      (fld w 31 28 = 4 → ∃ t, exec (.reset n) s = .next t ∧ cleared t ∧ (t.slice n).st = .quiesced ∧
        t = { s with
          regs := t.regs, loHeld := t.loHeld, accepted := t.accepted, slices := t.slices, kmg := t.kmg, evr := t.evr } ∧
        t.kmg = { s.kmg with
          slots := t.kmg.slots, sessions := t.kmg.sessions, sessBase := t.kmg.sessBase, sessCache := t.kmg.sessCache } ∧
        ∀ r ∈ sliceSettings n, t.reg r = s.reg r) ∧
      (fld w 31 28 = 5 → n ≠ 127 → ∃ t, exec (.remove n) s = .next t ∧ cleared t ∧ (t.slice n).st = .scrubbing ∧
        (t.slice n).scrub = (fld (s.reg (.winBase n)) 16 0, fld (s.reg (.winSize n)) 16 0) ∧
        t.epoch n = (s.epoch n + 1) % 2 ^ 32 ∧ (∀ m, m ≠ n → t.epoch m = s.epoch m) ∧ (∀ e ∈ t.kmg.stf, e.2.owner ≠ n) ∧
        (∀ e ∈ s.kmg.stf, e.2.owner ≠ n → e ∈ t.kmg.stf) ∧ t.cmc = s.cmc ∧
        (∀ r ∈ sliceSettings n, r ≠ .keyQuota n → t.reg r = r.reset) ∧ t.reg (.keyQuota n) = s.reg (.keyQuota n)) ∧
      (fld w 31 28 = 5 → n = 127 → ∃ t, exec (.remove n) s = .next t ∧ onlySlice s t n ∧ t.kmg = s.kmg ∧ t.cmc = s.cmc ∧
        t.slice n = { s.slice n with badConfig := true, cause := 6 })) ∧
    ((s.slice n).st = .scrubbing → s.awake = true →
      let lo := (s.slice n).scrub.1 * 0x200000
      let hi := ((s.slice n).scrub.1 + (s.slice n).scrub.2) * 0x200000
      ∃ t, exec (.scrubDone n) s = .next t ∧ t.slice n = { s.slice n with st := .disabled, scrub := (0, 0) } ∧
        (∀ i, i ≠ n → t.slice i = s.slice i) ∧
        t = { s with slices := t.slices, cmc := t.cmc, evr := t.evr, hif := t.hif, out := t.out } ∧
        ∀ a, t.cmcBytes a 1 = if lo ≤ a ∧ a < hi then [0] else s.cmcBytes a 1)

/-- Source `n` has failed a test with cause `c` (R472): the next source that is not BAD is selected, or none is left. -/
def sourceFailed (s t : State) (n c : Nat) : Prop :=
  (mapGet {} t.rng.srcs n).st = .bad ∧ (mapGet {} t.rng.srcs n).cause = c ∧ t.rng.pool = [] ∧
  (c = 1 → 28 ≤ (mapGet {} t.rng.srcs n).maxRun) ∧ (c = 2 → 685 ≤ (mapGet {} t.rng.srcs n).maxApt) ∧
  (∀ m, m ≠ n → some m ≠ s.rng.nextSource n → mapGet {} t.rng.srcs m = mapGet {} s.rng.srcs m) ∧
  t.rng.ready = s.rng.ready ∧ (∀ i < 6, t.drbg i = s.drbg i) ∧ t.regs = s.regs ∧ t.kmg = s.kmg ∧
    match s.rng.nextSource n with
    | some m => t.rng.sel = m ∧ t.rng.switching = true ∧ (mapGet {} t.rng.srcs m).st = .selected ∧ t.sch = s.sch
    | none => t.rng.noSource = true ∧ t.rng.waiting = []

/-- A source that reports `c`, 0 or the cause of R484 with which its start-up test fails (R475). -/
def verdict (x : Source) (c : Nat) : SrcSt × Bool × Nat :=
  if c = 0 then (.standby, true, x.cause) else (.bad, false, c)

/-- HEALTH_FAIL and NO_SAMPLES of the selected source mark it BAD with its cause, discard the pool, keep the cut-off
it met in its statistics, and select the next source that is not BAD, or none is left and no request waits any
more; the instances, keys, registers and other sources stay. BLOCK_READY counts a block and ends a switch; the
first completes the harvest and seeds D0, and a later one, which nothing else needs, goes to the pool while that
holds fewer than 16, where no statement key is made with it. RESEED_BACKGROUND and RESEED_DUE reseed D0 with the
oldest block of the pool and another instance from D0 where D0 can serve, with its age and count beginning anew;
one that is due and cannot be reseeded serves nothing. RETEST of a BAD source after an hour and STANDBY_RETEST of
one that is due start its test and change nothing else; the end of the test gives the source its verdict, and a
pass after NOSOURCE selects it. ROOT_GENERATION draws the root of a state that has none with the oldest block of
the pool, or waits for a block ahead of every other request; the statement key made under the root before it is
gone, and no other root changes. (R415, R464, R465, R466, R468, R469, R470, R472, R474, R475, R477, R484) -/
def Obligations.EntropySources : Prop :=
  ∀ s : State,
    (s.rng.on = true → s.rng.noSource = false → s.awake = true → s.rng.sel < 4 →
      (∀ c b, ∃ t, exec (.healthFail s.rng.sel c b) s = .next t ∧ sourceFailed s t s.rng.sel c) ∧
      (∃ t, exec (.noSamples s.rng.sel) s = .next t ∧ sourceFailed s t s.rng.sel 3) ∧
      ∃ t, exec .blockReady s = .next t ∧ t.rng.blocks = (s.rng.blocks + 1) % 2 ^ 64 ∧ t.rng.switching = false ∧
        t.rng.sel = s.rng.sel ∧ (mapGet {} t.rng.srcs s.rng.sel).st = .selected ∧ t.regs = s.regs ∧ t.sch = s.sch ∧
        t.cmc.cells = s.cmc.cells ∧ (s.rng.ready = false → t.rng.ready = true ∧ t.rng.d0.live = true) ∧
        (s.rng.ready = true → s.rng.root.live = true → s.reseedIsDue 0 = false → s.rng.waiting = [] →
          s.code.loaded.contains 4 = false →
          if s.rng.pool.length < 16 then ∃ b : Bytes, b.length = 48 ∧ t.rng.pool = s.rng.pool ++ [b] ∧ t.rng.d0 = s.rng.d0
          else t.rng.pool = s.rng.pool ∧ t.rng.d0.reseeded = s.tim.elapsed)) ∧
    (∀ i, s.awake = true →
      let renewed := fun (cmd : Instr) => ∃ t b, exec cmd s = .next t ∧ (i ≠ 0 → b.length = 48) ∧
        t.drbg i = (s.drbg i).reseededWith b s.tim.elapsed ∧ (i = 0 → s.rng.pool = b :: t.rng.pool) ∧
        t = { s with rng := t.rng, slices := t.slices } ∧ (i < 256 → t.slices = s.slices) ∧
        (∀ k, k ≠ 0 → k ≠ i → k < 6 ∨ 256 ≤ k → t.drbg k = s.drbg k)
      (i = 0 ∧ s.rng.pool ≠ []) ∨ (((2 ≤ i ∧ i ≤ 5) ∨ 256 ≤ i) ∧ s.d0Serves = true) →
      ((s.drbg i).reached s.tim.elapsed 750 786432 = true → renewed (.reseedBackground i)) ∧
      ((s.drbg i).reached s.tim.elapsed 1000 1048576 = true → renewed (.reseedDue i))) ∧
    (∀ i, (2 ≤ i ∧ i ≤ 5) ∨ 256 ≤ i → s.awake = true → s.d0Serves = false →
      (s.drbg i).reached s.tim.elapsed 1000 1048576 = true →
      ∃ t, exec (.reseedDue i) s = .next t ∧ t.canServe i = false) ∧
    (∀ n c, n < 4 →
      let x := mapGet {} s.rng.srcs n
      let begun := fun i => exec i s = .next { s with rng := { s.rng with
        srcs := mapSet {} s.rng.srcs n { x with test := some (s.tim.elapsed + 1074000, c) } } }
      (s.awake = true → x.test = none → s.rng.on = true → x.st = .bad → x.at_ + 3600 ≤ s.pwr.opSec → begun (.retest n c)) ∧
      (s.awake = true → x.test = none → s.rng.ready = true → s.standbyDue n = true → (∀ m < n, s.standbyDue m = false) →
        begun (.standbyRetest n c)) ∧
      let t := s.sourceTested n c
      let y := mapGet {} t.rng.srcs n
      y.passed = (verdict x c).2.1 ∧ y.cause = (verdict x c).2.2 ∧ y.at_ = s.pwr.opSec ∧ y.test = none ∧
        if c = 0 ∧ s.rng.noSource = true then t.rng.sel = n ∧ t.rng.noSource = false ∧ y.st = .selected
        else y.st = (verdict x c).1 ∧ t.rng.sel = s.rng.sel) ∧
    (s.wantsRoot = true → s.rng.ready = true → s.rng.root.live = true → s.rng.noSource = false →
      (∀ b l, s.rng.pool = b :: l → ∃ t r, exec .rootGeneration s = .next t ∧ t.root? = some r ∧ r.length = 32 ∧
        t.kmg.rootNew = true ∧ t.kmg.ready = true ∧ t.lcs.begun = s.lcs.code ∧ t.regs = s.regs ∧
        (s.code.loaded.contains 4 = false → t.mp.stBlob = [] ∧ t.mp.stPub = [] ∧ t.rng.pool = l) ∧
        ∀ c, c ≠ s.lcs.code → mapFind t.kmg.roots c = mapFind s.kmg.roots c) ∧
      (s.rng.pool = [] → FreshReq.root ∉ s.rng.waiting → exec .rootGeneration s = .next { s with
        rng := { s.rng with waiting := .root :: s.rng.waiting } }))

/-- OVERWRITE_REACHES_GROUP of a group not yet passed: every group up to it is initialised and no longer held in the
table, and the later ones stay there. OVW_DONE ends the overwrite. PATROL_SCRUB of an active channel adds the
corrections to the channel's count, and every uncorrectable block of the channel fails its reads from then on.
None of them changes a byte of context memory. JOB_START of a step whose save image has failed completes the job
ENGINE_FAULT, and of a job on a session whose context has failed completes it ENGINE_FAULT with ENGINE 0x7E, the
session FREE and its generation raised; each reports the failed block. Which block holds what in the internal
region is the choice of log entry 29. (R406, R407, R409, R410, R411) -/
def Obligations.MemoryUpkeep : Prop :=
  (∀ (s : State) (j k : Nat) (x : Job) (p : PStep), s.job? j = some x → x.steps[k]? = some p → s.awake = true →
    s.schStopped = false → x.stage = .active → x.waitCommit = false → (x.drawn = true ∨ s.canRun x = true) → p.cls ≠ none →
    (s.engine p.engine).incoming = some (j, k) → (s.engine p.engine).mayStart = true →
    (s.engine p.engine).freeSlot ≠ none → s.imageWaits k x = false → (x.prot = true ∨ s.lendFirst p.engine = false) →
    (∀ b, p.restore = true → (x.areas.find? fun a => a.step = k).bind SaveArea.bad = some b → ∃ t y, exec (.jobStart j k) s = .next t ∧
      t.job? j = some y ∧ y.stage = .done ∧ y.result = fail .engineFault ∧ t.cmc.errAddr = b * 512) ∧
    ∀ i, p.restore = false → s.lostContext x = some i → ∃ t y, exec (.jobStart j k) s = .next t ∧
      t.job? j = some y ∧ y.stage = .done ∧ y.result = fail .engineFault ∧ y.engineCode = 0x7E ∧
      (t.session i).st = .free ∧ (t.session i).gen = ((s.session i).gen + 1) % 4096 ∧ t.cmc.errAddr = i / 2 * 512) ∧
  ∀ s : State, s.cmc.ready = true → s.awake = true →
    (∀ g, s.cmc.ovwDone = false → s.cmc.done ≤ g → g < s.groups → ∃ t, exec (.overwriteReachesGroup g) s = .next t ∧
      t.cmc.done = g + 1 ∧ (∀ h, h ∈ t.cmc.onDemand ↔ h ∈ s.cmc.onDemand ∧ g < h) ∧ t.cmc.cells = s.cmc.cells) ∧
    (∀ n, s.cmc.ovwDone = false → ∃ t, exec (.ovwDone n) s = .next t ∧ t.cmc.ovwDone = true ∧ t.cmc.done = s.groups ∧
      t.cmc.onDemand = [] ∧ t.cmc.cells = s.cmc.cells) ∧
    ∀ ch n l, ch < 2 → (if ch = 0 then s.cmc.chA else s.cmc.chB).active = true → 0 < n →
      ∃ t, exec (.patrolScrub ch n l) s = .next t ∧ t.cmc.cells = s.cmc.cells ∧
        (if ch = 0 then t.cmc.chA else t.cmc.chB).corr = sat 0xFFFF ((if ch = 0 then s.cmc.chA else s.cmc.chB).corr + n) ∧
        ∀ b ∈ l, b * 512 < s.cmc.usable → s.blockChannel b = ch → t.cmcBad (b * 512) 512 = true

/-- The error of an edge that no load names, with its expected time (R607). -/
def edgeError (s : State) : Int := (s.now : Int) - s.edgeTime

/-- PPS_EDGE with edges enabled: one less than 500 ms after the last is rejected and changes nothing else; with an
armed load station time takes the loaded value; in LOCKED an error above 1 µs is rejected without effect on
station time; an error within the limit is slewed, station time keeps its value and F takes the error off within
its limit. TIME_LOAD sets station time at once and FREE, or arms the load in LOCKING; LOAD_EXPIRED after 2 s drops
it. HOLDOVER_ENTRY after 1.5 s without an edge enters HOLDOVER. ANCHOR_WRITE, TSYNC_PULSE, PHASE_SLEW_END and
XTAL_RC do what their rules say and nothing else. (R603, R606, R607, R608, R609, R610, R612, R613) -/
def Obligations.TimeBase : Prop :=
  ∀ s : State,
    (s.timed = true → bitAt (s.reg .timCtrl) 29 = true →
      let early := ∃ n, s.tim.lastEdge = some n ∧ s.tim.elapsed < n + 500000000
      (early → exec .ppsEdge s = .next { s with tim := { s.tim with rejected := sat 0xFFFF (s.tim.rejected + 1) } }) ∧
      (∀ v a, ¬ early → s.tim.armed = some (v, a) → ∃ t, exec .ppsEdge s = .next t ∧ t.now = v ∧ t.tim.armed = none ∧
        t.tim.accepted = sat 0xFFFF (s.tim.accepted + 1) ∧ t.tim.phase = (s.now : Int) - v) ∧
      (¬ early → s.tim.armed = none → s.tim.st = .locked → 1000 < (edgeError s).natAbs → ∃ t, exec .ppsEdge s = .next t ∧
        t.now = s.now ∧ t.tim.freq = s.tim.freq ∧ t.tim.rejected = sat 0xFFFF (s.tim.rejected + 1) ∧
        t.tim.st = if 3 ≤ s.tim.badRun then .locking else .locked) ∧
      (¬ early → s.tim.armed = none → (s.tim.st = .locked → (edgeError s).natAbs ≤ 1000) →
        (edgeError s).natAbs ≤ fld (s.reg .timCtrl) 7 0 * 1000 → ∃ t, exec .ppsEdge s = .next t ∧ t.now = s.now ∧
          t.tim.slew = -(edgeError s) ∧ t.tim.slewEnd = s.tim.elapsed + 1000000000 ∧ t.tim.phase = edgeError s ∧
          t.tim.freq = max (-2000000 - 8 * s.trim) (min (2000000 - 8 * s.trim) (s.tim.freq - edgeError s)) ∧
          t.tim.st = if s.tim.st = .locked ∨ ((edgeError s).natAbs ≤ 50 ∧ 7 ≤ s.tim.goodRun) then .locked else .locking)) ∧
    (∀ hi, s.Takes 0x20014 → s.pwr.st ≠ .sleep →
      let v := ((mapFind s.loHeld 0x20010).getD (s.reg (.timNext false))).toNat + 2 ^ 32 * hi.toNat
      ∃ t, exec (.timeLoad hi) s = .next t ∧
        if bitAt (s.reg .timCtrl) 31 then t.now = v ∧ t.tim.st = .free ∧ t.tim.armed = none
        else t.now = s.now ∧ t.tim.st = .locking ∧ t.tim.armed = some (v, s.tim.elapsed)) ∧
    (∀ v a, s.tim.armed = some (v, a) → a + 2000000000 ≤ s.tim.elapsed → ∃ t, exec .loadExpired s = .next t ∧
      t.tim = { s.tim with armed := none, expired := true } ∧ t = { s with tim := t.tim, evr := t.evr }) ∧
    (s.tim.st = .locked ∨ s.tim.st = .locking → s.tim.holdFrom + 1500000000 ≤ s.tim.elapsed →
      ∃ t, exec .holdoverEntry s = .next t ∧ t.tim = { s.tim with st := .holdover, goodRun := 0, expected := none } ∧
        t = { s with tim := t.tim, evr := t.evr }) ∧
    (s.timed = true → exec .anchorWrite s = .next { s with aon := { s.aon with
      anchor := some { time := s.tim.ns, counter := s.aon.counter, freq := s.tim.freq } } }) ∧
    (s.timed = true → bitAt (s.reg .timTsync) 31 = true → s.tim.st ≠ .unset →
      (bitAt (s.reg .timTsync) 30 = true → s.tim.st = .locked) → s.tim.tsync = false →
      (((s.now : Int) - signed 21 (fld (s.reg .timTsync) 20 0)) % 1000000000).toNat ≤ s.cycleNs →
      exec .tsyncPulse s = .next { s with
        tim := { s.tim with tsync := true, pulseEnd := s.tim.elapsed + fld (s.reg .timTsync) 29 21 * 1000000 }
        out := s.out ++ [.pulse s.tim.ns] }) ∧
    (s.tim.slewEnd ≤ s.tim.elapsed → exec .phaseSlewEnd s = .next { s with tim := { s.tim with slew := 0 } }) ∧
    ∀ b, ∃ t, exec (.xtalRc b) s = .next t ∧ t.aon = { s.aon with rc := b } ∧ t = { s with aon := t.aon, evr := t.evr }

/-- With its supply present the SMBus port answers ID with SYS_ID, SYS_CAP and the serial, TEMP with the hottest
sensor plus 64, LCS with BUSY beside the value of the latest start, ALARM with TMP_ALARM and STATUS with READY,
the power state, PFAIL and the response, each with its PEC, whose CRC-8 is presumed in log entry 74; it does not
acknowledge the data byte of a write and releases the bus on a timeout. IDCODE gives the code of the part,
SAMPLE/PRELOAD the sampled balls; EXTEST, CLAMP and HIGHZ drive or float the outputs with PERST_N low and act as
BYPASS with PERST_N high; BYPASS selects its register; each touches the port alone. (R670, R671, R672, R673) -/
def Obligations.SmbusAndJtag : Prop :=
  ∀ s : State,
    let answered := fun (o : Out) => Host.Outcome.next (φ := Fault) (ρ := Refusal) { s with out := s.out ++ [o] }
    let reads := fun code block b => answered (.smbus b (s.pec code block b))
    (s.ioPowered = true →
      exec .smbId s = reads 1 true (leBytes 4 s.sysId.toNat ++ leBytes 4 s.sysCap.toNat ++ fit 16 s.fuses.serial) ∧
      exec .smbLcs s = reads 3 false [BitVec.ofNat 8 (128 * bitOf s.lcs.trans.isSome + s.smb.lcs)] ∧
      exec .smbAlarm s = reads 4 true (leBytes 4 s.alarmMask) ∧
      exec .smbStatus s = reads 5 false (leBytes 2 (2 ^ 15 * bitOf s.pwr.ready + 2 ^ 12 * s.pwr.st.code +
        2 ^ 11 * bitOf s.pwr.pfail + 2 ^ 8 * s.response)) ∧
      exec .smbusWrite s = answered .smbusNack ∧ exec .smbusTimeout s = answered .smbusRelease ∧
      (∀ c : Int, -64 ≤ c → c ≤ 191 → s.pwr.ready = true → ∃ t, exec (.smbTemp c) s = .next t ∧
        t.out = s.out ++ [.smbus [BitVec.ofNat 8 (c + 64).toNat] (s.pec 2 false [BitVec.ofNat 8 (c + 64).toNat])] ∧ t = { s with smb := t.smb, out := t.out })) ∧
    (∃ t, exec .idcode s = .next t ∧ t.jtag.ir = 1 ∧ t = { s with jtag := t.jtag, out := t.out } ∧
      t.out = s.out ++ [.jtag (leBytes 4 (if s.fuses.small then 0x13620DB3 else 0x13640DB3))]) ∧
    (∀ p d, ∃ t, exec (.samplePreload p d) s = .next t ∧ t.jtag.sampled = p ∧ t.jtag.boundary = d ∧
      t.jtag.driven = false ∧ t.out = s.out ++ [.jtag p] ∧ t = { s with jtag := t.jtag, out := t.out }) ∧
    (∀ p, s.pins.perstN = false → ∃ t, exec (.extest p) s = .next t ∧ t.jtag.driven = true ∧ t.jtag.sampled = p ∧
      t.jtag.boundary = s.jtag.boundary ∧ t = { s with jtag := t.jtag, out := t.out }) ∧
    (s.pins.perstN = false → (∃ t, exec .clamp s = .next t ∧ t.jtag = { s.jtag with ir := 4, driven := true, highZ := false } ∧
      t = { s with jtag := t.jtag }) ∧ ∃ t, exec .highz s = .next t ∧
        t.jtag = { s.jtag with ir := 5, driven := false, highZ := true } ∧ t = { s with jtag := t.jtag }) ∧
    (∀ n, s.dbg.active = false → exec (.bypass n) s =
      .next { s with jtag := { s.jtag with ir := 0x3F, driven := false, highZ := false } }) ∧
    ∀ c ∈ [Instr.extest [], .clamp, .highz], s.pins.perstN = true → exec c s =
      .next { s with jtag := { s.jtag with ir := 0x3F, driven := false, highZ := false } }
end

