-- ==== Sys2Proof/Laws/Maps.lean ====
section
/-! SUPPORT. The laws of sparse maps: reading after a write, and the canonical form kept by every map operation. -/

namespace Sys2Proof.Machine

variable {α : Type}

/-- The keys of `m` rise strictly and all lie above `k`. -/
theorem keysRise_cons {k : Nat} {v : α} {m : SMap α} :
    keysRise ((k, v) :: m) = true ↔ keysRise m = true ∧ ∀ e ∈ m, k < e.1 := by
  induction m generalizing k v with
  | nil => simp [keysRise]
  | cons b m ih =>
    obtain ⟨j, w⟩ := b
    simp only [keysRise, Bool.and_eq_true, decide_eq_true_eq]
    constructor
    · rintro ⟨h, r⟩
      refine ⟨r, ?_⟩
      intro e he
      rcases List.mem_cons.1 he with rfl | he
      · exact h
      · exact Nat.lt_trans h ((ih.1 r).2 e he)
    · rintro ⟨r, h⟩
      exact ⟨h _ (List.mem_cons_self ..), r⟩

/-- The entries of a map after an insertion are the old ones and the new one. -/
theorem mem_mapInsert {m : SMap α} {k : Nat} {v : α} {e : Nat × α} (h : e ∈ mapInsert m k v) :
    e ∈ m ∨ e = (k, v) := by
  induction m with
  | nil => simp [mapInsert] at h; exact .inr h
  | cons b m ih =>
    obtain ⟨j, w⟩ := b
    unfold mapInsert at h
    split at h
    · rcases List.mem_cons.1 h with h | h
      · exact .inr h
      · exact .inl h
    · split at h
      · rcases List.mem_cons.1 h with h | h
        · exact .inr h
        · exact .inl (List.mem_cons_of_mem _ h)
      · rcases List.mem_cons.1 h with h | h
        · exact .inl (h ▸ List.mem_cons_self ..)
        · exact (ih h).imp (List.mem_cons_of_mem _) id

/-- Erasing adds no entry. -/
theorem mem_mapErase {m : SMap α} {k : Nat} {e : Nat × α} (h : e ∈ mapErase m k) : e ∈ m := by
  induction m with
  | nil => exact h
  | cons b m ih =>
    obtain ⟨j, w⟩ := b
    unfold mapErase at h
    split at h
    · exact List.mem_cons_of_mem _ (ih h)
    · rcases List.mem_cons.1 h with h | h
      · exact h ▸ List.mem_cons_self ..
      · exact List.mem_cons_of_mem _ (ih h)

/-- An insertion keeps the keys rising. -/
theorem keysRise_mapInsert {m : SMap α} (k : Nat) (v : α) (h : keysRise m = true) :
    keysRise (mapInsert m k v) = true := by
  induction m with
  | nil => rfl
  | cons b m ih =>
    obtain ⟨j, w⟩ := b
    have hm := keysRise_cons.1 h
    unfold mapInsert
    split
    · exact keysRise_cons.2 ⟨h, fun e he => by
        rcases List.mem_cons.1 he with rfl | he
        · assumption
        · exact Nat.lt_trans ‹_› (hm.2 e he)⟩
    · split
      · subst_vars
        exact keysRise_cons.2 hm
      · refine keysRise_cons.2 ⟨ih hm.1, fun e he => ?_⟩
        rcases mem_mapInsert he with he | rfl
        · exact hm.2 e he
        · simp only; omega

/-- An erasure keeps the keys rising. -/
theorem keysRise_mapErase {m : SMap α} (k : Nat) (h : keysRise m = true) : keysRise (mapErase m k) = true := by
  induction m with
  | nil => rfl
  | cons b m ih =>
    obtain ⟨j, w⟩ := b
    have hm := keysRise_cons.1 h
    unfold mapErase
    split
    · exact ih hm.1
    · exact keysRise_cons.2 ⟨ih hm.1, fun e he => hm.2 e (mem_mapErase he)⟩

/-- A selection of the entries keeps the keys rising. -/
theorem keysRise_filter {m : SMap α} (p : Nat × α → Bool) (h : keysRise m = true) :
    keysRise (m.filter p) = true := by
  induction m with
  | nil => rfl
  | cons b m ih =>
    obtain ⟨j, w⟩ := b
    have hm := keysRise_cons.1 h
    rw [List.filter_cons]
    split
    · exact keysRise_cons.2 ⟨ih hm.1, fun e he => hm.2 e (List.mem_filter.1 he).1⟩
    · exact ih hm.1

/-- A change of the values keeps the keys rising. -/
theorem keysRise_map {β : Type} {m : SMap α} (f : Nat × α → β) (h : keysRise m = true) :
    keysRise (m.map fun e => (e.1, f e)) = true := by
  induction m with
  | nil => rfl
  | cons b m ih =>
    obtain ⟨j, w⟩ := b
    have hm := keysRise_cons.1 h
    refine keysRise_cons.2 ⟨ih hm.1, fun e he => ?_⟩
    obtain ⟨a, ha, rfl⟩ := List.mem_map.1 he
    exact hm.2 a ha

/-- Reading the key that was inserted gives its value. -/
@[simp] theorem mapFind_mapInsert_self (m : SMap α) (k : Nat) (v : α) : mapFind (mapInsert m k v) k = some v := by
  induction m with
  | nil => simp [mapInsert, mapFind]
  | cons b m ih =>
    obtain ⟨j, w⟩ := b
    unfold mapInsert
    split
    · simp [mapFind]
    · split
      · simp [mapFind]
      · simp only [mapFind]
        rw [if_neg ‹_›, ih]

/-- An insertion leaves every other key as it was. -/
theorem mapFind_mapInsert_ne (m : SMap α) {k i : Nat} (v : α) (h : i ≠ k) :
    mapFind (mapInsert m k v) i = mapFind m i := by
  induction m with
  | nil => simp [mapInsert, mapFind, h]
  | cons b m ih =>
    obtain ⟨j, w⟩ := b
    unfold mapInsert
    split
    · simp [mapFind, h]
    · split
      · subst_vars; simp [mapFind, h]
      · simp only [mapFind, ih]

/-- A key below all others, or absent, is not found. -/
theorem mapFind_none {m : SMap α} {k : Nat} (h : ∀ e ∈ m, e.1 ≠ k) : mapFind m k = none := by
  induction m with
  | nil => rfl
  | cons b m ih =>
    obtain ⟨j, w⟩ := b
    have hj := h (j, w) (List.mem_cons_self ..)
    simp only [mapFind]
    rw [if_neg (fun e => hj e.symm)]
    exact ih fun e he => h e (List.mem_cons_of_mem _ he)

/-- A found key stands in the map. -/
theorem mem_of_mapFind {m : SMap α} {k : Nat} {v : α} (h : mapFind m k = some v) : (k, v) ∈ m := by
  induction m with
  | nil => simp [mapFind] at h
  | cons b m ih =>
    obtain ⟨j, w⟩ := b
    simp only [mapFind] at h
    split at h
    · subst_vars; simp_all
    · exact List.mem_cons_of_mem _ (ih h)

/-- An erasure leaves every other key as it was. -/
theorem mapFind_mapErase_ne (m : SMap α) {k i : Nat} (h : i ≠ k) : mapFind (mapErase m k) i = mapFind m i := by
  induction m with
  | nil => rfl
  | cons b m ih =>
    obtain ⟨j, w⟩ := b
    unfold mapErase
    split
    · subst_vars; simp [mapFind, h, ih]
    · simp only [mapFind, ih]

/-- An erased key is not found. -/
@[simp] theorem mapFind_mapErase_self (m : SMap α) (k : Nat) : mapFind (mapErase m k) k = none := by
  induction m with
  | nil => rfl
  | cons b m ih =>
    obtain ⟨j, w⟩ := b
    unfold mapErase
    split
    · exact ih
    · simp only [mapFind]
      rw [if_neg ‹_›, ih]

variable [DecidableEq α]

/-- A written key reads as written. -/
@[simp] theorem mapGet_mapSet_self (d : α) (m : SMap α) (k : Nat) (v : α) : mapGet d (mapSet d m k v) k = v := by
  unfold mapSet mapGet
  split
  · subst_vars; simp
  · simp

/-- A write leaves every other key as it was. -/
theorem mapGet_mapSet_ne (d : α) (m : SMap α) {k i : Nat} (v : α) (h : i ≠ k) :
    mapGet d (mapSet d m k v) i = mapGet d m i := by
  unfold mapSet mapGet
  split
  · rw [mapFind_mapErase_ne m h]
  · rw [mapFind_mapInsert_ne m v h]

/-- A write keeps the keys rising. -/
theorem keysRise_mapSet (d : α) {m : SMap α} (k : Nat) (v : α) (h : keysRise m = true) :
    keysRise (mapSet d m k v) = true := by
  unfold mapSet
  split
  · exact keysRise_mapErase k h
  · exact keysRise_mapInsert k v h

/-- A write keeps the canonical form. -/
theorem mapWf_mapSet (d : α) {m : SMap α} (k : Nat) (v : α) (h : mapWf d m = true) :
    mapWf d (mapSet d m k v) = true := by
  simp only [mapWf, Bool.and_eq_true, List.all_eq_true, decide_eq_true_eq] at *
  refine ⟨keysRise_mapSet d k v h.1, fun e he => ?_⟩
  unfold mapSet at he
  split at he
  · exact h.2 e (mem_mapErase he)
  · rcases mem_mapInsert he with he | rfl
    · exact h.2 e he
    · assumption

/-- A selection of the entries keeps the canonical form. -/
theorem mapWf_filter (d : α) {m : SMap α} (p : Nat × α → Bool) (h : mapWf d m = true) :
    mapWf d (m.filter p) = true := by
  simp only [mapWf, Bool.and_eq_true, List.all_eq_true, decide_eq_true_eq] at *
  exact ⟨keysRise_filter p h.1, fun e he => h.2 e (List.mem_filter.1 he).1⟩

/-- A change of every value keeps the keys rising. -/
theorem keysRise_mapAll (d : α) {m : SMap α} (f : Nat → α → α) (h : keysRise m = true) :
    keysRise (mapAll d m f) = true :=
  keysRise_filter _ (keysRise_map (fun e => f e.1 e.2) h)

/-- What stands in a map after a change of every value stands at a key of the map. -/
theorem key_of_mem_mapAll {d : α} {m : SMap α} {f : Nat → α → α} {e : Nat × α} (h : e ∈ mapAll d m f) :
    ∃ v, (e.1, v) ∈ m := by
  obtain ⟨a, ha, rfl⟩ := List.mem_map.1 (List.mem_filter.1 h).1
  exact ⟨a.2, ha⟩

/-- A change of one value leaves every other key as it was. -/
theorem mapGet_mapUpd_ne (d : α) (m : SMap α) {k i : Nat} (f : α → α) (h : i ≠ k) :
    mapGet d (mapUpd d m k f) i = mapGet d m i :=
  mapGet_mapSet_ne d m _ h

/-- A changed value reads as changed. -/
@[simp] theorem mapGet_mapUpd_self (d : α) (m : SMap α) (k : Nat) (f : α → α) :
    mapGet d (mapUpd d m k f) k = f (mapGet d m k) :=
  mapGet_mapSet_self d m k _

end Sys2Proof.Machine
end

