-- ==== Sys2Proof/Laws/Onward.lean ====
section
/-! SUPPORT. What every operation of the part keeps (`State.Good`) and what only ever grows (`Onward`). One lemma per
operation, here and in the files after it, says that the operation keeps them; a later proof cites these and unfolds
nothing. -/

namespace Sys2Proof.Machine

set_option linter.all false

theorem Onward.refl (s : State) : Onward s s :=
  ⟨rfl, rfl, List.prefix_refl _, Nat.le_refl _, Nat.le_refl _, Nat.le_refl _, List.prefix_refl _,
    fun _ => Nat.le_refl _, id, id⟩

theorem Onward.trans {r s t : State} (h : Onward r s) (g : Onward s t) : Onward r t :=
  ⟨g.fuses.trans h.fuses, g.pending.trans h.pending, h.out.trans g.out, Nat.le_trans h.free g.free,
    Nat.le_trans h.elapsed g.elapsed, Nat.le_trans h.op g.op, h.words.trans g.words, fun t => Nat.le_trans (h.highest t) (g.highest t), fun x => g.sepFuse (h.sepFuse x), fun x => g.good (h.good x)⟩

/-- The components of the state's form that concern one component each. -/
theorem Onward.upd {r s t : State} (h : Onward r s)
    (fuses : t.fuses = s.fuses := by rfl) (pending : t.pending = s.pending := by rfl)
    (out : s.out <+: t.out := by exact List.prefix_refl _) (free : s.freeCtr ≤ t.freeCtr := by exact Nat.le_refl _)
    (elapsed : s.tim.elapsed ≤ t.tim.elapsed := by exact Nat.le_refl _)
    (op : s.pwr.opSec * 1000000000 + s.pwr.opNs ≤ t.pwr.opSec * 1000000000 + t.pwr.opNs := by exact Nat.le_refl _)
    (words : s.lcs.words <+: t.lcs.words := by exact List.prefix_refl _)
    (highest : ∀ i, mapGet 0 s.code.highest i ≤ mapGet 0 t.code.highest i := by exact fun _ => Nat.le_refl _)
    (sepFuse : s.mp.sepFuse = true → t.mp.sepFuse = true := by exact id)
    (cells : mapWf 0 s.cmc.cells = true → mapWf 0 t.cmc.cells = true := by exact id)
    (pool : s.rng.pool.length ≤ 16 → t.rng.pool.length ≤ 16 := by exact id)
    (jobs : s.Good → keysRise t.sch.jobs = true ∧ ∀ e ∈ t.sch.jobs, e.1 < t.sch.nextJob :=
      by exact fun g => ⟨g.jobs, g.numbers⟩)
    (frac : s.tim.frac < 2 ^ 32 → t.tim.frac < 2 ^ 32 := by exact id)
    (opNs : s.pwr.opNs < 1000000000 → t.pwr.opNs < 1000000000 := by exact id)
    (counter : s.aon.counter < 2 ^ 48 → t.aon.counter < 2 ^ 48 := by exact id)
    (regs : keysRise s.regs = true → keysRise t.regs = true := by exact id)
    (slices : keysRise s.slices = true → keysRise t.slices = true := by exact id)
    (engines : keysRise s.engines = true → keysRise t.engines = true := by exact id)
    (vces : keysRise s.vces = true → keysRise t.vces = true := by exact id)
    (slots : keysRise s.kmg.slots = true → keysRise t.kmg.slots = true := by exact id)
    (sess : keysRise s.kmg.sessions = true → keysRise t.kmg.sessions = true := by exact id)
    (stf : keysRise s.kmg.stf = true → keysRise t.kmg.stf = true := by exact id)
    (epochs : keysRise s.kmg.epochs = true → keysRise t.kmg.epochs = true := by exact id)
    (mons : keysRise s.tmp.mons = true → keysRise t.tmp.mons = true := by exact id)
    (msix : keysRise s.hif.msix = true → keysRise t.hif.msix = true := by exact id) : Onward r t :=
  h.trans ⟨fuses, pending, out, free, elapsed, op, words, highest, sepFuse, fun g =>
    ⟨cells g.cells, pool g.pool, (jobs g).1, (jobs g).2, frac g.frac, opNs g.opNs, counter g.counter, regs g.regs,
      slices g.slices, engines g.engines, vces g.vces, slots g.slots, sess g.sess, stf g.stf, epochs g.epochs,
      mons g.mons, msix g.msix⟩⟩

/-- Everything the relation speaks of. -/
def State.tracked (s : State) :=
  ((s.fuses, s.pending, s.out, s.freeCtr, s.tim.elapsed, s.tim.frac, s.pwr.opSec, s.pwr.opNs, s.lcs.words),
    (s.sch.jobs, s.sch.nextJob, s.code.highest, s.mp.sepFuse, s.cmc.cells, s.rng.pool, s.aon.counter, s.regs),
    s.slices, s.engines, s.vces, s.kmg.slots, s.kmg.sessions, s.kmg.stf, s.kmg.epochs, s.tmp.mons, s.hif.msix)

/-- A state that differs only in what the relation does not speak of. -/
theorem Onward.same {r s t : State} (h : Onward r s) (e : t.tracked = s.tracked) : Onward r t := by
  simp only [State.tracked, Prod.mk.injEq] at e
  obtain ⟨⟨e1, e2, e3, e4, e5, e6, e7, e8, e9⟩, ⟨e10, e11, e12, e13, e14, e15, e16, e17⟩, e18, e19, e20, e21, e22, e23,
    e24, e25, e26⟩ := e
  exact h.upd e1 e2 (e3 ▸ List.prefix_refl _) (Nat.le_of_eq e4.symm) (Nat.le_of_eq e5.symm)
    (Nat.le_of_eq (by rw [e7, e8])) (e9 ▸ List.prefix_refl _)
    (fun _ => Nat.le_of_eq (by rw [e12])) (fun x => e13 ▸ x) (fun g => e14 ▸ g) (fun g => e15 ▸ g)
    (fun g => ⟨e10 ▸ g.jobs, by rw [e10, e11]; exact g.numbers⟩) (fun g => e6 ▸ g) (fun g => e8 ▸ g) (fun g => e16 ▸ g)
    (fun g => e17 ▸ g) (fun g => e18 ▸ g) (fun g => e19 ▸ g) (fun g => e20 ▸ g) (fun g => e21 ▸ g) (fun g => e22 ▸ g)
    (fun g => e23 ▸ g) (fun g => e24 ▸ g) (fun g => e25 ▸ g) (fun g => e26 ▸ g)

/-- The same for a state written out as a record. -/
theorem Onward.mk_same {r s : State} {a1 a2 a3 a4 a5 a6 a7 a8 a9 a10 a11 a12 a13 a14 a15 a16 a17 a18 a19 a20 a21 a22 a23
    a24 a25 a26 a27 a28 a29 a30}
    (e : ((a27, a30, a29, a28, a21.elapsed, a21.frac, a20.opSec, a20.opNs, a18.words),
        (a7.jobs, a7.nextJob, a13.highest, a14.sepFuse, a11.cells, a12.pool, a17.counter, a1),
        a6, a9, a10, a8.slots, a8.sessions, a8.stf, a8.epochs, a16.mons, a23.msix)
      = ((s.fuses, s.pending, s.out, s.freeCtr, s.tim.elapsed, s.tim.frac, s.pwr.opSec, s.pwr.opNs, s.lcs.words),
        (s.sch.jobs, s.sch.nextJob, s.code.highest, s.mp.sepFuse, s.cmc.cells, s.rng.pool, s.aon.counter, s.regs),
        s.slices, s.engines, s.vces, s.kmg.slots, s.kmg.sessions, s.kmg.stf, s.kmg.epochs, s.tmp.mons, s.hif.msix))
    (h : Onward r s) :
    Onward r (State.mk a1 a2 a3 a4 a5 a6 a7 a8 a9 a10 a11 a12 a13 a14 a15 a16 a17 a18 a19 a20 a21 a22 a23 a24 a25 a26 a27
      a28 a29 a30) := h.same e

/-- A fold whose every step goes onward goes onward. -/
theorem Onward.foldl {α : Type} {r : State} {f : State → α → State} (hf : ∀ s a, Onward r s → Onward r (f s a))
    {l : List α} {s : State} (h : Onward r s) : Onward r (l.foldl f s) := by
  induction l generalizing s with
  | nil => exact h
  | cons a l ih => exact ih (hf s a h)

/-- The state of a pair that an equation names. -/
theorem Onward.of_snd {α : Type} {r t : State} {p : α × State} {a : α} (e : p = (a, t)) (h : Onward r p.2) :
    Onward r t := by subst e; exact h

/-- The state that stands first. -/
theorem Onward.of_fst {α : Type} {r t : State} {p : State × α} {a : α} (e : p = (t, a)) (h : Onward r p.1) :
    Onward r t := by subst e; exact h

/-- A choice between two states that went onward. -/
theorem Onward.ite {r s t : State} {c : Prop} [Decidable c] (h : Onward r s) (g : Onward r t) :
    Onward r (if c then s else t) := by
  split
  · exact h
  · exact g

end Sys2Proof.Machine
end

