-- ==== Sys2Proof/Laws/OnwardUnits.lean ====
section
/-! SUPPORT. Operations of the shared units: registers, events, jobs, journal, life cycle, debug, tamper, slices, entropy, keys.
Each lemma: the operation goes onward (`Onward`). -/

namespace Sys2Proof.Machine

set_option linter.all false
-- In order, so that a build of the package as one text needs few threads.
set_option Elab.async false

theorem State.onSlice_onward {r s : State} {n : Nat} {f : Slice → Slice} (h : Onward r s) : Onward r (s.onSlice n f)
    :=
  h.upd (slices := keysRise_mapSet _ _ _)

theorem State.onSq_onward {s₀ : State} {s : State} (n : Nat) (q : Nat) (f : Sq → Sq) (ho : Onward s₀ s) : Onward s₀
    (State.onSq s n q f) := by
  unfold State.onSq
  repeat' (first | with_reducible assumption | with_reducible apply State.onSlice_onward)

theorem State.onCq_onward {s₀ : State} {s : State} (n : Nat) (q : Nat) (f : Cq → Cq) (ho : Onward s₀ s) : Onward s₀
    (State.onCq s n q f) := by
  unfold State.onCq
  repeat' (first | with_reducible assumption | with_reducible apply State.onSlice_onward)

/-- A job in the table is changed: no number is handed out. -/
theorem State.onJob_onward {r s : State} {j : Nat} {f : Job → Job} (h : Onward r s) : Onward r (s.onJob j f) := by
  unfold State.onJob
  split
  · rename_i x hx
    refine h.upd (jobs := fun g => ⟨keysRise_mapInsert _ _ g.jobs, fun e he => ?_⟩)
    rcases mem_mapInsert he with he | rfl
    · exact g.numbers e he
    · exact g.numbers (_, x) (mem_of_mapFind hx)
  · exact h

theorem State.putJob_onward {s₀ : State} {s : State} (j : Nat) (x : Job) (ho : Onward s₀ s) : Onward s₀
    (State.putJob s j x) := by
  unfold State.putJob
  repeat' (first | with_reducible assumption | with_reducible apply State.onJob_onward)

theorem State.onEngine_onward {r s : State} {e : Nat} {f : Engine → Engine} (h : Onward r s) :
    Onward r (s.onEngine e f) := h.upd (engines := keysRise_mapSet _ _ _)

theorem State.onVce_onward {r s : State} {e : Nat} {f : Vce → Vce} (h : Onward r s) : Onward r (s.onVce e f) :=
  h.upd (vces := keysRise_mapSet _ _ _)

theorem State.onSlot_onward {r s : State} {i : Nat} {f : KeySlot → KeySlot} (h : Onward r s) :
    Onward r (s.onSlot i f) := h.upd (slots := keysRise_mapSet _ _ _)

theorem State.onSession_onward {r s : State} {i : Nat} {f : Session → Session} (h : Onward r s) :
    Onward r (s.onSession i f) := h.upd (sess := keysRise_mapSet _ _ _)

theorem State.onRecord_onward {r s : State} {i : Nat} {f : StfRecord → StfRecord} (h : Onward r s) :
    Onward r (s.onRecord i f) := by
  unfold State.onRecord
  split
  · exact h.upd (stf := keysRise_mapInsert _ _)
  · exact h

theorem State.onMon_onward {r s : State} {m : Nat} {f : Mon → Mon} (h : Onward r s) : Onward r (s.onMon m f) :=
  h.upd (mons := keysRise_mapSet _ _ _)

theorem State.draw_onward {r s : State} {n : Nat} (h : Onward r s) : Onward r (s.draw n).2 :=
  h.upd (free := Nat.le_succ _)

theorem State.emit_onward {r s : State} {o : Out} (h : Onward r s) : Onward r (s.emit o) :=
  h.upd (out := List.prefix_append _ _)

theorem State.cachePage_onward {s₀ s : State} (p page : Nat) (ho : Onward s₀ s) : Onward s₀ (s.cachePage p page) :=
  ho.upd (free := Nat.le_succ _)

theorem State.translate_onward {s₀ s : State} (pasid : Option Nat) (l : List Nat) (ho : Onward s₀ s) :
    Onward s₀ (s.translate pasid l).2 := by
  induction l generalizing s with
  | nil => exact ho
  | cons a l ih =>
    simp only [State.translate]
    split
    · exact ih ho
    · have h1 := State.emit_onward (o := .translate pasid a) ho
      generalize s.emit _ = u at h1 ⊢
      split
      · exact h1.upd (free := Nat.le_succ _)
      · exact ih (State.cachePage_onward _ _ h1)

theorem State.request_onward {s₀ : State} {s : State} (pasid : Option Nat) (addr : Nat) (len : Nat) (o : Out) (ho :
    Onward s₀ s) : Onward s₀ (State.request s pasid addr len o) := by
  unfold State.request
  repeat' (first
    | with_reducible assumption
    | (with_reducible apply State.emit_onward)
    | (with_reducible apply State.translate_onward)
    | with_reducible apply Onward.foldl
    | refine Onward.of_snd (by assumption) ?_
    | split
    | (with_reducible refine Onward.mk_same rfl ?_
       first
       | with_reducible assumption
       | (with_reducible apply State.emit_onward)
       | (with_reducible apply State.translate_onward)
       | refine Onward.of_snd (by assumption) ?_)
    | intro _
    | extract_lets
    | dsimp (zeta := false) only
    | dsimp +zetaDelta only)

theorem State.releaseCommits_onward {s₀ s : State} (ho : Onward s₀ s) : Onward s₀ s.releaseCommits := by
  unfold State.releaseCommits
  split
  · exact ho
  · exact ho.upd (stf := fun g => keysRise_map (fun e : Nat × StfRecord => { e.2 with heldBack := false }) g)

theorem State.setDrbg_onward {s₀ : State} {s : State} (i : Nat) (d : Drbg) (ho : Onward s₀ s) : Onward s₀
    (State.setDrbg s i d) := by
  unfold State.setDrbg
  repeat' (first
      | with_reducible assumption | with_reducible apply State.onSlice_onward | split
      | with_reducible refine Onward.mk_same rfl ?_)

theorem State.newBlock_onward {s₀ s : State} (ho : Onward s₀ s) : Onward s₀ s.newBlock.2 :=
  ho.upd (free := Nat.le_succ _)

theorem State.takePool_onward {s₀ s t : State} {a : Bytes} (he : s.takePool = some (a, t)) (ho : Onward s₀ s) :
    Onward s₀ t := by
  unfold State.takePool at he
  split at he
  · rename_i b r hr
    cases he
    refine ho.upd (pool := fun g => ?_)
    rw [hr] at g
    exact Nat.le_of_succ_le g
  · cases he

theorem State.seed_onward {s₀ : State} {s : State} (i : Nat) (b : Bytes) (ho : Onward s₀ s) : Onward s₀ (State.seed
    s i b) := by
  unfold State.seed
  repeat' (first
    | with_reducible assumption
    | (with_reducible apply State.setDrbg_onward)
    | with_reducible apply Onward.foldl
    | refine Onward.of_snd (by assumption) ?_
    | split
    | (with_reducible refine Onward.mk_same rfl ?_
       first
       | with_reducible assumption
       | (with_reducible apply State.setDrbg_onward)
       | refine Onward.of_snd (by assumption) ?_)
    | intro _
    | extract_lets
    | dsimp (zeta := false) only
    | dsimp +zetaDelta only)

theorem State.poolSeed_onward {s₀ : State} {s : State} (i : Nat) (ho : Onward s₀ s) : Onward s₀ (State.poolSeed s i)
    := by
  unfold State.poolSeed
  repeat' (first
    | with_reducible assumption
    | (refine State.takePool_onward (by assumption) ?_)
    | (with_reducible apply State.seed_onward)
    | with_reducible apply Onward.foldl
    | refine Onward.of_snd (by assumption) ?_
    | split
    | (with_reducible refine Onward.mk_same rfl ?_
       first
       | with_reducible assumption
       | (refine State.takePool_onward (by assumption) ?_)
       | (with_reducible apply State.seed_onward)
       | refine Onward.of_snd (by assumption) ?_)
    | intro _
    | extract_lets
    | dsimp (zeta := false) only
    | dsimp +zetaDelta only)

theorem State.request1_onward {s₀ : State} {s : State} (i : Nat) (n : Nat) (ho : Onward s₀ s) : Onward s₀
    (State.request1 s i n).2 := by
  unfold State.request1
  repeat' (first
    | with_reducible assumption
    | (with_reducible apply State.setDrbg_onward)
    | with_reducible apply Onward.foldl
    | refine Onward.of_snd (by assumption) ?_
    | split
    | (with_reducible refine Onward.mk_same rfl ?_
       first
       | with_reducible assumption
       | (with_reducible apply State.setDrbg_onward)
       | refine Onward.of_snd (by assumption) ?_)
    | intro _
    | extract_lets
    | dsimp (zeta := false) only
    | dsimp +zetaDelta only)

theorem State.fromD0_onward {s₀ : State} {s : State} (i : Nat) (ho : Onward s₀ s) : Onward s₀ (State.fromD0 s i) := by
  unfold State.fromD0
  extract_lets s0_
  have h_s0_ : Onward s₀ s0_ := by
    dsimp (zeta := false) only [s0_]
    repeat' (first
      | with_reducible assumption
      | (with_reducible apply State.poolSeed_onward)
      | (with_reducible apply State.request1_onward)
      | (with_reducible apply State.seed_onward)
      | with_reducible apply Onward.foldl
      | refine Onward.of_snd (by assumption) ?_
      | split
      | (with_reducible refine Onward.mk_same rfl ?_
         first
         | with_reducible assumption
         | (with_reducible apply State.poolSeed_onward)
         | (with_reducible apply State.request1_onward)
         | (with_reducible apply State.seed_onward)
         | refine Onward.of_snd (by assumption) ?_)
      | intro _
      | extract_lets
      | dsimp (zeta := false) only
      | dsimp +zetaDelta only)
  try clear_value s0_
  repeat' (first
    | with_reducible assumption
    | (with_reducible apply State.poolSeed_onward)
    | (with_reducible apply State.request1_onward)
    | (with_reducible apply State.seed_onward)
    | with_reducible apply Onward.foldl
    | refine Onward.of_snd (by assumption) ?_
    | split
    | (with_reducible refine Onward.mk_same rfl ?_
       first
       | with_reducible assumption
       | (with_reducible apply State.poolSeed_onward)
       | (with_reducible apply State.request1_onward)
       | (with_reducible apply State.seed_onward)
       | refine Onward.of_snd (by assumption) ?_)
    | intro _
    | extract_lets
    | dsimp (zeta := false) only
    | dsimp +zetaDelta only)

theorem State.reseed_onward {s₀ : State} {s : State} (i : Nat) (ho : Onward s₀ s) : Onward s₀ (State.reseed s i) := by
  unfold State.reseed
  repeat' (first
    | with_reducible assumption
    | (with_reducible apply State.poolSeed_onward)
    | (with_reducible apply State.fromD0_onward)
    | with_reducible apply Onward.foldl
    | refine Onward.of_snd (by assumption) ?_
    | split
    | (with_reducible refine Onward.mk_same rfl ?_
       first
       | with_reducible assumption
       | (with_reducible apply State.poolSeed_onward)
       | (with_reducible apply State.fromD0_onward)
       | refine Onward.of_snd (by assumption) ?_)
    | intro _
    | extract_lets
    | dsimp (zeta := false) only
    | dsimp +zetaDelta only)

theorem State.serve_onward {s₀ : State} {s : State} (i : Nat) (ho : Onward s₀ s) : Onward s₀ (State.serve s i) := by
  unfold State.serve
  repeat' (first
    | with_reducible assumption
    | (with_reducible apply State.fromD0_onward)
    | with_reducible apply Onward.foldl
    | refine Onward.of_snd (by assumption) ?_
    | split
    | (with_reducible refine Onward.mk_same rfl ?_
       first
       | with_reducible assumption
       | (with_reducible apply State.fromD0_onward)
       | refine Onward.of_snd (by assumption) ?_)
    | intro _
    | extract_lets
    | dsimp (zeta := false) only
    | dsimp +zetaDelta only)

theorem State.generate_onward {s₀ s : State} (i n : Nat) (ho : Onward s₀ s) : Onward s₀ (s.generate i n).2 := by
  unfold State.generate
  suffices h : ∀ (l : List Nat) (a : Bytes × State), Onward s₀ a.2 → Onward s₀ (l.foldl (fun (a : Bytes × State) k =>
      let (b, s) := (a.2.serve i).request1 i k
      (a.1 ++ b, s)) a).2 from h _ _ ho
  intro l
  induction l with
  | nil => exact fun _ h => h
  | cons k l ih => exact fun a h => ih _ (State.request1_onward _ _ (State.serve_onward _ h))

theorem State.maskedBy_onward {s₀ : State} {s : State} (i : Nat) (b : Bytes) (ho : Onward s₀ s) : Onward s₀
    (State.maskedBy s i b).2 := by
  unfold State.maskedBy
  repeat' (first
    | with_reducible assumption
    | (with_reducible apply State.generate_onward)
    | with_reducible apply Onward.foldl
    | refine Onward.of_snd (by assumption) ?_
    | split
    | (with_reducible refine Onward.mk_same rfl ?_
       first
       | with_reducible assumption
       | (with_reducible apply State.generate_onward)
       | refine Onward.of_snd (by assumption) ?_)
    | intro _
    | extract_lets
    | dsimp (zeta := false) only
    | dsimp +zetaDelta only)

theorem State.freshSlice_onward {s₀ : State} {s : State} (n : Nat) (b : Bytes) (ho : Onward s₀ s) : Onward s₀
    (State.freshSlice s n b) := by
  unfold State.freshSlice
  repeat' (first
    | with_reducible assumption
    | (with_reducible apply State.seed_onward)
    | (with_reducible apply State.fromD0_onward)
    | with_reducible apply Onward.foldl
    | refine Onward.of_snd (by assumption) ?_
    | split
    | (with_reducible refine Onward.mk_same rfl ?_
       first
       | with_reducible assumption
       | (with_reducible apply State.seed_onward)
       | (with_reducible apply State.fromD0_onward)
       | refine Onward.of_snd (by assumption) ?_)
    | intro _
    | extract_lets
    | dsimp (zeta := false) only
    | dsimp +zetaDelta only)

theorem State.reseedAll_onward {s₀ : State} {s : State} (ho : Onward s₀ s) : Onward s₀ (State.reseedAll s) := by
  unfold State.reseedAll
  repeat' (first
    | with_reducible assumption
    | (with_reducible apply State.reseed_onward)
    | with_reducible apply Onward.foldl
    | refine Onward.of_snd (by assumption) ?_
    | split
    | (with_reducible refine Onward.mk_same rfl ?_
       first
       | with_reducible assumption
       | (with_reducible apply State.reseed_onward)
       | refine Onward.of_snd (by assumption) ?_)
    | intro _
    | extract_lets
    | dsimp (zeta := false) only
    | dsimp +zetaDelta only)

theorem State.setReg_onward {r s : State} {g : Reg} {v : Word} (h : Onward r s) : Onward r (s.setReg g v) :=
  h.upd (regs := keysRise_mapSet _ _ _)

theorem State.stewardRead_onward {s₀ : State} {s : State} (addr : Nat) (len : Nat) (ho : Onward s₀ s) : Onward s₀
    (State.stewardRead s addr len) := by
  unfold State.stewardRead
  repeat' (first
    | with_reducible assumption
    | (with_reducible apply State.request_onward)
    | with_reducible apply Onward.foldl
    | refine Onward.of_snd (by assumption) ?_
    | split
    | (with_reducible refine Onward.mk_same rfl ?_
       first
       | with_reducible assumption
       | (with_reducible apply State.request_onward)
       | refine Onward.of_snd (by assumption) ?_)
    | intro _
    | extract_lets
    | dsimp (zeta := false) only
    | dsimp +zetaDelta only)

theorem State.setPair_onward {s₀ : State} {s : State} (f : Bool → Reg) (v : Nat) (ho : Onward s₀ s) : Onward s₀
    (State.setPair s f v) := by
  unfold State.setPair
  repeat' (first | with_reducible assumption | with_reducible apply State.setReg_onward)

theorem State.push_onward {s₀ : State} {s : State} (r : Rec) (ho : Onward s₀ s) : Onward s₀ (State.push s r) := by
  unfold State.push
  repeat' (first | with_reducible assumption | with_reducible refine Onward.mk_same rfl ?_)

theorem State.tokenControl_onward {s₀ s : State} (r : Rec) (h : Onward s₀ s) : Onward s₀ (s.tokenControl r) := by
  unfold State.tokenControl
  extract_lets
  split
  split
  · exact State.push_onward _ (h.same rfl)
  · exact h.same rfl

theorem State.holdControl_onward {s₀ : State} {s : State} (r : Rec) (ho : Onward s₀ s) : Onward s₀
    (State.holdControl s r) := by
  unfold State.holdControl
  extract_lets s0_ x1_ s2_ x3_
  have h_s0_ : Onward s₀ s0_ := by
    dsimp (zeta := false) only [s0_]
    repeat' (first | with_reducible assumption | with_reducible apply State.push_onward)
  try clear_value s0_
  have h_s2_ : Onward s₀ s2_ := by
    dsimp (zeta := false) only [s2_]
    repeat' (first | with_reducible assumption | with_reducible refine Onward.mk_same rfl ?_)
  try clear_value s2_
  repeat' (first | with_reducible assumption | split | with_reducible refine Onward.mk_same rfl ?_)

theorem State.intake_onward {s₀ : State} {s : State} (r : Rec) (ho : Onward s₀ s) : Onward s₀ (State.intake s r) := by
  unfold State.intake
  extract_lets s0_ x1_
  have h_s0_ : Onward s₀ s0_ := by
    dsimp (zeta := false) only [s0_]
    repeat' (first | with_reducible assumption | with_reducible apply State.push_onward)
  try clear_value s0_
  repeat' (first
      | with_reducible assumption | with_reducible apply State.holdControl_onward
      | with_reducible apply State.tokenControl_onward | split | with_reducible refine Onward.mk_same rfl ?_)

theorem State.event_onward {s₀ : State} {s : State} (cls : Nat) (src : Nat) (reason : Nat) (slice : optParam Nat 0)
    (engine : optParam Nat 255) (detail : optParam Bytes []) (ho : Onward s₀ s) : Onward s₀ (State.event s cls src
    reason slice engine detail) := by
  unfold State.event
  repeat' (first | with_reducible assumption | with_reducible apply State.intake_onward)

theorem State.configEvent_onward {s₀ : State} {s : State} (src : Nat) (slice : optParam Nat 0) (detail : optParam
    Bytes []) (ho : Onward s₀ s) : Onward s₀ (State.configEvent s src slice detail) := by
  unfold State.configEvent
  repeat' (first | with_reducible assumption | with_reducible apply State.event_onward)

theorem State.closeWindow_onward {s₀ : State} {s : State} (unit : Nat) (cause : Nat) (ho : Onward s₀ s) : Onward s₀
    (State.closeWindow s unit cause) := by
  unfold State.closeWindow
  extract_lets x0_ s1_
  have h_s1_ : Onward s₀ s1_ := by
    dsimp (zeta := false) only [s1_]
    repeat' (first | with_reducible assumption | with_reducible refine Onward.mk_same rfl ?_)
  try clear_value s1_
  repeat' (first | with_reducible assumption | with_reducible apply State.intake_onward | split)

theorem State.report_onward {s₀ : State} {s : State} (unit : Nat) (cause : Nat) (r : Rec) (ho : Onward s₀ s) :
    Onward s₀ (State.report s unit cause r) := by
  unfold State.report
  extract_lets s0_ x1_
  have h_s0_ : Onward s₀ s0_ := by
    dsimp (zeta := false) only [s0_]
    repeat' (first | with_reducible assumption | with_reducible apply State.closeWindow_onward | split)
  try clear_value s0_
  repeat' (first | with_reducible assumption | split | with_reducible refine Onward.mk_same rfl ?_)

theorem State.reportUnit_onward {s₀ : State} {s : State} (e : Nat) (cause : Nat) (slice : Nat) (more : optParam
    Bytes []) (ho : Onward s₀ s) : Onward s₀ (State.reportUnit s e cause slice more) := by
  unfold State.reportUnit
  repeat' (first | with_reducible assumption | with_reducible apply State.report_onward)

theorem State.readFails_onward {s₀ : State} {s : State} (b : Nat) (ho : Onward s₀ s) : Onward s₀ (State.readFails s
    b) := by
  unfold State.readFails
  extract_lets x0_ s1_ x2_
  have h_s1_ : Onward s₀ s1_ := by
    dsimp (zeta := false) only [s1_]
    repeat' (first | with_reducible assumption | with_reducible refine Onward.mk_same rfl ?_)
  try clear_value s1_
  repeat' (first | with_reducible assumption | with_reducible apply State.report_onward)

theorem State.noteRead_onward {s₀ : State} {s : State} (a : Nat) (n : Nat) (ho : Onward s₀ s) : Onward s₀
    (State.noteRead s a n) := by
  unfold State.noteRead
  repeat' (first | with_reducible assumption | with_reducible apply State.readFails_onward | split)

theorem State.openGroups_onward {s₀ : State} {s : State} (a : Nat) (n : Nat) (ho : Onward s₀ s) : Onward s₀
    (State.openGroups s a n) := by
  unfold State.openGroups
  repeat' (first | with_reducible assumption | with_reducible refine Onward.mk_same rfl ?_)

theorem State.cmcWrite_onward {s₀ s : State} (a : Nat) (b : Bytes) (h : Onward s₀ s) : Onward s₀ (s.cmcWrite a b) :=
    by
  have e : ∀ (b : Bytes) (l : List Cell) (a : Nat), mapWf 0 l = true → mapWf 0 (putCells l a b) = true := by
    intro b
    induction b with
    | nil => exact fun _ _ g => g
    | cons c b ih => exact fun l a g => ih _ _ (mapWf_mapSet _ _ _ g)
  unfold State.cmcWrite
  extract_lets s1 x1
  have h1 : Onward s₀ s1 := State.openGroups_onward _ _ h
  clear_value s1
  exact h1.upd (cells := e _ _ _)

theorem State.readPlace_onward {s₀ : State} {s : State} (p : Nat × Nat) (ho : Onward s₀ s) : Onward s₀
    (State.readPlace s p) := by
  unfold State.readPlace
  repeat' (first
    | with_reducible assumption
    | (with_reducible apply State.openGroups_onward)
    | with_reducible apply Onward.foldl
    | refine Onward.of_snd (by assumption) ?_
    | split
    | (with_reducible refine Onward.mk_same rfl ?_
       first
       | with_reducible assumption
       | (with_reducible apply State.openGroups_onward)
       | refine Onward.of_snd (by assumption) ?_)
    | intro _
    | extract_lets
    | dsimp (zeta := false) only
    | dsimp +zetaDelta only)

theorem State.writePlace_onward {s₀ : State} {s : State} (p : Nat × Nat) (ho : Onward s₀ s) : Onward s₀
    (State.writePlace s p) := by
  unfold State.writePlace
  extract_lets s0_
  have h_s0_ : Onward s₀ s0_ := by
    dsimp (zeta := false) only [s0_]
    repeat' (first
      | with_reducible assumption
      | (with_reducible apply State.openGroups_onward)
      | with_reducible apply Onward.foldl
      | refine Onward.of_snd (by assumption) ?_
      | split
      | (with_reducible refine Onward.mk_same rfl ?_
         first
         | with_reducible assumption
         | (with_reducible apply State.openGroups_onward)
         | refine Onward.of_snd (by assumption) ?_)
      | intro _
      | extract_lets
      | dsimp (zeta := false) only
      | dsimp +zetaDelta only)
  try clear_value s0_
  repeat' (first
    | with_reducible assumption
    | (with_reducible apply State.openGroups_onward)
    | with_reducible apply Onward.foldl
    | refine Onward.of_snd (by assumption) ?_
    | split
    | (with_reducible refine Onward.mk_same rfl ?_
       first
       | with_reducible assumption
       | (with_reducible apply State.openGroups_onward)
       | refine Onward.of_snd (by assumption) ?_)
    | intro _
    | extract_lets
    | dsimp (zeta := false) only
    | dsimp +zetaDelta only)

theorem State.imageFails_onward {s₀ : State} {s : State} (cde : Bool) (k : Nat) (b : Nat) (ho : Onward s₀ s) :
    Onward s₀ (State.imageFails s cde k b) := by
  unfold State.imageFails
  repeat' (first
    | with_reducible assumption
    | (with_reducible apply State.onJob_onward)
    | with_reducible apply Onward.foldl
    | refine Onward.of_snd (by assumption) ?_
    | split
    | (with_reducible refine Onward.mk_same rfl ?_
       first
       | with_reducible assumption
       | (with_reducible apply State.onJob_onward)
       | refine Onward.of_snd (by assumption) ?_)
    | intro _
    | extract_lets
    | dsimp (zeta := false) only
    | dsimp +zetaDelta only)

theorem State.internalFails_onward {s₀ : State} {s : State} (b : Nat) (ho : Onward s₀ s) : Onward s₀
    (State.internalFails s b) := by
  unfold State.internalFails
  dsimp only
  repeat' (first
      | with_reducible assumption | with_reducible apply State.imageFails_onward
      | with_reducible apply State.onSession_onward | with_reducible apply State.onRecord_onward | split)

theorem State.countCorrection_onward {s₀ : State} {s : State} (ch : Nat) (ho : Onward s₀ s) : Onward s₀
    (State.countCorrection s ch) := by
  unfold State.countCorrection
  repeat' (first
    | with_reducible assumption
    | with_reducible apply Onward.foldl
    | refine Onward.of_snd (by assumption) ?_
    | split
    | (with_reducible refine Onward.mk_same rfl ?_
       first | with_reducible assumption | refine Onward.of_snd (by assumption) ?_)
    | intro _
    | extract_lets
    | dsimp (zeta := false) only
    | dsimp +zetaDelta only)

theorem State.correction_onward {s₀ : State} {s : State} (ch : Nat) (ho : Onward s₀ s) : Onward s₀ (State.correction
    s ch) := by
  unfold State.correction
  repeat' (first
    | with_reducible assumption
    | (with_reducible apply State.event_onward)
    | (with_reducible apply State.countCorrection_onward)
    | with_reducible apply Onward.foldl
    | refine Onward.of_snd (by assumption) ?_
    | split
    | (with_reducible refine Onward.mk_same rfl ?_
       first
       | with_reducible assumption
       | (with_reducible apply State.event_onward)
       | (with_reducible apply State.countCorrection_onward)
       | refine Onward.of_snd (by assumption) ?_)
    | intro _
    | extract_lets
    | dsimp (zeta := false) only
    | dsimp +zetaDelta only)

theorem State.blockFails_onward {s₀ : State} {s : State} (b : Nat) (tag : Bool) (ho : Onward s₀ s) : Onward s₀
    (State.blockFails s b tag) := by
  unfold State.blockFails
  extract_lets x0_ x1_ x2_ x3_ x4_ s5_
  have h_s5_ : Onward s₀ s5_ := by
    dsimp (zeta := false) only [s5_]
    repeat' (first
      | with_reducible assumption
      | (with_reducible apply State.internalFails_onward)
      | (with_reducible apply State.readFails_onward)
      | with_reducible apply Onward.foldl
      | refine Onward.of_snd (by assumption) ?_
      | split
      | (with_reducible refine Onward.mk_same rfl ?_
         first
         | with_reducible assumption
         | (with_reducible apply State.internalFails_onward)
         | (with_reducible apply State.readFails_onward)
         | refine Onward.of_snd (by assumption) ?_)
      | intro _
      | extract_lets
      | dsimp (zeta := false) only
      | dsimp +zetaDelta only)
  try clear_value s5_
  repeat' (first
    | with_reducible assumption
    | (with_reducible apply State.internalFails_onward)
    | (with_reducible apply State.readFails_onward)
    | with_reducible apply Onward.foldl
    | refine Onward.of_snd (by assumption) ?_
    | split
    | (with_reducible refine Onward.mk_same rfl ?_
       first
       | with_reducible assumption
       | (with_reducible apply State.internalFails_onward)
       | (with_reducible apply State.readFails_onward)
       | refine Onward.of_snd (by assumption) ?_)
    | intro _
    | extract_lets
    | dsimp (zeta := false) only
    | dsimp +zetaDelta only)

theorem State.loadConsts_onward {s₀ : State} {s : State} (e : Nat) (ho : Onward s₀ s) : Onward s₀ (State.loadConsts
    s e) := by
  unfold State.loadConsts
  repeat' (first
    | with_reducible assumption
    | (with_reducible apply State.onVce_onward)
    | with_reducible apply Onward.foldl
    | refine Onward.of_snd (by assumption) ?_
    | split
    | (with_reducible refine Onward.mk_same rfl ?_
       first
       | with_reducible assumption
       | (with_reducible apply State.onVce_onward)
       | refine Onward.of_snd (by assumption) ?_)
    | intro _
    | extract_lets
    | dsimp (zeta := false) only
    | dsimp +zetaDelta only)

theorem State.commitWord_onward {s₀ s : State} (x : Job) (a w : Nat) (ho : Onward s₀ s) :
    Onward s₀ (s.commitWord x a w) := by
  unfold State.commitWord
  extract_lets +onlyGivenNames jobs
  refine State.cmcWrite_onward _ _ (ho.upd (jobs := fun g => ?_))
  have hj : jobs = s.sch.jobs ∨ ∃ o, jobs = s.sch.jobs.map fun y => (y.1, y.2.keepWord x.slice a o) := by
    simp only [jobs]
    split
    · exact .inr ⟨_, rfl⟩
    · exact .inl rfl
  clear_value jobs
  rcases hj with rfl | ⟨o, rfl⟩
  · exact ⟨g.jobs, g.numbers⟩
  · refine ⟨keysRise_map (fun y : Nat × Job => y.2.keepWord x.slice a o) g.jobs, fun e he => ?_⟩
    obtain ⟨b, hb, rfl⟩ := List.mem_map.1 he
    exact g.numbers b hb

theorem State.commitScatter_onward {s₀ : State} {s : State} (x : Job) (ho : Onward s₀ s) : Onward s₀
    (State.commitScatter s x) := by
  unfold State.commitScatter
  repeat' (first
    | with_reducible assumption
    | (with_reducible apply State.commitWord_onward)
    | with_reducible apply Onward.foldl
    | refine Onward.of_snd (by assumption) ?_
    | split
    | (with_reducible refine Onward.mk_same rfl ?_
       first
       | with_reducible assumption
       | (with_reducible apply State.commitWord_onward)
       | refine Onward.of_snd (by assumption) ?_)
    | intro _
    | extract_lets
    | dsimp (zeta := false) only
    | dsimp +zetaDelta only)

theorem State.retireBlock_onward {s₀ s : State} (part block : Nat) (ho : Onward s₀ s) : Onward s₀ (s.retireBlock
    part block) := by
  unfold State.retireBlock
  extract_lets +onlyGivenNames left k s1
  have h1 : Onward s₀ s1 := State.event_onward _ _ _ _ _ _ ho
  clear_value s1
  split
  · exact h1.same rfl
  · refine Onward.ite (State.event_onward _ _ _ _ _ _ ?_) ?_ <;>
      exact Onward.ite (State.event_onward _ _ _ _ _ _ (h1.same rfl)) (h1.same rfl)

theorem State.level_onward {s₀ : State} {s : State} (part : Nat) (block : Nat) (ho : Onward s₀ s) : Onward s₀
    (State.level s part block) := by
  unfold State.level
  repeat' (first
    | with_reducible assumption
    | (with_reducible apply State.event_onward)
    | with_reducible apply Onward.foldl
    | refine Onward.of_snd (by assumption) ?_
    | split
    | (with_reducible refine Onward.mk_same rfl ?_
       first
       | with_reducible assumption
       | (with_reducible apply State.event_onward)
       | refine Onward.of_snd (by assumption) ?_)
    | intro _
    | extract_lets
    | dsimp (zeta := false) only
    | dsimp +zetaDelta only)

theorem State.eraseBlock_onward {s₀ : State} {s : State} (part : Nat) (block : Nat) (ho : Onward s₀ s) : Onward s₀
    (State.eraseBlock s part block) := by
  unfold State.eraseBlock
  extract_lets x0_ x1_ x2_ s3_
  have h_s3_ : Onward s₀ s3_ := by
    dsimp (zeta := false) only [s3_]
    repeat' (first
      | with_reducible assumption
      | (with_reducible apply State.retireBlock_onward)
      | (with_reducible apply State.level_onward)
      | with_reducible apply Onward.foldl
      | refine Onward.of_snd (by assumption) ?_
      | split
      | (with_reducible refine Onward.mk_same rfl ?_
         first
         | with_reducible assumption
         | (with_reducible apply State.retireBlock_onward)
         | (with_reducible apply State.level_onward)
         | refine Onward.of_snd (by assumption) ?_)
      | intro _
      | extract_lets
      | dsimp (zeta := false) only
      | dsimp +zetaDelta only)
  try clear_value s3_
  repeat' (first
    | with_reducible assumption
    | (with_reducible apply State.retireBlock_onward)
    | (with_reducible apply State.level_onward)
    | with_reducible apply Onward.foldl
    | refine Onward.of_snd (by assumption) ?_
    | split
    | (with_reducible refine Onward.mk_same rfl ?_
       first
       | with_reducible assumption
       | (with_reducible apply State.retireBlock_onward)
       | (with_reducible apply State.level_onward)
       | refine Onward.of_snd (by assumption) ?_)
    | intro _
    | extract_lets
    | dsimp (zeta := false) only
    | dsimp +zetaDelta only)

theorem State.eraseBlocks_onward {s₀ : State} {s : State} (part : Nat) (blocks : List Nat) (ho : Onward s₀ s) :
    Onward s₀ (State.eraseBlocks s part blocks) := by
  unfold State.eraseBlocks
  repeat' (first
      | with_reducible assumption | with_reducible apply State.eraseBlock_onward | with_reducible apply Onward.foldl
      | intro _)

theorem State.dropRecords_onward {s₀ s : State} (gone : Nat → StfRecord → Bool) (h : Onward s₀ s) :
    Onward s₀ (s.dropRecords gone) := by
  unfold State.dropRecords
  extract_lets
  exact State.eraseBlocks_onward _ _ (h.upd (stf := fun g => keysRise_filter _ g))

theorem State.copyRoots_onward {s₀ : State} {s : State} (keep : SMap Bytes) (ho : Onward s₀ s) : Onward s₀
    (State.copyRoots s keep) := by
  unfold State.copyRoots
  repeat' (first
    | with_reducible assumption
    | (with_reducible apply State.eraseBlock_onward)
    | with_reducible apply Onward.foldl
    | refine Onward.of_snd (by assumption) ?_
    | split
    | (with_reducible refine Onward.mk_same rfl ?_
       first
       | with_reducible assumption
       | (with_reducible apply State.eraseBlock_onward)
       | refine Onward.of_snd (by assumption) ?_)
    | intro _
    | extract_lets
    | dsimp (zeta := false) only
    | dsimp +zetaDelta only)

theorem State.eraseUnref_onward {s₀ : State} {s : State} (ho : Onward s₀ s) : Onward s₀ (State.eraseUnref s) := by
  unfold State.eraseUnref
  extract_lets x0_ s1_ x2_
  have h_s1_ : Onward s₀ s1_ := by
    dsimp (zeta := false) only [s1_]
    repeat' (first
      | with_reducible assumption
      | (with_reducible apply State.event_onward)
      | with_reducible apply Onward.foldl
      | refine Onward.of_snd (by assumption) ?_
      | split
      | (with_reducible refine Onward.mk_same rfl ?_
         first
         | with_reducible assumption
         | (with_reducible apply State.event_onward)
         | refine Onward.of_snd (by assumption) ?_)
      | intro _
      | extract_lets
      | dsimp (zeta := false) only
      | dsimp +zetaDelta only)
  try clear_value s1_
  repeat' (first
    | with_reducible assumption
    | (with_reducible apply State.event_onward)
    | with_reducible apply Onward.foldl
    | refine Onward.of_snd (by assumption) ?_
    | split
    | (with_reducible refine Onward.mk_same rfl ?_
       first
       | with_reducible assumption
       | (with_reducible apply State.event_onward)
       | refine Onward.of_snd (by assumption) ?_)
    | intro _
    | extract_lets
    | dsimp (zeta := false) only
    | dsimp +zetaDelta only)

theorem State.eraseRoots_onward {s₀ : State} {s : State} (ho : Onward s₀ s) : Onward s₀ (State.eraseRoots s) := by
  unfold State.eraseRoots
  extract_lets s0_
  have h_s0_ : Onward s₀ s0_ := by
    dsimp (zeta := false) only [s0_]
    repeat' (first
      | with_reducible assumption
      | (with_reducible apply State.eraseUnref_onward)
      | (with_reducible apply State.copyRoots_onward)
      | with_reducible apply Onward.foldl
      | refine Onward.of_snd (by assumption) ?_
      | split
      | (with_reducible refine Onward.mk_same rfl ?_
         first
         | with_reducible assumption
         | (with_reducible apply State.eraseUnref_onward)
         | (with_reducible apply State.copyRoots_onward)
         | refine Onward.of_snd (by assumption) ?_)
      | intro _
      | extract_lets
      | dsimp (zeta := false) only
      | dsimp +zetaDelta only)
  try clear_value s0_
  repeat' (first
    | with_reducible assumption
    | (with_reducible apply State.eraseUnref_onward)
    | (with_reducible apply State.copyRoots_onward)
    | with_reducible apply Onward.foldl
    | refine Onward.of_snd (by assumption) ?_
    | split
    | (with_reducible refine Onward.mk_same rfl ?_
       first
       | with_reducible assumption
       | (with_reducible apply State.eraseUnref_onward)
       | (with_reducible apply State.copyRoots_onward)
       | refine Onward.of_snd (by assumption) ?_)
    | intro _
    | extract_lets
    | dsimp (zeta := false) only
    | dsimp +zetaDelta only)

theorem State.erasePending_onward {s₀ : State} {s : State} (type_ : Nat) (ho : Onward s₀ s) : Onward s₀
    (State.erasePending s type_) := by
  unfold State.erasePending
  repeat' (first
    | with_reducible assumption
    | (with_reducible apply State.eraseBlocks_onward)
    | with_reducible apply Onward.foldl
    | refine Onward.of_snd (by assumption) ?_
    | split
    | (with_reducible refine Onward.mk_same rfl ?_
       first
       | with_reducible assumption
       | (with_reducible apply State.eraseBlocks_onward)
       | refine Onward.of_snd (by assumption) ?_)
    | intro _
    | extract_lets
    | dsimp (zeta := false) only
    | dsimp +zetaDelta only)

theorem State.eraseActive_onward {s₀ : State} {s : State} (type_ : Nat) (ho : Onward s₀ s) : Onward s₀
    (State.eraseActive s type_) := by
  unfold State.eraseActive
  repeat' (first
    | with_reducible assumption
    | (with_reducible apply State.eraseBlocks_onward)
    | with_reducible apply Onward.foldl
    | refine Onward.of_snd (by assumption) ?_
    | split
    | (with_reducible refine Onward.mk_same rfl ?_
       first
       | with_reducible assumption
       | (with_reducible apply State.eraseBlocks_onward)
       | refine Onward.of_snd (by assumption) ?_)
    | intro _
    | extract_lets
    | dsimp (zeta := false) only
    | dsimp +zetaDelta only)

theorem State.erasePackages_onward {s₀ : State} {s : State} (type_ : Nat) (ho : Onward s₀ s) : Onward s₀
    (State.erasePackages s type_) := by
  unfold State.erasePackages
  repeat' (first
    | with_reducible assumption
    | (with_reducible apply State.erasePending_onward)
    | (with_reducible apply State.eraseActive_onward)
    | with_reducible apply Onward.foldl
    | refine Onward.of_snd (by assumption) ?_
    | split
    | (with_reducible refine Onward.mk_same rfl ?_
       first
       | with_reducible assumption
       | (with_reducible apply State.erasePending_onward)
       | (with_reducible apply State.eraseActive_onward)
       | refine Onward.of_snd (by assumption) ?_)
    | intro _
    | extract_lets
    | dsimp (zeta := false) only
    | dsimp +zetaDelta only)

theorem State.switchPackage_onward {s₀ : State} {s : State} (type_ : Nat) (ho : Onward s₀ s) : Onward s₀
    (State.switchPackage s type_) := by
  unfold State.switchPackage
  extract_lets x0_ s1_ x2_
  have h_s1_ : Onward s₀ s1_ := by
    dsimp (zeta := false) only [s1_]
    repeat' (first
      | with_reducible assumption
      | (with_reducible apply State.eraseActive_onward)
      | with_reducible apply Onward.foldl
      | refine Onward.of_snd (by assumption) ?_
      | split
      | (with_reducible refine Onward.mk_same rfl ?_
         first
         | with_reducible assumption
         | (with_reducible apply State.eraseActive_onward)
         | refine Onward.of_snd (by assumption) ?_)
      | intro _
      | extract_lets
      | dsimp (zeta := false) only
      | dsimp +zetaDelta only)
  try clear_value s1_
  repeat' (first
    | with_reducible assumption
    | (with_reducible apply State.eraseActive_onward)
    | with_reducible apply Onward.foldl
    | refine Onward.of_snd (by assumption) ?_
    | split
    | (with_reducible refine Onward.mk_same rfl ?_
       first
       | with_reducible assumption
       | (with_reducible apply State.eraseActive_onward)
       | refine Onward.of_snd (by assumption) ?_)
    | intro _
    | extract_lets
    | dsimp (zeta := false) only
    | dsimp +zetaDelta only)

theorem State.recordMap_onward {s₀ : State} {s : State} (ho : Onward s₀ s) : Onward s₀ (State.recordMap s) := by
  unfold State.recordMap
  repeat' (first
    | with_reducible assumption
    | (with_reducible apply State.eraseBlock_onward)
    | with_reducible apply Onward.foldl
    | refine Onward.of_snd (by assumption) ?_
    | split
    | (with_reducible refine Onward.mk_same rfl ?_
       first
       | with_reducible assumption
       | (with_reducible apply State.eraseBlock_onward)
       | refine Onward.of_snd (by assumption) ?_)
    | intro _
    | extract_lets
    | dsimp (zeta := false) only
    | dsimp +zetaDelta only)

theorem State.loadMap_onward {s₀ : State} {s : State} (bad : Bool) (ho : Onward s₀ s) : Onward s₀ (State.loadMap s
    bad) := by
  unfold State.loadMap
  repeat' (first
    | with_reducible assumption
    | (with_reducible apply State.onEngine_onward)
    | with_reducible apply Onward.foldl
    | refine Onward.of_snd (by assumption) ?_
    | split
    | (with_reducible refine Onward.mk_same rfl ?_
       first
       | with_reducible assumption
       | (with_reducible apply State.onEngine_onward)
       | refine Onward.of_snd (by assumption) ?_)
    | intro _
    | extract_lets
    | dsimp (zeta := false) only
    | dsimp +zetaDelta only)

theorem State.leaveRunning_onward {s₀ : State} {s : State} (e : Nat) (ho : Onward s₀ s) : Onward s₀
    (State.leaveRunning s e) := by
  unfold State.leaveRunning
  extract_lets x0_ x1_ s2_
  have h_s2_ : Onward s₀ s2_ := by
    dsimp (zeta := false) only [s2_]
    repeat' (first | with_reducible assumption | with_reducible apply State.onEngine_onward)
  try clear_value s2_
  repeat' (first | with_reducible assumption | with_reducible apply State.onSlice_onward | split)

theorem State.unstage_onward {s₀ : State} {s : State} (e : Nat) (ho : Onward s₀ s) : Onward s₀ (State.unstage s e)
    := by
  unfold State.unstage
  extract_lets x0_ s1_ s2_
  have h_s1_ : Onward s₀ s1_ := by
    dsimp (zeta := false) only [s1_]
    repeat' (first
      | with_reducible assumption
      | (with_reducible apply State.onEngine_onward)
      | (with_reducible apply State.onVce_onward)
      | (with_reducible apply State.onJob_onward)
      | with_reducible apply Onward.foldl
      | refine Onward.of_snd (by assumption) ?_
      | split
      | (with_reducible refine Onward.mk_same rfl ?_
         first
         | with_reducible assumption
         | (with_reducible apply State.onEngine_onward)
         | (with_reducible apply State.onVce_onward)
         | (with_reducible apply State.onJob_onward)
         | refine Onward.of_snd (by assumption) ?_)
      | intro _
      | extract_lets
      | dsimp (zeta := false) only
      | dsimp +zetaDelta only)
  try clear_value s1_
  have h_s2_ : Onward s₀ s2_ := by
    dsimp (zeta := false) only [s2_]
    repeat' (first
      | with_reducible assumption
      | (with_reducible apply State.onEngine_onward)
      | (with_reducible apply State.onVce_onward)
      | (with_reducible apply State.onJob_onward)
      | with_reducible apply Onward.foldl
      | refine Onward.of_snd (by assumption) ?_
      | split
      | (with_reducible refine Onward.mk_same rfl ?_
         first
         | with_reducible assumption
         | (with_reducible apply State.onEngine_onward)
         | (with_reducible apply State.onVce_onward)
         | (with_reducible apply State.onJob_onward)
         | refine Onward.of_snd (by assumption) ?_)
      | intro _
      | extract_lets
      | dsimp (zeta := false) only
      | dsimp +zetaDelta only)
  try clear_value s2_
  repeat' (first
    | with_reducible assumption
    | (with_reducible apply State.onEngine_onward)
    | (with_reducible apply State.onVce_onward)
    | (with_reducible apply State.onJob_onward)
    | with_reducible apply Onward.foldl
    | refine Onward.of_snd (by assumption) ?_
    | split
    | (with_reducible refine Onward.mk_same rfl ?_
       first
       | with_reducible assumption
       | (with_reducible apply State.onEngine_onward)
       | (with_reducible apply State.onVce_onward)
       | (with_reducible apply State.onJob_onward)
       | refine Onward.of_snd (by assumption) ?_)
    | intro _
    | extract_lets
    | dsimp (zeta := false) only
    | dsimp +zetaDelta only)

theorem State.endLends_onward {s₀ : State} {s : State} (e : Nat) (ho : Onward s₀ s) : Onward s₀ (State.endLends s e)
    := by
  unfold State.endLends
  repeat' (first
    | with_reducible assumption
    | (with_reducible apply State.onEngine_onward)
    | with_reducible apply Onward.foldl
    | refine Onward.of_snd (by assumption) ?_
    | split
    | (with_reducible refine Onward.mk_same rfl ?_
       first
       | with_reducible assumption
       | (with_reducible apply State.onEngine_onward)
       | refine Onward.of_snd (by assumption) ?_)
    | intro _
    | extract_lets
    | dsimp (zeta := false) only
    | dsimp +zetaDelta only)

theorem State.frostEngine_onward {s₀ s : State} (e : Nat) (ho : Onward s₀ s) : Onward s₀ (s.frostEngine e) := by
  unfold State.frostEngine
  extract_lets +onlyGivenNames s1
  have h1 : Onward s₀ s1 := State.onEngine_onward ho
  clear_value s1
  split
  · exact State.endLends_onward _ (State.onEngine_onward (h1.upd (vces := keysRise_mapErase _)))
  · exact State.onEngine_onward h1

theorem State.quarantine_onward {s₀ : State} {s : State} (e : Nat) (ho : Onward s₀ s) : Onward s₀ (State.quarantine
    s e) := by
  unfold State.quarantine
  repeat' (first
      | with_reducible assumption | with_reducible apply State.event_onward
      | with_reducible apply State.onEngine_onward)

theorem State.returned_onward {s₀ : State} {s : State} (e : Nat) (ho : Onward s₀ s) : Onward s₀ (State.returned s e)
    := by
  unfold State.returned
  repeat' (first
    | with_reducible assumption
    | (with_reducible apply State.event_onward)
    | (with_reducible apply State.onEngine_onward)
    | with_reducible apply Onward.foldl
    | refine Onward.of_snd (by assumption) ?_
    | split
    | (with_reducible refine Onward.mk_same rfl ?_
       first
       | with_reducible assumption
       | (with_reducible apply State.event_onward)
       | (with_reducible apply State.onEngine_onward)
       | refine Onward.of_snd (by assumption) ?_)
    | intro _
    | extract_lets
    | dsimp (zeta := false) only
    | dsimp +zetaDelta only)

theorem State.markShared_onward {s₀ : State} {s : State} (src : Nat) (ho : Onward s₀ s) : Onward s₀
    (State.markShared s src) := by
  unfold State.markShared
  repeat' (first
    | with_reducible assumption
    | with_reducible apply Onward.foldl
    | refine Onward.of_snd (by assumption) ?_
    | split
    | (with_reducible refine Onward.mk_same rfl ?_
       first | with_reducible assumption | refine Onward.of_snd (by assumption) ?_)
    | intro _
    | extract_lets
    | dsimp (zeta := false) only
    | dsimp +zetaDelta only)

theorem State.frostJob_onward {s₀ : State} {s : State} (e : Nat) (slot : Bool) (ho : Onward s₀ s) : Onward s₀
    (State.frostJob s e slot) := by
  unfold State.frostJob
  repeat' (first
    | with_reducible assumption
    | (with_reducible apply State.endLends_onward)
    | (with_reducible apply State.onVce_onward)
    | (with_reducible apply State.onEngine_onward)
    | with_reducible apply Onward.foldl
    | refine Onward.of_snd (by assumption) ?_
    | split
    | (with_reducible refine Onward.mk_same rfl ?_
       first
       | with_reducible assumption
       | (with_reducible apply State.endLends_onward)
       | (with_reducible apply State.onVce_onward)
       | (with_reducible apply State.onEngine_onward)
       | refine Onward.of_snd (by assumption) ?_)
    | intro _
    | extract_lets
    | dsimp (zeta := false) only
    | dsimp +zetaDelta only)

theorem State.freeResult_onward {s₀ : State} {s : State} (e : Nat) (j : Nat) (ho : Onward s₀ s) : Onward s₀
    (State.freeResult s e j) := by
  unfold State.freeResult
  extract_lets s0_
  have h_s0_ : Onward s₀ s0_ := by
    dsimp (zeta := false) only [s0_]
    repeat' (first | with_reducible assumption | with_reducible apply State.onEngine_onward)
  try clear_value s0_
  repeat' (first | with_reducible assumption | with_reducible apply State.onVce_onward | split)

theorem State.dropRunning_onward {s₀ : State} {s : State} (e : Nat) (ho : Onward s₀ s) : Onward s₀
    (State.dropRunning s e) := by
  unfold State.dropRunning
  repeat' (first
    | with_reducible assumption
    | (with_reducible apply State.frostJob_onward)
    | (with_reducible apply State.leaveRunning_onward)
    | with_reducible apply Onward.foldl
    | refine Onward.of_snd (by assumption) ?_
    | split
    | (with_reducible refine Onward.mk_same rfl ?_
       first
       | with_reducible assumption
       | (with_reducible apply State.frostJob_onward)
       | (with_reducible apply State.leaveRunning_onward)
       | refine Onward.of_snd (by assumption) ?_)
    | intro _
    | extract_lets
    | dsimp (zeta := false) only
    | dsimp +zetaDelta only)

theorem State.offEngines_onward {s₀ : State} {s : State} (j : Nat) (fails : optParam (Option Nat) none) (ho : Onward
    s₀ s) : Onward s₀ (State.offEngines s j fails) := by
  unfold State.offEngines
  repeat' (first
    | with_reducible assumption
    | (with_reducible apply State.unstage_onward)
    | (with_reducible apply State.dropRunning_onward)
    | (with_reducible apply State.freeResult_onward)
    | with_reducible apply Onward.foldl
    | refine Onward.of_snd (by assumption) ?_
    | split
    | (with_reducible refine Onward.mk_same rfl ?_
       first
       | with_reducible assumption
       | (with_reducible apply State.unstage_onward)
       | (with_reducible apply State.dropRunning_onward)
       | (with_reducible apply State.freeResult_onward)
       | refine Onward.of_snd (by assumption) ?_)
    | intro _
    | extract_lets
    | dsimp (zeta := false) only
    | dsimp +zetaDelta only)

theorem State.lapse_onward {s₀ : State} {s : State} (j : Nat) (ho : Onward s₀ s) : Onward s₀ (State.lapse s j) := by
  unfold State.lapse
  repeat' (first | with_reducible assumption | with_reducible refine Onward.mk_same rfl ?_)

theorem State.takeRb_onward {s₀ : State} {s : State} (j : Nat) (ho : Onward s₀ s) : Onward s₀ (State.takeRb s j) := by
  unfold State.takeRb
  repeat' (first
      | with_reducible assumption | with_reducible apply State.putJob_onward
      | with_reducible apply State.event_onward | split)

theorem State.finish_onward {s₀ : State} {s : State} (j : Nat) (r : Result) (fails : optParam (Option Nat) none) (ho
    : Onward s₀ s) : Onward s₀ (State.finish s j r fails) := by
  unfold State.finish
  extract_lets x0_ x1_ s2_
  have h_s2_ : Onward s₀ s2_ := by
    dsimp (zeta := false) only [s2_]
    repeat' (first
      | with_reducible assumption
      | (with_reducible apply State.dropRunning_onward)
      | (with_reducible apply State.lapse_onward)
      | (with_reducible apply State.offEngines_onward)
      | (with_reducible apply State.onJob_onward)
      | (with_reducible apply State.takeRb_onward)
      | with_reducible apply Onward.foldl
      | refine Onward.of_snd (by assumption) ?_
      | split
      | (with_reducible refine Onward.mk_same rfl ?_
         first
         | with_reducible assumption
         | (with_reducible apply State.dropRunning_onward)
         | (with_reducible apply State.lapse_onward)
         | (with_reducible apply State.offEngines_onward)
         | (with_reducible apply State.onJob_onward)
         | (with_reducible apply State.takeRb_onward)
         | refine Onward.of_snd (by assumption) ?_)
      | intro _
      | extract_lets
      | dsimp (zeta := false) only
      | dsimp +zetaDelta only)
  try clear_value s2_
  repeat' (first
    | with_reducible assumption
    | (with_reducible apply State.dropRunning_onward)
    | (with_reducible apply State.lapse_onward)
    | (with_reducible apply State.offEngines_onward)
    | (with_reducible apply State.onJob_onward)
    | (with_reducible apply State.takeRb_onward)
    | with_reducible apply Onward.foldl
    | refine Onward.of_snd (by assumption) ?_
    | split
    | (with_reducible refine Onward.mk_same rfl ?_
       first
       | with_reducible assumption
       | (with_reducible apply State.dropRunning_onward)
       | (with_reducible apply State.lapse_onward)
       | (with_reducible apply State.offEngines_onward)
       | (with_reducible apply State.onJob_onward)
       | (with_reducible apply State.takeRb_onward)
       | refine Onward.of_snd (by assumption) ?_)
    | intro _
    | extract_lets
    | dsimp (zeta := false) only
    | dsimp +zetaDelta only)

theorem State.message_onward {s₀ : State} {s : State} (v : Nat) (ho : Onward s₀ s) : Onward s₀ (State.message s v)
    := by
  unfold State.message
  repeat' (first
      | with_reducible assumption | with_reducible apply State.emit_onward | split
      | with_reducible refine Onward.mk_same rfl ?_)

theorem State.signalManager_onward {s₀ : State} {s : State} (n : Nat) (ho : Onward s₀ s) : Onward s₀
    (State.signalManager s n) := by
  unfold State.signalManager
  repeat' (first
    | with_reducible assumption
    | (with_reducible apply State.message_onward)
    | with_reducible apply Onward.foldl
    | refine Onward.of_snd (by assumption) ?_
    | split
    | (with_reducible refine Onward.mk_same rfl ?_
       first
       | with_reducible assumption
       | (with_reducible apply State.message_onward)
       | refine Onward.of_snd (by assumption) ?_)
    | intro _
    | extract_lets
    | dsimp (zeta := false) only
    | dsimp +zetaDelta only)

theorem State.signal_onward {s₀ : State} {s : State} (n : Nat) (q : Nat) (now : Bool) (ho : Onward s₀ s) : Onward s₀
    (State.signal s n q now) := by
  unfold State.signal
  repeat' (first
      | with_reducible assumption | with_reducible apply State.message_onward
      | with_reducible apply State.onCq_onward | split | with_reducible refine Onward.mk_same rfl ?_)

theorem State.writeEntries_onward {s₀ : State} (fuel n q : Nat) (es : List Entry) {s : State} (h : Onward s₀ s) :
    Onward s₀ (s.writeEntries fuel n q es) := by
  induction fuel generalizing s es with
  | zero => exact h
  | succ fuel ih =>
    unfold State.writeEntries
    split
    · exact h
    · extract_lets +onlyGivenNames c size k base now grp s1 wrap s2
      have h1 : Onward s₀ s1 := State.request_onward _ _ _ _ h
      clear_value s1
      have h2 : Onward s₀ s2 := State.onCq_onward _ _ _ h1
      clear_value s2
      exact ih _ (State.signal_onward _ _ _ h2)

theorem State.flushCq_onward {s₀ : State} {s : State} (n : Nat) (q : Nat) (ho : Onward s₀ s) : Onward s₀
    (State.flushCq s n q) := by
  unfold State.flushCq
  extract_lets x0_ s1_
  have h_s1_ : Onward s₀ s1_ := by
    dsimp (zeta := false) only [s1_]
    repeat' (first
      | with_reducible assumption
      | (with_reducible apply State.onCq_onward)
      | (with_reducible apply State.writeEntries_onward)
      | with_reducible apply Onward.foldl
      | refine Onward.of_snd (by assumption) ?_
      | split
      | (with_reducible refine Onward.mk_same rfl ?_
         first
         | with_reducible assumption
         | (with_reducible apply State.onCq_onward)
         | (with_reducible apply State.writeEntries_onward)
         | refine Onward.of_snd (by assumption) ?_)
      | intro _
      | extract_lets
      | dsimp (zeta := false) only
      | dsimp +zetaDelta only)
  try clear_value s1_
  repeat' (first
    | with_reducible assumption
    | (with_reducible apply State.onCq_onward)
    | (with_reducible apply State.writeEntries_onward)
    | with_reducible apply Onward.foldl
    | refine Onward.of_snd (by assumption) ?_
    | split
    | (with_reducible refine Onward.mk_same rfl ?_
       first
       | with_reducible assumption
       | (with_reducible apply State.onCq_onward)
       | (with_reducible apply State.writeEntries_onward)
       | refine Onward.of_snd (by assumption) ?_)
    | intro _
    | extract_lets
    | dsimp (zeta := false) only
    | dsimp +zetaDelta only)

theorem State.gatherEntry_onward {s₀ : State} {s : State} (n : Nat) (q : Nat) (x : Entry) (ho : Onward s₀ s) :
    Onward s₀ (State.gatherEntry s n q x) := by
  unfold State.gatherEntry
  extract_lets x0_ s1_ x2_
  have h_s1_ : Onward s₀ s1_ := by
    dsimp (zeta := false) only [s1_]
    repeat' (first
      | with_reducible assumption
      | (with_reducible apply State.onCq_onward)
      | (with_reducible apply State.flushCq_onward)
      | with_reducible apply Onward.foldl
      | refine Onward.of_snd (by assumption) ?_
      | split
      | (with_reducible refine Onward.mk_same rfl ?_
         first
         | with_reducible assumption
         | (with_reducible apply State.onCq_onward)
         | (with_reducible apply State.flushCq_onward)
         | refine Onward.of_snd (by assumption) ?_)
      | intro _
      | extract_lets
      | dsimp (zeta := false) only
      | dsimp +zetaDelta only)
  try clear_value s1_
  repeat' (first
    | with_reducible assumption
    | (with_reducible apply State.onCq_onward)
    | (with_reducible apply State.flushCq_onward)
    | with_reducible apply Onward.foldl
    | refine Onward.of_snd (by assumption) ?_
    | split
    | (with_reducible refine Onward.mk_same rfl ?_
       first
       | with_reducible assumption
       | (with_reducible apply State.onCq_onward)
       | (with_reducible apply State.flushCq_onward)
       | refine Onward.of_snd (by assumption) ?_)
    | intro _
    | extract_lets
    | dsimp (zeta := false) only
    | dsimp +zetaDelta only)

theorem State.letGo_onward {s₀ : State} {s : State} (i : Nat) (ho : Onward s₀ s) : Onward s₀ (State.letGo s i) := by
  unfold State.letGo
  repeat' (first | with_reducible assumption | with_reducible apply State.onSlot_onward)

theorem State.issue_onward {s₀ s : State} (j : Nat) (ho : Onward s₀ s) : Onward s₀ (s.issue j) := by
  unfold State.issue
  split
  · exact ho
  · split
    · exact ho
    · extract_lets +onlyGivenNames reqs s1 s2
      have h1 : Onward s₀ s1 := State.onSlice_onward ho
      clear_value s1
      have h2 : Onward s₀ s2 := by
        dsimp (zeta := false) only [s2]
        split
        · exact State.letGo_onward _ h1
        · exact h1
      clear_value s2
      exact State.gatherEntry_onward _ _ _ (State.commitScatter_onward _ (h2.upd (jobs := fun g =>
        ⟨keysRise_mapErase _ g.jobs, fun e he => g.numbers e (mem_mapErase he)⟩)))

theorem State.eachJob_onward {s₀ : State} {s : State} (f : State → Nat → State) (hf : ∀ a0 a1, Onward s₀ a0 → Onward
    s₀ (f a0 a1)) (ho : Onward s₀ s) : Onward s₀ (State.eachJob s f) := by
  unfold State.eachJob
  repeat' (first | with_reducible assumption | with_reducible apply Onward.foldl)

theorem State.classShort_onward {s₀ : State} {s : State} (c : Cls) (ho : Onward s₀ s) : Onward s₀ (State.classShort
    s c) := by
  unfold State.classShort
  repeat' (first | with_reducible assumption | with_reducible refine Onward.mk_same rfl ?_)

theorem State.classGone_onward {s₀ : State} {s : State} (c : Cls) (ho : Onward s₀ s) : Onward s₀ (State.classGone s
    c) := by
  unfold State.classGone
  repeat' (first
    | with_reducible assumption
    | (with_reducible apply State.eachJob_onward)
    | (with_reducible apply State.onJob_onward)
    | (with_reducible apply State.finish_onward)
    | with_reducible apply Onward.foldl
    | refine Onward.of_snd (by assumption) ?_
    | split
    | (with_reducible refine Onward.mk_same rfl ?_
       first
       | with_reducible assumption
       | (with_reducible apply State.eachJob_onward)
       | (with_reducible apply State.onJob_onward)
       | (with_reducible apply State.finish_onward)
       | refine Onward.of_snd (by assumption) ?_)
    | intro _
    | extract_lets
    | dsimp (zeta := false) only
    | dsimp +zetaDelta only)

theorem State.retire_onward {s₀ : State} {s : State} (e : Nat) (criterion : Nat) (ho : Onward s₀ s) : Onward s₀
    (State.retire s e criterion) := by
  unfold State.retire
  extract_lets x0_ s1_ s2_ s3_ s4_
  have h_s1_ : Onward s₀ s1_ := by
    dsimp (zeta := false) only [s1_]
    repeat' (first
      | with_reducible assumption
      | (with_reducible apply State.frostEngine_onward)
      | (with_reducible apply State.unstage_onward)
      | (with_reducible apply State.onEngine_onward)
      | (with_reducible apply State.event_onward)
      | (with_reducible apply State.recordMap_onward)
      | (with_reducible apply State.classGone_onward)
      | (with_reducible apply State.classShort_onward)
      | with_reducible apply Onward.foldl
      | refine Onward.of_snd (by assumption) ?_
      | split
      | (with_reducible refine Onward.mk_same rfl ?_
         first
         | with_reducible assumption
         | (with_reducible apply State.frostEngine_onward)
         | (with_reducible apply State.unstage_onward)
         | (with_reducible apply State.onEngine_onward)
         | (with_reducible apply State.event_onward)
         | (with_reducible apply State.recordMap_onward)
         | (with_reducible apply State.classGone_onward)
         | (with_reducible apply State.classShort_onward)
         | refine Onward.of_snd (by assumption) ?_)
      | intro _
      | extract_lets
      | dsimp (zeta := false) only
      | dsimp +zetaDelta only)
  try clear_value s1_
  have h_s2_ : Onward s₀ s2_ := by
    dsimp (zeta := false) only [s2_]
    repeat' (first
      | with_reducible assumption
      | (with_reducible apply State.frostEngine_onward)
      | (with_reducible apply State.unstage_onward)
      | (with_reducible apply State.onEngine_onward)
      | (with_reducible apply State.event_onward)
      | (with_reducible apply State.recordMap_onward)
      | (with_reducible apply State.classGone_onward)
      | (with_reducible apply State.classShort_onward)
      | with_reducible apply Onward.foldl
      | refine Onward.of_snd (by assumption) ?_
      | split
      | (with_reducible refine Onward.mk_same rfl ?_
         first
         | with_reducible assumption
         | (with_reducible apply State.frostEngine_onward)
         | (with_reducible apply State.unstage_onward)
         | (with_reducible apply State.onEngine_onward)
         | (with_reducible apply State.event_onward)
         | (with_reducible apply State.recordMap_onward)
         | (with_reducible apply State.classGone_onward)
         | (with_reducible apply State.classShort_onward)
         | refine Onward.of_snd (by assumption) ?_)
      | intro _
      | extract_lets
      | dsimp (zeta := false) only
      | dsimp +zetaDelta only)
  try clear_value s2_
  have h_s3_ : Onward s₀ s3_ := by
    dsimp (zeta := false) only [s3_]
    repeat' (first
      | with_reducible assumption
      | (with_reducible apply State.frostEngine_onward)
      | (with_reducible apply State.unstage_onward)
      | (with_reducible apply State.onEngine_onward)
      | (with_reducible apply State.event_onward)
      | (with_reducible apply State.recordMap_onward)
      | (with_reducible apply State.classGone_onward)
      | (with_reducible apply State.classShort_onward)
      | with_reducible apply Onward.foldl
      | refine Onward.of_snd (by assumption) ?_
      | split
      | (with_reducible refine Onward.mk_same rfl ?_
         first
         | with_reducible assumption
         | (with_reducible apply State.frostEngine_onward)
         | (with_reducible apply State.unstage_onward)
         | (with_reducible apply State.onEngine_onward)
         | (with_reducible apply State.event_onward)
         | (with_reducible apply State.recordMap_onward)
         | (with_reducible apply State.classGone_onward)
         | (with_reducible apply State.classShort_onward)
         | refine Onward.of_snd (by assumption) ?_)
      | intro _
      | extract_lets
      | dsimp (zeta := false) only
      | dsimp +zetaDelta only)
  try clear_value s3_
  have h_s4_ : Onward s₀ s4_ := by
    dsimp (zeta := false) only [s4_]
    repeat' (first
      | with_reducible assumption
      | (with_reducible apply State.frostEngine_onward)
      | (with_reducible apply State.unstage_onward)
      | (with_reducible apply State.onEngine_onward)
      | (with_reducible apply State.event_onward)
      | (with_reducible apply State.recordMap_onward)
      | (with_reducible apply State.classGone_onward)
      | (with_reducible apply State.classShort_onward)
      | with_reducible apply Onward.foldl
      | refine Onward.of_snd (by assumption) ?_
      | split
      | (with_reducible refine Onward.mk_same rfl ?_
         first
         | with_reducible assumption
         | (with_reducible apply State.frostEngine_onward)
         | (with_reducible apply State.unstage_onward)
         | (with_reducible apply State.onEngine_onward)
         | (with_reducible apply State.event_onward)
         | (with_reducible apply State.recordMap_onward)
         | (with_reducible apply State.classGone_onward)
         | (with_reducible apply State.classShort_onward)
         | refine Onward.of_snd (by assumption) ?_)
      | intro _
      | extract_lets
      | dsimp (zeta := false) only
      | dsimp +zetaDelta only)
  try clear_value s4_
  repeat' (first
    | with_reducible assumption
    | (with_reducible apply State.frostEngine_onward)
    | (with_reducible apply State.unstage_onward)
    | (with_reducible apply State.onEngine_onward)
    | (with_reducible apply State.event_onward)
    | (with_reducible apply State.recordMap_onward)
    | (with_reducible apply State.classGone_onward)
    | (with_reducible apply State.classShort_onward)
    | with_reducible apply Onward.foldl
    | refine Onward.of_snd (by assumption) ?_
    | split
    | (with_reducible refine Onward.mk_same rfl ?_
       first
       | with_reducible assumption
       | (with_reducible apply State.frostEngine_onward)
       | (with_reducible apply State.unstage_onward)
       | (with_reducible apply State.onEngine_onward)
       | (with_reducible apply State.event_onward)
       | (with_reducible apply State.recordMap_onward)
       | (with_reducible apply State.classGone_onward)
       | (with_reducible apply State.classShort_onward)
       | refine Onward.of_snd (by assumption) ?_)
    | intro _
    | extract_lets
    | dsimp (zeta := false) only
    | dsimp +zetaDelta only)

theorem State.retireDrained_onward {s₀ : State} {s : State} (ho : Onward s₀ s) : Onward s₀ (State.retireDrained s)
    := by
  unfold State.retireDrained
  repeat' (first
    | with_reducible assumption
    | (with_reducible apply State.retire_onward)
    | with_reducible apply Onward.foldl
    | refine Onward.of_snd (by assumption) ?_
    | split
    | (with_reducible refine Onward.mk_same rfl ?_
       first
       | with_reducible assumption
       | (with_reducible apply State.retire_onward)
       | refine Onward.of_snd (by assumption) ?_)
    | intro _
    | extract_lets
    | dsimp (zeta := false) only
    | dsimp +zetaDelta only)

theorem State.badAccess_onward {s₀ : State} {s : State} (off : Nat) (why : Nat) (ho : Onward s₀ s) : Onward s₀
    (State.badAccess s off why) := by
  unfold State.badAccess
  repeat' (first | with_reducible assumption | with_reducible apply State.event_onward)

theorem State.wakeUp_onward {s₀ : State} {s : State} (ho : Onward s₀ s) : Onward s₀ (State.wakeUp s) := by
  unfold State.wakeUp
  repeat' (first
    | with_reducible assumption
    | (with_reducible apply State.event_onward)
    | (with_reducible apply State.reseedAll_onward)
    | with_reducible apply Onward.foldl
    | refine Onward.of_snd (by assumption) ?_
    | split
    | (with_reducible refine Onward.mk_same rfl ?_
       first
       | with_reducible assumption
       | (with_reducible apply State.event_onward)
       | (with_reducible apply State.reseedAll_onward)
       | refine Onward.of_snd (by assumption) ?_)
    | intro _
    | extract_lets
    | dsimp (zeta := false) only
    | dsimp +zetaDelta only)

theorem State.ungate_onward {s₀ : State} {s : State} (e : Nat) (ho : Onward s₀ s) : Onward s₀ (State.ungate s e) := by
  unfold State.ungate
  extract_lets s0_ x1_
  have h_s0_ : Onward s₀ s0_ := by
    dsimp (zeta := false) only [s0_]
    repeat' (first
      | with_reducible assumption
      | (with_reducible apply State.onEngine_onward)
      | (with_reducible apply State.loadConsts_onward)
      | with_reducible apply Onward.foldl
      | refine Onward.of_snd (by assumption) ?_
      | split
      | (with_reducible refine Onward.mk_same rfl ?_
         first
         | with_reducible assumption
         | (with_reducible apply State.onEngine_onward)
         | (with_reducible apply State.loadConsts_onward)
         | refine Onward.of_snd (by assumption) ?_)
      | intro _
      | extract_lets
      | dsimp (zeta := false) only
      | dsimp +zetaDelta only)
  try clear_value s0_
  repeat' (first
    | with_reducible assumption
    | (with_reducible apply State.onEngine_onward)
    | (with_reducible apply State.loadConsts_onward)
    | with_reducible apply Onward.foldl
    | refine Onward.of_snd (by assumption) ?_
    | split
    | (with_reducible refine Onward.mk_same rfl ?_
       first
       | with_reducible assumption
       | (with_reducible apply State.onEngine_onward)
       | (with_reducible apply State.loadConsts_onward)
       | refine Onward.of_snd (by assumption) ?_)
    | intro _
    | extract_lets
    | dsimp (zeta := false) only
    | dsimp +zetaDelta only)

theorem State.gate_onward {s₀ : State} {s : State} (off : Nat) (f : State → State) (hf : ∀ a0, Onward s₀ a0 → Onward
    s₀ (f a0)) (ho : Onward s₀ s) : Onward s₀ (State.gate s off f) := by
  unfold State.gate
  repeat' (first
    | with_reducible assumption
    | (with_reducible apply State.badAccess_onward)
    | (with_reducible apply State.wakeUp_onward)
    | (with_reducible apply hf)
    | with_reducible apply Onward.foldl
    | refine Onward.of_snd (by assumption) ?_
    | split
    | (with_reducible refine Onward.mk_same rfl ?_
       first
       | with_reducible assumption
       | (with_reducible apply State.badAccess_onward)
       | (with_reducible apply State.wakeUp_onward)
       | (with_reducible apply hf)
       | refine Onward.of_snd (by assumption) ?_)
    | intro _
    | extract_lets
    | dsimp (zeta := false) only
    | dsimp +zetaDelta only)

theorem State.afterCommit_onward {s₀ : State} {s : State} (ho : Onward s₀ s) : Onward s₀ (State.afterCommit s) := by
  unfold State.afterCommit
  extract_lets x0_ s1_ x2_ x3_
  have h_s1_ : Onward s₀ s1_ := by
    dsimp (zeta := false) only [s1_]
    repeat' (first
        | with_reducible assumption | with_reducible apply State.event_onward | split
        | with_reducible refine Onward.mk_same rfl ?_)
  try clear_value s1_
  repeat' (first
      | with_reducible assumption | with_reducible apply State.event_onward | split
      | with_reducible refine Onward.mk_same rfl ?_)

theorem State.wearJournal_onward {s₀ : State} {s : State} (before : Nat) (ho : Onward s₀ s) : Onward s₀
    (State.wearJournal s before) := by
  unfold State.wearJournal
  repeat' (first | with_reducible assumption | with_reducible apply State.eraseBlocks_onward)

theorem State.programRing_onward {s₀ : State} {s : State} (n : Nat) (ho : Onward s₀ s) : Onward s₀
    (State.programRing s n) := by
  unfold State.programRing
  repeat' (first
      | with_reducible assumption | with_reducible apply State.afterCommit_onward
      | with_reducible apply State.wearJournal_onward | with_reducible refine Onward.mk_same rfl ?_)

theorem State.commitAll_onward {s₀ : State} {s : State} (ho : Onward s₀ s) : Onward s₀ (State.commitAll s) := by
  unfold State.commitAll
  repeat' (first
      | with_reducible assumption | with_reducible apply State.programRing_onward
      | with_reducible refine Onward.mk_same rfl ?_)

theorem State.summaryOf_onward {s₀ : State} {s : State} (b : Bucket) (ho : Onward s₀ s) : Onward s₀ (State.summaryOf
    s b) := by
  unfold State.summaryOf
  repeat' (first | with_reducible assumption | with_reducible apply State.push_onward)

theorem State.endSuppression_onward {s₀ : State} {s : State} (i : Nat) (ho : Onward s₀ s) : Onward s₀
    (State.endSuppression s i) := by
  unfold State.endSuppression
  repeat' (first
      | with_reducible assumption | with_reducible apply State.summaryOf_onward | split
      | with_reducible refine Onward.mk_same rfl ?_)

theorem State.endSuppressions_onward {s₀ : State} {s : State} (ho : Onward s₀ s) : Onward s₀ (State.endSuppressions
    s) := by
  unfold State.endSuppressions
  repeat' (first
    | with_reducible assumption
    | (with_reducible apply State.endSuppression_onward)
    | with_reducible apply Onward.foldl
    | refine Onward.of_snd (by assumption) ?_
    | split
    | (with_reducible refine Onward.mk_same rfl ?_
       first
       | with_reducible assumption
       | (with_reducible apply State.endSuppression_onward)
       | refine Onward.of_snd (by assumption) ?_)
    | intro _
    | extract_lets
    | dsimp (zeta := false) only
    | dsimp +zetaDelta only)

theorem State.flushRing_onward {s₀ : State} {s : State} (ho : Onward s₀ s) : Onward s₀ (State.flushRing s) := by
  unfold State.flushRing
  repeat' (first
    | with_reducible assumption
    | (with_reducible apply State.commitAll_onward)
    | (with_reducible apply State.endSuppressions_onward)
    | with_reducible apply Onward.foldl
    | refine Onward.of_snd (by assumption) ?_
    | split
    | (with_reducible refine Onward.mk_same rfl ?_
       first
       | with_reducible assumption
       | (with_reducible apply State.commitAll_onward)
       | (with_reducible apply State.endSuppressions_onward)
       | refine Onward.of_snd (by assumption) ?_)
    | intro _
    | extract_lets
    | dsimp (zeta := false) only
    | dsimp +zetaDelta only)

theorem State.countRowEvent_onward {s₀ : State} {s : State} (code : Nat) (detail : Bytes) (ho : Onward s₀ s) :
    Onward s₀ (State.countRowEvent s code detail) := by
  unfold State.countRowEvent
  repeat' (first
    | with_reducible assumption
    | (with_reducible apply State.retireBlock_onward)
    | (with_reducible apply State.markShared_onward)
    | (with_reducible apply State.countCorrection_onward)
    | (with_reducible apply State.onEngine_onward)
    | with_reducible apply Onward.foldl
    | refine Onward.of_snd (by assumption) ?_
    | split
    | (with_reducible refine Onward.mk_same rfl ?_
       first
       | with_reducible assumption
       | (with_reducible apply State.retireBlock_onward)
       | (with_reducible apply State.markShared_onward)
       | (with_reducible apply State.countCorrection_onward)
       | (with_reducible apply State.onEngine_onward)
       | refine Onward.of_snd (by assumption) ?_)
    | intro _
    | extract_lets
    | dsimp (zeta := false) only
    | dsimp +zetaDelta only)

theorem State.reportEvent_onward {s₀ : State} {s : State} (code : Nat) (slice : Nat) (engine : Nat) (detail : Bytes)
    (ho : Onward s₀ s) : Onward s₀ (State.reportEvent s code slice engine detail) := by
  unfold State.reportEvent
  repeat' (first
    | with_reducible assumption
    | (with_reducible apply State.blockFails_onward)
    | (with_reducible apply State.report_onward)
    | with_reducible apply Onward.foldl
    | refine Onward.of_snd (by assumption) ?_
    | split
    | (with_reducible refine Onward.mk_same rfl ?_
       first
       | with_reducible assumption
       | (with_reducible apply State.blockFails_onward)
       | (with_reducible apply State.report_onward)
       | refine Onward.of_snd (by assumption) ?_)
    | intro _
    | extract_lets
    | dsimp (zeta := false) only
    | dsimp +zetaDelta only)

theorem State.verifyFails_onward {s₀ : State} {s : State} (detail : Bytes) (ho : Onward s₀ s) : Onward s₀
    (State.verifyFails s detail) := by
  unfold State.verifyFails
  repeat' (first
    | with_reducible assumption
    | (with_reducible apply State.retireBlock_onward)
    | with_reducible apply Onward.foldl
    | refine Onward.of_snd (by assumption) ?_
    | split
    | (with_reducible refine Onward.mk_same rfl ?_
       first
       | with_reducible assumption
       | (with_reducible apply State.retireBlock_onward)
       | refine Onward.of_snd (by assumption) ?_)
    | intro _
    | extract_lets
    | dsimp (zeta := false) only
    | dsimp +zetaDelta only)

theorem execEventRecord_onward (code : BitVec 16) (slice : Nat) (engine : Nat) (detail : Bytes) {s : State} {t :
    State} (ho : execEventRecord code slice engine detail s = .next t) : Onward s t := by
  unfold execEventRecord at ho
  injection ho with ho
  subst ho
  have ho := Onward.refl s
  repeat' (first
    | with_reducible assumption
    | (with_reducible apply State.reportEvent_onward)
    | (with_reducible apply State.verifyFails_onward)
    | (with_reducible apply State.countRowEvent_onward)
    | (with_reducible apply State.intake_onward)
    | with_reducible apply Onward.foldl
    | refine Onward.of_snd (by assumption) ?_
    | split
    | (with_reducible refine Onward.mk_same rfl ?_
       first
       | with_reducible assumption
       | (with_reducible apply State.reportEvent_onward)
       | (with_reducible apply State.verifyFails_onward)
       | (with_reducible apply State.countRowEvent_onward)
       | (with_reducible apply State.intake_onward)
       | refine Onward.of_snd (by assumption) ?_)
    | intro _
    | extract_lets
    | dsimp (zeta := false) only
    | dsimp +zetaDelta only)

theorem execAggregatorWindowClose_onward (unit : Nat) (cause : Nat) {s : State} {t : State} (ho :
    execAggregatorWindowClose unit cause s = .next t) : Onward s t := by
  unfold execAggregatorWindowClose at ho
  injection ho with ho
  subst ho
  have ho := Onward.refl s
  repeat' (first | with_reducible assumption | with_reducible apply State.closeWindow_onward | split)

theorem execHeldRecordRelease_onward {s : State} {t : State} (ho : execHeldRecordRelease s = .next t) : Onward s t
    := by
  unfold execHeldRecordRelease at ho
  injection ho with ho
  subst ho
  have ho := Onward.refl s
  repeat' (first | with_reducible assumption | split | with_reducible refine Onward.mk_same rfl ?_)

theorem execSummary_onward (code : Nat) {s : State} {t : State} (ho : execSummary code s = .next t) : Onward s t := by
  unfold execSummary at ho
  injection ho with ho
  subst ho
  have ho := Onward.refl s
  repeat' (first | with_reducible assumption | with_reducible apply State.endSuppression_onward | split)

theorem execCommitGroup_onward (ok : Bool) {s : State} {t : State} (ho : execCommitGroup ok s = .next t) : Onward s
    t := by
  unfold execCommitGroup at ho
  injection ho with ho
  subst ho
  have ho := Onward.refl s
  repeat' (first
      | with_reducible assumption | with_reducible apply State.programRing_onward
      | with_reducible apply State.event_onward | split)

theorem State.snapWrite_onward {s₀ : State} {s : State} (r : Reg) (v : Word) (ho : Onward s₀ s) : Onward s₀
    (State.snapWrite s r v) := by
  unfold State.snapWrite
  repeat' (first
      | with_reducible assumption | with_reducible apply State.configEvent_onward
      | with_reducible apply State.event_onward | with_reducible apply State.setReg_onward | split)

theorem execSnapSetWrite_onward (off : Nat) (v : Word) {s : State} {t : State} (ho : execSnapSetWrite off v s =
    .next t) : Onward s t := by
  unfold execSnapSetWrite at ho
  injection ho with ho
  subst ho
  have ho := Onward.refl s
  repeat' (first
      | with_reducible assumption | with_reducible apply State.gate_onward
      | with_reducible apply State.snapWrite_onward | split | intro _)

theorem State.lookup_onward {s₀ : State} {s : State} (hi : Word) (ho : Onward s₀ s) : Onward s₀ (State.lookup s hi)
    := by
  unfold State.lookup
  repeat' (first
    | with_reducible assumption
    | (with_reducible apply State.setPair_onward)
    | with_reducible apply Onward.foldl
    | refine Onward.of_snd (by assumption) ?_
    | split
    | (with_reducible refine Onward.mk_same rfl ?_
       first
       | with_reducible assumption
       | (with_reducible apply State.setPair_onward)
       | refine Onward.of_snd (by assumption) ?_)
    | intro _
    | extract_lets
    | dsimp (zeta := false) only
    | dsimp +zetaDelta only)

theorem execJournalLookup_onward (hi : Word) {s : State} {t : State} (ho : execJournalLookup hi s = .next t) :
    Onward s t := by
  unfold execJournalLookup at ho
  injection ho with ho
  subst ho
  have ho := Onward.refl s
  repeat' (first
      | with_reducible assumption | with_reducible apply State.gate_onward
      | with_reducible apply State.lookup_onward | intro _)

theorem State.clearJournal_onward {s₀ : State} {s : State} (upto : Nat) (how : Nat) (ho : Onward s₀ s) : Onward s₀
    (State.clearJournal s upto how) := by
  unfold State.clearJournal
  extract_lets x0_ x1_ x2_ x3_ x4_ s5_ s6_
  have h_s5_ : Onward s₀ s5_ := by
    dsimp (zeta := false) only [s5_]
    repeat' (first | with_reducible assumption | with_reducible refine Onward.mk_same rfl ?_)
  try clear_value s5_
  have h_s6_ : Onward s₀ s6_ := by
    dsimp (zeta := false) only [s6_]
    repeat' (first | with_reducible assumption | with_reducible apply State.eraseBlocks_onward)
  try clear_value s6_
  repeat' (first | with_reducible assumption | with_reducible apply State.event_onward)

theorem State.refuseClear_onward {s₀ : State} {s : State} (res : Nat) (ho : Onward s₀ s) : Onward s₀
    (State.refuseClear s res) := by
  unfold State.refuseClear
  repeat' (first
      | with_reducible assumption | with_reducible apply State.event_onward
      | with_reducible refine Onward.mk_same rfl ?_)

theorem State.clearByGrant_onward {s₀ : State} {s : State} (ho : Onward s₀ s) : Onward s₀ (State.clearByGrant s) := by
  unfold State.clearByGrant
  repeat' (first
      | with_reducible assumption | with_reducible apply State.refuseClear_onward
      | with_reducible apply State.clearJournal_onward | split)

theorem execClearGrant_onward {s : State} {t : State} (ho : execClearGrant s = .next t) : Onward s t := by
  unfold execClearGrant at ho
  injection ho with ho
  subst ho
  have ho := Onward.refl s
  repeat' (first
      | with_reducible assumption | with_reducible apply State.gate_onward
      | with_reducible apply State.clearByGrant_onward)

theorem State.clearByToken_onward {s₀ : State} {s : State} (len : Nat) (ho : Onward s₀ s) : Onward s₀
    (State.clearByToken s len) := by
  unfold State.clearByToken
  extract_lets x0_ x1_ x2_ x3_ s4_
  have h_s4_ : Onward s₀ s4_ := by
    dsimp (zeta := false) only [s4_]
    repeat' (first | with_reducible assumption | with_reducible refine Onward.mk_same rfl ?_)
  try clear_value s4_
  repeat' (first
      | with_reducible assumption | with_reducible apply State.refuseClear_onward
      | with_reducible apply State.clearJournal_onward | split)

theorem execClearToken_onward (len : Nat) {s : State} {t : State} (ho : execClearToken len s = .next t) : Onward s t
    := by
  unfold execClearToken at ho
  injection ho with ho
  subst ho
  have ho := Onward.refl s
  repeat' (first
      | with_reducible assumption | with_reducible apply State.gate_onward
      | with_reducible apply State.clearByToken_onward | intro _)

theorem State.clearVolatile_onward {s₀ s : State} (h : Onward s₀ s) : Onward s₀ s.clearVolatile := by
  unfold State.clearVolatile
  refine h.upd (cells := fun _ => rfl) (pool := fun _ => Nat.zero_le _) (jobs := fun _ => ⟨rfl, fun _ he => ?_⟩)
    (regs := fun _ => ?_) (slices := fun _ => rfl) (engines := by dsimp only; exact keysRise_mapAll _ _) (vces :=
        fun _ => rfl)
    (slots := fun _ => rfl) (sess := fun _ => rfl) (stf := fun g => keysRise_map _ g) (mons := fun _ => rfl) (msix
        := fun _ => rfl)
  · cases he
  · dsimp only
    split <;> rfl

theorem State.endGrant_onward {s₀ : State} {s : State} (cause : Nat) (ho : Onward s₀ s) : Onward s₀ (State.endGrant
    s cause) := by
  unfold State.endGrant
  extract_lets x0_ s1_ x2_ s3_
  have h_s1_ : Onward s₀ s1_ := by
    dsimp (zeta := false) only [s1_]
    repeat' (first
      | with_reducible assumption
      | (with_reducible apply State.returned_onward)
      | (with_reducible apply State.loadConsts_onward)
      | (with_reducible apply State.frostEngine_onward)
      | (with_reducible apply State.event_onward)
      | with_reducible apply Onward.foldl
      | refine Onward.of_snd (by assumption) ?_
      | split
      | (with_reducible refine Onward.mk_same rfl ?_
         first
         | with_reducible assumption
         | (with_reducible apply State.returned_onward)
         | (with_reducible apply State.loadConsts_onward)
         | (with_reducible apply State.frostEngine_onward)
         | (with_reducible apply State.event_onward)
         | refine Onward.of_snd (by assumption) ?_)
      | intro _
      | extract_lets
      | dsimp (zeta := false) only
      | dsimp +zetaDelta only)
  try clear_value s1_
  have h_s3_ : Onward s₀ s3_ := by
    dsimp (zeta := false) only [s3_]
    repeat' (first
      | with_reducible assumption
      | (with_reducible apply State.returned_onward)
      | (with_reducible apply State.loadConsts_onward)
      | (with_reducible apply State.frostEngine_onward)
      | (with_reducible apply State.event_onward)
      | with_reducible apply Onward.foldl
      | refine Onward.of_snd (by assumption) ?_
      | split
      | (with_reducible refine Onward.mk_same rfl ?_
         first
         | with_reducible assumption
         | (with_reducible apply State.returned_onward)
         | (with_reducible apply State.loadConsts_onward)
         | (with_reducible apply State.frostEngine_onward)
         | (with_reducible apply State.event_onward)
         | refine Onward.of_snd (by assumption) ?_)
      | intro _
      | extract_lets
      | dsimp (zeta := false) only
      | dsimp +zetaDelta only)
  try clear_value s3_
  repeat' (first
    | with_reducible assumption
    | (with_reducible apply State.returned_onward)
    | (with_reducible apply State.loadConsts_onward)
    | (with_reducible apply State.frostEngine_onward)
    | (with_reducible apply State.event_onward)
    | with_reducible apply Onward.foldl
    | refine Onward.of_snd (by assumption) ?_
    | split
    | (with_reducible refine Onward.mk_same rfl ?_
       first
       | with_reducible assumption
       | (with_reducible apply State.returned_onward)
       | (with_reducible apply State.loadConsts_onward)
       | (with_reducible apply State.frostEngine_onward)
       | (with_reducible apply State.event_onward)
       | refine Onward.of_snd (by assumption) ?_)
    | intro _
    | extract_lets
    | dsimp (zeta := false) only
    | dsimp +zetaDelta only)

theorem State.restart_onward {s₀ : State} {s : State} (kind : Nat) (ho : Onward s₀ s) : Onward s₀ (State.restart s
    kind) := by
  unfold State.restart
  extract_lets s0_ s1_ x2_
  have h_s0_ : Onward s₀ s0_ := by
    dsimp (zeta := false) only [s0_]
    repeat' (first
      | with_reducible assumption
      | (with_reducible apply State.flushRing_onward)
      | (with_reducible apply State.endGrant_onward)
      | (with_reducible apply State.clearVolatile_onward)
      | with_reducible apply Onward.foldl
      | refine Onward.of_snd (by assumption) ?_
      | split
      | (with_reducible refine Onward.mk_same rfl ?_
         first
         | with_reducible assumption
         | (with_reducible apply State.flushRing_onward)
         | (with_reducible apply State.endGrant_onward)
         | (with_reducible apply State.clearVolatile_onward)
         | refine Onward.of_snd (by assumption) ?_)
      | intro _
      | extract_lets
      | dsimp (zeta := false) only
      | dsimp +zetaDelta only)
  try clear_value s0_
  have h_s1_ : Onward s₀ s1_ := by
    dsimp (zeta := false) only [s1_]
    repeat' (first
      | with_reducible assumption
      | (with_reducible apply State.flushRing_onward)
      | (with_reducible apply State.endGrant_onward)
      | (with_reducible apply State.clearVolatile_onward)
      | with_reducible apply Onward.foldl
      | refine Onward.of_snd (by assumption) ?_
      | split
      | (with_reducible refine Onward.mk_same rfl ?_
         first
         | with_reducible assumption
         | (with_reducible apply State.flushRing_onward)
         | (with_reducible apply State.endGrant_onward)
         | (with_reducible apply State.clearVolatile_onward)
         | refine Onward.of_snd (by assumption) ?_)
      | intro _
      | extract_lets
      | dsimp (zeta := false) only
      | dsimp +zetaDelta only)
  try clear_value s1_
  repeat' (first
    | with_reducible assumption
    | (with_reducible apply State.flushRing_onward)
    | (with_reducible apply State.endGrant_onward)
    | (with_reducible apply State.clearVolatile_onward)
    | with_reducible apply Onward.foldl
    | refine Onward.of_snd (by assumption) ?_
    | split
    | (with_reducible refine Onward.mk_same rfl ?_
       first
       | with_reducible assumption
       | (with_reducible apply State.flushRing_onward)
       | (with_reducible apply State.endGrant_onward)
       | (with_reducible apply State.clearVolatile_onward)
       | refine Onward.of_snd (by assumption) ?_)
    | intro _
    | extract_lets
    | dsimp (zeta := false) only
    | dsimp +zetaDelta only)

theorem State.pfailCommitted_onward {s₀ : State} {s : State} (n : Nat) (ho : Onward s₀ s) : Onward s₀
    (State.pfailCommitted s n) := by
  unfold State.pfailCommitted
  repeat' (first
    | with_reducible assumption
    | (with_reducible apply State.programRing_onward)
    | with_reducible apply Onward.foldl
    | refine Onward.of_snd (by assumption) ?_
    | split
    | (with_reducible refine Onward.mk_same rfl ?_
       first
       | with_reducible assumption
       | (with_reducible apply State.programRing_onward)
       | refine Onward.of_snd (by assumption) ?_)
    | intro _
    | extract_lets
    | dsimp (zeta := false) only
    | dsimp +zetaDelta only)

theorem State.losePower_onward {s₀ s : State} (torn : Nat) (ho : Onward s₀ s) : Onward s₀ (s.losePower torn) := by
  unfold State.losePower
  have h1 := State.clearVolatile_onward (State.pfailCommitted_onward (min (min torn 8) s.evr.ring.length) ho)
  exact h1.upd (regs := fun _ => rfl) (frac := fun _ => (by decide : (0 : Nat) < 2 ^ 32))

theorem execPerstNAssert_onward {s : State} {t : State} (ho : execPerstNAssert s = .next t) : Onward s t := by
  unfold execPerstNAssert at ho
  injection ho with ho
  subst ho
  have ho := Onward.refl s
  extract_lets x0_ s1_
  have h_s1_ : Onward s s1_ := by
    dsimp (zeta := false) only [s1_]
    repeat' (first | with_reducible assumption | with_reducible refine Onward.mk_same rfl ?_)
  try clear_value s1_
  repeat' (first | with_reducible assumption | with_reducible apply State.restart_onward | split)

theorem execLinkDown_onward {s : State} {t : State} (ho : execLinkDown s = .next t) : Onward s t := by
  unfold execLinkDown at ho
  injection ho with ho
  subst ho
  have ho := Onward.refl s
  repeat' (first
      | with_reducible assumption | with_reducible apply State.restart_onward
      | with_reducible apply State.event_onward | split)

theorem State.sysReset_onward {s₀ : State} {s : State} (v : Word) (ho : Onward s₀ s) : Onward s₀ (State.sysReset s
    v) := by
  unfold State.sysReset
  repeat' (first
      | with_reducible assumption | with_reducible apply State.restart_onward
      | with_reducible apply State.configEvent_onward | split)

theorem execSysReset_onward (v : Word) {s : State} {t : State} (ho : execSysReset v s = .next t) : Onward s t := by
  unfold execSysReset at ho
  injection ho with ho
  subst ho
  have ho := Onward.refl s
  repeat' (first
      | with_reducible assumption | with_reducible apply State.gate_onward
      | with_reducible apply State.sysReset_onward | intro _)

theorem State.takeCommand_onward {s₀ s t : State} {g : Reg} {w : Word} (e : s.takeCommand g = some (w, t))
    (h : Onward s₀ s) : Onward s₀ t := by
  unfold State.takeCommand at e
  split at e
  · cases e
    exact h.same rfl
  · cases e

theorem State.refuseRequest_onward {s₀ s : State} (res f t : Nat) (ho : Onward s₀ s) :
    Onward s₀ (s.refuseRequest res f t) :=
  State.event_onward _ _ _ _ _ _ (ho.same rfl)

theorem State.refuseTransition_onward {s₀ : State} {s : State} (res : Nat) (f : Nat) (t : Nat) (ho : Onward s₀ s) :
    Onward s₀ (State.refuseTransition s res f t) := by
  unfold State.refuseTransition
  repeat' (first
    | with_reducible assumption
    | (with_reducible apply State.refuseRequest_onward)
    | (with_reducible apply State.releaseCommits_onward)
    | with_reducible apply Onward.foldl
    | refine Onward.of_snd (by assumption) ?_
    | split
    | (with_reducible refine Onward.mk_same rfl ?_
       first
       | with_reducible assumption
       | (with_reducible apply State.refuseRequest_onward)
       | (with_reducible apply State.releaseCommits_onward)
       | refine Onward.of_snd (by assumption) ?_)
    | intro _
    | extract_lets
    | dsimp (zeta := false) only
    | dsimp +zetaDelta only)

theorem State.acceptTransition_onward {s₀ : State} {s : State} (f : Nat) (t : Nat) (ho : Onward s₀ s) : Onward s₀
    (State.acceptTransition s f t) := by
  unfold State.acceptTransition
  repeat' (first
      | with_reducible assumption | with_reducible apply State.endGrant_onward
      | with_reducible refine Onward.mk_same rfl ?_)

theorem State.transitionStep_onward {s₀ s : State} (ok : Bool) (ho : Onward s₀ s) : Onward s₀ (s.transitionStep ok)
    := by
  unfold State.transitionStep
  split
  · exact ho
  · rename_i t ht
    extract_lets +onlyGivenNames at_
    have hat : ∀ (u : State) (n : Nat), Onward s₀ u → Onward s₀ (at_ u n) := fun u n hu => hu.same rfl
    clear_value at_
    split
    · exact ho
    split
    · extract_lets +onlyGivenNames s1
      have h1 : Onward s₀ s1 := State.commitAll_onward (State.event_onward _ _ _ _ _ _ ho)
      clear_value s1
      split
      · exact State.refuseTransition_onward _ _ _ h1
      · split
        · exact State.refuseTransition_onward _ _ _ h1
        · exact hat _ _ h1
    split
    · split
      · exact State.refuseTransition_onward _ _ _ ho
      · exact hat _ _ (ho.same rfl)
    split
    · split
      · exact hat _ _ ho
      split
      · exact hat _ _ (State.eraseUnref_onward ho)
      split
      · exact hat _ _ (State.copyRoots_onward _ ho)
      · exact State.copyRoots_onward _ (State.eraseUnref_onward ho)
    split
    · split
      · exact hat _ _ (ho.upd (words := List.prefix_append _ _))
      · exact ho
    split
    · exact hat _ _ (ho.same rfl)
    refine State.restart_onward _ ?_
    split
    · exact State.eraseRoots_onward (ho.same rfl)
    · exact ho

theorem State.transitionRun_onward {s₀ s : State} (n : Nat) (ok : Bool) (h : Onward s₀ s) :
    Onward s₀ (State.transitionRun n s ok) := by
  induction n generalizing s with
  | zero => exact h
  | succ n ih => exact ih (State.transitionStep_onward ok h)

theorem execTransition_onward (steps : Nat) (ok : Bool) {s t : State} (ho : execTransition steps ok s = .next t) :
    Onward s t := by
  unfold execTransition at ho
  injection ho with ho
  subst ho
  have ho := Onward.refl s
  repeat' (first
      | with_reducible assumption | (refine State.takeCommand_onward (by assumption) ?_)
      | with_reducible apply State.refuseRequest_onward | with_reducible apply State.transitionRun_onward
      | with_reducible apply State.acceptTransition_onward | split | dsimp only)

theorem State.ownerInstall_onward {s₀ : State} {s : State} (debug : Bool) (data : Option Bytes) (ok : Bool) (ho :
    Onward s₀ s) : Onward s₀ (State.ownerInstall s debug data ok) := by
  unfold State.ownerInstall
  extract_lets x0_ s1_ x2_
  have h_s1_ : Onward s₀ s1_ := by
    dsimp (zeta := false) only [s1_]
    repeat' (first | with_reducible assumption | with_reducible refine Onward.mk_same rfl ?_)
  try clear_value s1_
  repeat' (first
      | with_reducible assumption | with_reducible apply State.event_onward | split
      | with_reducible refine Onward.mk_same rfl ?_)

theorem State.ownerCommand_onward {s₀ : State} {s : State} (cmd : Nat) (data : Option Bytes) (ok : Bool) (now :
    Bool) (ho : Onward s₀ s) : Onward s₀ (State.ownerCommand s cmd data ok now) := by
  unfold State.ownerCommand
  repeat' (first
    | with_reducible assumption
    | (refine State.takeCommand_onward (by assumption) ?_)
    | (with_reducible apply State.stewardRead_onward)
    | (with_reducible apply State.ownerInstall_onward)
    | with_reducible apply Onward.foldl
    | refine Onward.of_snd (by assumption) ?_
    | split
    | (with_reducible refine Onward.mk_same rfl ?_
       first
       | with_reducible assumption
       | (refine State.takeCommand_onward (by assumption) ?_)
       | (with_reducible apply State.stewardRead_onward)
       | (with_reducible apply State.ownerInstall_onward)
       | refine Onward.of_snd (by assumption) ?_)
    | intro _
    | extract_lets
    | dsimp (zeta := false) only
    | dsimp +zetaDelta only)

theorem execInstallCodeKey_onward (data : Option Bytes) (ok : Bool) (now : Bool) {s : State} {t : State} (ho :
    execInstallCodeKey data ok now s = .next t) : Onward s t := by
  unfold execInstallCodeKey at ho
  injection ho with ho
  subst ho
  have ho := Onward.refl s
  repeat' (first
    | with_reducible assumption
    | (with_reducible apply State.ownerCommand_onward)
    | with_reducible apply Onward.foldl
    | refine Onward.of_snd (by assumption) ?_
    | split
    | (with_reducible refine Onward.mk_same rfl ?_
       first
       | with_reducible assumption
       | (with_reducible apply State.ownerCommand_onward)
       | refine Onward.of_snd (by assumption) ?_)
    | intro _
    | extract_lets
    | dsimp (zeta := false) only
    | dsimp +zetaDelta only)

theorem execInstallDebugKey_onward (data : Option Bytes) (ok : Bool) (now : Bool) {s : State} {t : State} (ho :
    execInstallDebugKey data ok now s = .next t) : Onward s t := by
  unfold execInstallDebugKey at ho
  injection ho with ho
  subst ho
  have ho := Onward.refl s
  repeat' (first
    | with_reducible assumption
    | (with_reducible apply State.ownerCommand_onward)
    | with_reducible apply Onward.foldl
    | refine Onward.of_snd (by assumption) ?_
    | split
    | (with_reducible refine Onward.mk_same rfl ?_
       first
       | with_reducible assumption
       | (with_reducible apply State.ownerCommand_onward)
       | refine Onward.of_snd (by assumption) ?_)
    | intro _
    | extract_lets
    | dsimp (zeta := false) only
    | dsimp +zetaDelta only)

theorem State.dbgCommand_onward {s₀ s t : State} {c : Nat} {w : Word} (e : s.dbgCommand c = some (w, t))
    (h : Onward s₀ s) : Onward s₀ t := by
  unfold State.dbgCommand at e
  split at e
  · split at e
    · cases e
      exact State.takeCommand_onward ‹_› h
    · cases e
  · cases e

theorem State.newChallenge_onward {s₀ : State} {s : State} (ho : Onward s₀ s) : Onward s₀ (State.newChallenge s) := by
  unfold State.newChallenge
  repeat' (first
    | with_reducible assumption
    | (with_reducible apply State.generate_onward)
    | with_reducible apply Onward.foldl
    | refine Onward.of_snd (by assumption) ?_
    | split
    | (with_reducible refine Onward.mk_same rfl ?_
       first
       | with_reducible assumption
       | (with_reducible apply State.generate_onward)
       | refine Onward.of_snd (by assumption) ?_)
    | intro _
    | extract_lets
    | dsimp (zeta := false) only
    | dsimp +zetaDelta only)

theorem execNewChallenge_onward {s : State} {t : State} (ho : execNewChallenge s = .next t) : Onward s t := by
  unfold execNewChallenge at ho
  injection ho with ho
  subst ho
  have ho := Onward.refl s
  repeat' (first
    | with_reducible assumption
    | (refine State.dbgCommand_onward (by assumption) ?_)
    | (with_reducible apply State.newChallenge_onward)
    | with_reducible apply Onward.foldl
    | refine Onward.of_snd (by assumption) ?_
    | split
    | (with_reducible refine Onward.mk_same rfl ?_
       first
       | with_reducible assumption
       | (refine State.dbgCommand_onward (by assumption) ?_)
       | (with_reducible apply State.newChallenge_onward)
       | refine Onward.of_snd (by assumption) ?_)
    | intro _
    | extract_lets
    | dsimp (zeta := false) only
    | dsimp +zetaDelta only)

theorem State.present__onward {s₀ : State} {s : State} (len : Nat) (ho : Onward s₀ s) : Onward s₀ (State.present_ s
    len) := by
  unfold State.present_
  extract_lets s0_ x1_ x2_ x3_ x4_ x5_ x6_
  have h_s0_ : Onward s₀ s0_ := by
    dsimp (zeta := false) only [s0_]
    repeat' (first | with_reducible assumption | with_reducible apply State.endGrant_onward)
  try clear_value s0_
  repeat' (first
      | with_reducible assumption | with_reducible apply State.event_onward | split
      | with_reducible refine Onward.mk_same rfl ?_)

theorem execPresent_onward {s : State} {t : State} (ho : execPresent s = .next t) : Onward s t := by
  unfold execPresent at ho
  injection ho with ho
  subst ho
  have ho := Onward.refl s
  repeat' (first
      | with_reducible assumption | (refine State.dbgCommand_onward (by assumption) ?_)
      | with_reducible apply State.present__onward | split)

theorem execRevoke_onward {s : State} {t : State} (ho : execRevoke s = .next t) : Onward s t := by
  unfold execRevoke at ho
  injection ho with ho
  subst ho
  have ho := Onward.refl s
  repeat' (first
      | with_reducible assumption | (refine State.dbgCommand_onward (by assumption) ?_)
      | with_reducible apply State.endGrant_onward | split)

theorem execChallengeExpiry_onward {s : State} {t : State} (ho : execChallengeExpiry s = .next t) : Onward s t := by
  unfold execChallengeExpiry at ho
  injection ho with ho
  subst ho
  have ho := Onward.refl s
  repeat' (first | with_reducible assumption | split | with_reducible refine Onward.mk_same rfl ?_)

theorem execGrantExpiry_onward {s : State} {t : State} (ho : execGrantExpiry s = .next t) : Onward s t := by
  unfold execGrantExpiry at ho
  injection ho with ho
  subst ho
  have ho := Onward.refl s
  repeat' (first | with_reducible assumption | with_reducible apply State.endGrant_onward | split)

theorem State.dbgAction_onward {s₀ s t : State} {c b n : Nat} {w : Bool} (e : s.dbgAction c b = some (n, w, t))
    (h : Onward s₀ s) : Onward s₀ t := by
  unfold State.dbgAction at e
  split at e
  · split at e
    · cases e
      exact State.takeCommand_onward ‹_› h
    · cases e
  · cases e

theorem State.recordAction_onward {s₀ : State} {s : State} (ok : Bool) (act : Nat) (arg : Nat) (ho : Onward s₀ s) :
    Onward s₀ (State.recordAction s ok act arg) := by
  unfold State.recordAction
  repeat' (first
    | with_reducible assumption
    | (with_reducible apply State.event_onward)
    | with_reducible apply Onward.foldl
    | refine Onward.of_snd (by assumption) ?_
    | split
    | (with_reducible refine Onward.mk_same rfl ?_
       first
       | with_reducible assumption
       | (with_reducible apply State.event_onward)
       | refine Onward.of_snd (by assumption) ?_)
    | intro _
    | extract_lets
    | dsimp (zeta := false) only
    | dsimp +zetaDelta only)

theorem State.haltEngine_onward {s₀ : State} {s : State} (e : Nat) (ho : Onward s₀ s) : Onward s₀ (State.haltEngine
    s e) := by
  unfold State.haltEngine
  extract_lets s0_
  have h_s0_ : Onward s₀ s0_ := by
    dsimp (zeta := false) only [s0_]
    repeat' (first
      | with_reducible assumption
      | (with_reducible apply State.onEngine_onward)
      | (with_reducible apply State.quarantine_onward)
      | (with_reducible apply State.unstage_onward)
      | (with_reducible apply State.frostEngine_onward)
      | with_reducible apply Onward.foldl
      | refine Onward.of_snd (by assumption) ?_
      | split
      | (with_reducible refine Onward.mk_same rfl ?_
         first
         | with_reducible assumption
         | (with_reducible apply State.onEngine_onward)
         | (with_reducible apply State.quarantine_onward)
         | (with_reducible apply State.unstage_onward)
         | (with_reducible apply State.frostEngine_onward)
         | refine Onward.of_snd (by assumption) ?_)
      | intro _
      | extract_lets
      | dsimp (zeta := false) only
      | dsimp +zetaDelta only)
  try clear_value s0_
  repeat' (first
    | with_reducible assumption
    | (with_reducible apply State.onEngine_onward)
    | (with_reducible apply State.quarantine_onward)
    | (with_reducible apply State.unstage_onward)
    | (with_reducible apply State.frostEngine_onward)
    | with_reducible apply Onward.foldl
    | refine Onward.of_snd (by assumption) ?_
    | split
    | (with_reducible refine Onward.mk_same rfl ?_
       first
       | with_reducible assumption
       | (with_reducible apply State.onEngine_onward)
       | (with_reducible apply State.quarantine_onward)
       | (with_reducible apply State.unstage_onward)
       | (with_reducible apply State.frostEngine_onward)
       | refine Onward.of_snd (by assumption) ?_)
    | intro _
    | extract_lets
    | dsimp (zeta := false) only
    | dsimp +zetaDelta only)

theorem execHalt_onward {s : State} {t : State} (ho : execHalt s = .next t) : Onward s t := by
  unfold execHalt at ho
  injection ho with ho
  subst ho
  have ho := Onward.refl s
  repeat' (first
      | with_reducible assumption | (refine State.dbgAction_onward (by assumption) ?_)
      | with_reducible apply State.recordAction_onward | with_reducible apply State.haltEngine_onward | split)

theorem execRelease_onward {s : State} {t : State} (ho : execRelease s = .next t) : Onward s t := by
  unfold execRelease at ho
  injection ho with ho
  subst ho
  have ho := Onward.refl s
  repeat' (first
    | with_reducible assumption
    | (refine State.dbgAction_onward (by assumption) ?_)
    | (with_reducible apply State.returned_onward)
    | (with_reducible apply State.loadConsts_onward)
    | (with_reducible apply State.frostEngine_onward)
    | (with_reducible apply State.recordAction_onward)
    | with_reducible apply Onward.foldl
    | refine Onward.of_snd (by assumption) ?_
    | split
    | (with_reducible refine Onward.mk_same rfl ?_
       first
       | with_reducible assumption
       | (refine State.dbgAction_onward (by assumption) ?_)
       | (with_reducible apply State.returned_onward)
       | (with_reducible apply State.loadConsts_onward)
       | (with_reducible apply State.frostEngine_onward)
       | (with_reducible apply State.recordAction_onward)
       | refine Onward.of_snd (by assumption) ?_)
    | intro _
    | extract_lets
    | dsimp (zeta := false) only
    | dsimp +zetaDelta only)

theorem State.exchange_onward {s₀ : State} {s : State} (e : Nat) (spare : Nat) (ho : Onward s₀ s) : Onward s₀
    (State.exchange s e spare) := by
  unfold State.exchange
  extract_lets x0_ s1_ s2_ s3_
  have h_s1_ : Onward s₀ s1_ := by
    dsimp (zeta := false) only [s1_]
    repeat' (first
      | with_reducible assumption
      | (with_reducible apply State.frostEngine_onward)
      | (with_reducible apply State.unstage_onward)
      | (with_reducible apply State.onEngine_onward)
      | (with_reducible apply State.recordMap_onward)
      | (with_reducible apply State.event_onward)
      | (with_reducible apply State.ungate_onward)
      | with_reducible apply Onward.foldl
      | refine Onward.of_snd (by assumption) ?_
      | split
      | (with_reducible refine Onward.mk_same rfl ?_
         first
         | with_reducible assumption
         | (with_reducible apply State.frostEngine_onward)
         | (with_reducible apply State.unstage_onward)
         | (with_reducible apply State.onEngine_onward)
         | (with_reducible apply State.recordMap_onward)
         | (with_reducible apply State.event_onward)
         | (with_reducible apply State.ungate_onward)
         | refine Onward.of_snd (by assumption) ?_)
      | intro _
      | extract_lets
      | dsimp (zeta := false) only
      | dsimp +zetaDelta only)
  try clear_value s1_
  have h_s2_ : Onward s₀ s2_ := by
    dsimp (zeta := false) only [s2_]
    repeat' (first
      | with_reducible assumption
      | (with_reducible apply State.frostEngine_onward)
      | (with_reducible apply State.unstage_onward)
      | (with_reducible apply State.onEngine_onward)
      | (with_reducible apply State.recordMap_onward)
      | (with_reducible apply State.event_onward)
      | (with_reducible apply State.ungate_onward)
      | with_reducible apply Onward.foldl
      | refine Onward.of_snd (by assumption) ?_
      | split
      | (with_reducible refine Onward.mk_same rfl ?_
         first
         | with_reducible assumption
         | (with_reducible apply State.frostEngine_onward)
         | (with_reducible apply State.unstage_onward)
         | (with_reducible apply State.onEngine_onward)
         | (with_reducible apply State.recordMap_onward)
         | (with_reducible apply State.event_onward)
         | (with_reducible apply State.ungate_onward)
         | refine Onward.of_snd (by assumption) ?_)
      | intro _
      | extract_lets
      | dsimp (zeta := false) only
      | dsimp +zetaDelta only)
  try clear_value s2_
  have h_s3_ : Onward s₀ s3_ := by
    dsimp (zeta := false) only [s3_]
    repeat' (first
      | with_reducible assumption
      | (with_reducible apply State.frostEngine_onward)
      | (with_reducible apply State.unstage_onward)
      | (with_reducible apply State.onEngine_onward)
      | (with_reducible apply State.recordMap_onward)
      | (with_reducible apply State.event_onward)
      | (with_reducible apply State.ungate_onward)
      | with_reducible apply Onward.foldl
      | refine Onward.of_snd (by assumption) ?_
      | split
      | (with_reducible refine Onward.mk_same rfl ?_
         first
         | with_reducible assumption
         | (with_reducible apply State.frostEngine_onward)
         | (with_reducible apply State.unstage_onward)
         | (with_reducible apply State.onEngine_onward)
         | (with_reducible apply State.recordMap_onward)
         | (with_reducible apply State.event_onward)
         | (with_reducible apply State.ungate_onward)
         | refine Onward.of_snd (by assumption) ?_)
      | intro _
      | extract_lets
      | dsimp (zeta := false) only
      | dsimp +zetaDelta only)
  try clear_value s3_
  repeat' (first
    | with_reducible assumption
    | (with_reducible apply State.frostEngine_onward)
    | (with_reducible apply State.unstage_onward)
    | (with_reducible apply State.onEngine_onward)
    | (with_reducible apply State.recordMap_onward)
    | (with_reducible apply State.event_onward)
    | (with_reducible apply State.ungate_onward)
    | with_reducible apply Onward.foldl
    | refine Onward.of_snd (by assumption) ?_
    | split
    | (with_reducible refine Onward.mk_same rfl ?_
       first
       | with_reducible assumption
       | (with_reducible apply State.frostEngine_onward)
       | (with_reducible apply State.unstage_onward)
       | (with_reducible apply State.onEngine_onward)
       | (with_reducible apply State.recordMap_onward)
       | (with_reducible apply State.event_onward)
       | (with_reducible apply State.ungate_onward)
       | refine Onward.of_snd (by assumption) ?_)
    | intro _
    | extract_lets
    | dsimp (zeta := false) only
    | dsimp +zetaDelta only)

theorem execSpare_onward (spare : Nat) {s : State} {t : State} (ho : execSpare spare s = .next t) : Onward s t := by
  unfold execSpare at ho
  injection ho with ho
  subst ho
  have ho := Onward.refl s
  repeat' (first
      | with_reducible assumption | (refine State.dbgAction_onward (by assumption) ?_)
      | with_reducible apply State.exchange_onward | with_reducible apply State.unstage_onward
      | with_reducible apply State.recordAction_onward | split | dsimp only)

theorem execTraceOn_onward {s : State} {t : State} (ho : execTraceOn s = .next t) : Onward s t := by
  unfold execTraceOn at ho
  injection ho with ho
  subst ho
  have ho := Onward.refl s
  repeat' (first
      | with_reducible assumption | (refine State.dbgAction_onward (by assumption) ?_)
      | with_reducible apply State.recordAction_onward | split | with_reducible refine Onward.mk_same rfl ?_)

theorem execTraceOff_onward {s : State} {t : State} (ho : execTraceOff s = .next t) : Onward s t := by
  unfold execTraceOff at ho
  injection ho with ho
  subst ho
  have ho := Onward.refl s
  repeat' (first
      | with_reducible assumption | (refine State.dbgAction_onward (by assumption) ?_)
      | with_reducible apply State.recordAction_onward | split | with_reducible refine Onward.mk_same rfl ?_)

theorem execInject_onward {s : State} {t : State} (ho : execInject s = .next t) : Onward s t := by
  unfold execInject at ho
  injection ho with ho
  subst ho
  have ho := Onward.refl s
  repeat' (first
      | with_reducible assumption | (refine State.dbgAction_onward (by assumption) ?_)
      | with_reducible apply State.recordAction_onward | with_reducible apply State.intake_onward | split)

theorem State.windowRead_onward {s₀ : State} {s : State} (ho : Onward s₀ s) : Onward s₀ (State.windowRead s) := by
  unfold State.windowRead
  extract_lets x0_ x1_ s2_
  have h_s2_ : Onward s₀ s2_ := by
    dsimp (zeta := false) only [s2_]
    repeat' (first
      | with_reducible assumption
      | (with_reducible apply State.setReg_onward)
      | (with_reducible apply State.emit_onward)
      | with_reducible apply Onward.foldl
      | refine Onward.of_snd (by assumption) ?_
      | split
      | (with_reducible refine Onward.mk_same rfl ?_
         first
         | with_reducible assumption
         | (with_reducible apply State.setReg_onward)
         | (with_reducible apply State.emit_onward)
         | refine Onward.of_snd (by assumption) ?_)
      | intro _
      | extract_lets
      | dsimp (zeta := false) only
      | dsimp +zetaDelta only)
  try clear_value s2_
  repeat' (first
    | with_reducible assumption
    | (with_reducible apply State.setReg_onward)
    | (with_reducible apply State.emit_onward)
    | with_reducible apply Onward.foldl
    | refine Onward.of_snd (by assumption) ?_
    | split
    | (with_reducible refine Onward.mk_same rfl ?_
       first
       | with_reducible assumption
       | (with_reducible apply State.setReg_onward)
       | (with_reducible apply State.emit_onward)
       | refine Onward.of_snd (by assumption) ?_)
    | intro _
    | extract_lets
    | dsimp (zeta := false) only
    | dsimp +zetaDelta only)

theorem execDbgWinDataRead_onward {s : State} {t : State} (ho : execDbgWinDataRead s = .next t) : Onward s t := by
  unfold execDbgWinDataRead at ho
  injection ho with ho
  subst ho
  have ho := Onward.refl s
  repeat' (first
      | with_reducible assumption | with_reducible apply State.emit_onward
      | with_reducible apply State.windowRead_onward | with_reducible apply State.wakeUp_onward
      | with_reducible apply State.badAccess_onward | split)

theorem State.nextBoot_onward {s₀ s : State} (ho : Onward s₀ s) : Onward s₀ s.nextBoot := by
  unfold State.nextBoot
  extract_lets +onlyGivenNames s1 s2
  have h1 : Onward s₀ s1 := Onward.ite (State.eraseUnref_onward (State.copyRoots_onward _ ho)) ho
  clear_value s1
  exact h1.upd (cells := fun _ => rfl)

theorem State.freeSlots_onward {s₀ s : State} (p : KeySlot → Bool) (h : Onward s₀ s) : Onward s₀ (s.freeSlots p) := by
  unfold State.freeSlots
  exact h.upd (slots := by dsimp only; exact keysRise_mapAll _ _)

theorem State.abortJob_onward {s₀ : State} {s : State} (j : Nat) (r : Result) (ho : Onward s₀ s) : Onward s₀
    (State.abortJob s j r) := by
  unfold State.abortJob
  repeat' (first | with_reducible assumption | with_reducible apply State.onJob_onward)

theorem State.containEngine_onward {s₀ : State} {s : State} (e : Nat) (resp : Nat) (ho : Onward s₀ s) : Onward s₀
    (State.containEngine s e resp) := by
  unfold State.containEngine
  extract_lets s0_ s1_ s2_
  have h_s0_ : Onward s₀ s0_ := by
    dsimp (zeta := false) only [s0_]
    repeat' (first
      | with_reducible assumption
      | (with_reducible apply State.abortJob_onward)
      | (with_reducible apply State.unstage_onward)
      | (with_reducible apply State.onEngine_onward)
      | (with_reducible apply State.quarantine_onward)
      | (with_reducible apply State.frostEngine_onward)
      | with_reducible apply Onward.foldl
      | refine Onward.of_snd (by assumption) ?_
      | split
      | (with_reducible refine Onward.mk_same rfl ?_
         first
         | with_reducible assumption
         | (with_reducible apply State.abortJob_onward)
         | (with_reducible apply State.unstage_onward)
         | (with_reducible apply State.onEngine_onward)
         | (with_reducible apply State.quarantine_onward)
         | (with_reducible apply State.frostEngine_onward)
         | refine Onward.of_snd (by assumption) ?_)
      | intro _
      | extract_lets
      | dsimp (zeta := false) only
      | dsimp +zetaDelta only)
  try clear_value s0_
  have h_s1_ : Onward s₀ s1_ := by
    dsimp (zeta := false) only [s1_]
    repeat' (first
      | with_reducible assumption
      | (with_reducible apply State.abortJob_onward)
      | (with_reducible apply State.unstage_onward)
      | (with_reducible apply State.onEngine_onward)
      | (with_reducible apply State.quarantine_onward)
      | (with_reducible apply State.frostEngine_onward)
      | with_reducible apply Onward.foldl
      | refine Onward.of_snd (by assumption) ?_
      | split
      | (with_reducible refine Onward.mk_same rfl ?_
         first
         | with_reducible assumption
         | (with_reducible apply State.abortJob_onward)
         | (with_reducible apply State.unstage_onward)
         | (with_reducible apply State.onEngine_onward)
         | (with_reducible apply State.quarantine_onward)
         | (with_reducible apply State.frostEngine_onward)
         | refine Onward.of_snd (by assumption) ?_)
      | intro _
      | extract_lets
      | dsimp (zeta := false) only
      | dsimp +zetaDelta only)
  try clear_value s1_
  have h_s2_ : Onward s₀ s2_ := by
    dsimp (zeta := false) only [s2_]
    repeat' (first
      | with_reducible assumption
      | (with_reducible apply State.abortJob_onward)
      | (with_reducible apply State.unstage_onward)
      | (with_reducible apply State.onEngine_onward)
      | (with_reducible apply State.quarantine_onward)
      | (with_reducible apply State.frostEngine_onward)
      | with_reducible apply Onward.foldl
      | refine Onward.of_snd (by assumption) ?_
      | split
      | (with_reducible refine Onward.mk_same rfl ?_
         first
         | with_reducible assumption
         | (with_reducible apply State.abortJob_onward)
         | (with_reducible apply State.unstage_onward)
         | (with_reducible apply State.onEngine_onward)
         | (with_reducible apply State.quarantine_onward)
         | (with_reducible apply State.frostEngine_onward)
         | refine Onward.of_snd (by assumption) ?_)
      | intro _
      | extract_lets
      | dsimp (zeta := false) only
      | dsimp +zetaDelta only)
  try clear_value s2_
  repeat' (first
    | with_reducible assumption
    | (with_reducible apply State.abortJob_onward)
    | (with_reducible apply State.unstage_onward)
    | (with_reducible apply State.onEngine_onward)
    | (with_reducible apply State.quarantine_onward)
    | (with_reducible apply State.frostEngine_onward)
    | with_reducible apply Onward.foldl
    | refine Onward.of_snd (by assumption) ?_
    | split
    | (with_reducible refine Onward.mk_same rfl ?_
       first
       | with_reducible assumption
       | (with_reducible apply State.abortJob_onward)
       | (with_reducible apply State.unstage_onward)
       | (with_reducible apply State.onEngine_onward)
       | (with_reducible apply State.quarantine_onward)
       | (with_reducible apply State.frostEngine_onward)
       | refine Onward.of_snd (by assumption) ?_)
    | intro _
    | extract_lets
    | dsimp (zeta := false) only
    | dsimp +zetaDelta only)

theorem State.endJobs_onward {s₀ : State} {s : State} (n : Nat) (r : Result) (suspendedToo : Bool) (ho : Onward s₀
    s) : Onward s₀ (State.endJobs s n r suspendedToo) := by
  unfold State.endJobs
  repeat' (first
      | with_reducible assumption | with_reducible apply State.abortJob_onward
      | with_reducible apply State.finish_onward | with_reducible apply Onward.foldl | split | intro _)

theorem State.containSlice_onward {s₀ : State} {s : State} (n : Nat) (resp : Nat) (ho : Onward s₀ s) : Onward s₀
    (State.containSlice s n resp) := by
  unfold State.containSlice
  extract_lets x0_ s1_
  have h_s1_ : Onward s₀ s1_ := by
    dsimp (zeta := false) only [s1_]
    repeat' (first
      | with_reducible assumption
      | (with_reducible apply State.signalManager_onward)
      | (with_reducible apply State.endJobs_onward)
      | (with_reducible apply State.onSlice_onward)
      | with_reducible apply Onward.foldl
      | refine Onward.of_snd (by assumption) ?_
      | split
      | (with_reducible refine Onward.mk_same rfl ?_
         first
         | with_reducible assumption
         | (with_reducible apply State.signalManager_onward)
         | (with_reducible apply State.endJobs_onward)
         | (with_reducible apply State.onSlice_onward)
         | refine Onward.of_snd (by assumption) ?_)
      | intro _
      | extract_lets
      | dsimp (zeta := false) only
      | dsimp +zetaDelta only)
  try clear_value s1_
  repeat' (first
    | with_reducible assumption
    | (with_reducible apply State.signalManager_onward)
    | (with_reducible apply State.endJobs_onward)
    | (with_reducible apply State.onSlice_onward)
    | with_reducible apply Onward.foldl
    | refine Onward.of_snd (by assumption) ?_
    | split
    | (with_reducible refine Onward.mk_same rfl ?_
       first
       | with_reducible assumption
       | (with_reducible apply State.signalManager_onward)
       | (with_reducible apply State.endJobs_onward)
       | (with_reducible apply State.onSlice_onward)
       | refine Onward.of_snd (by assumption) ?_)
    | intro _
    | extract_lets
    | dsimp (zeta := false) only
    | dsimp +zetaDelta only)

theorem State.containScope_onward {s₀ : State} {s : State} (scope : Scope) (resp : Nat) (ho : Onward s₀ s) : Onward
    s₀ (State.containScope s scope resp) := by
  unfold State.containScope
  repeat' (first
      | with_reducible assumption | with_reducible apply State.containEngine_onward
      | with_reducible apply State.containSlice_onward | split)

theorem State.stopAll_onward {s₀ : State} {s : State} (ho : Onward s₀ s) : Onward s₀ (State.stopAll s) := by
  unfold State.stopAll
  repeat' (first
      | with_reducible assumption | with_reducible apply State.onEngine_onward | with_reducible apply Onward.foldl
      | split | intro _)

theorem State.abortStarted_onward {s₀ : State} {s : State} (resp : Nat) (ho : Onward s₀ s) : Onward s₀
    (State.abortStarted s resp) := by
  unfold State.abortStarted
  repeat' (first
    | with_reducible assumption
    | (with_reducible apply State.abortJob_onward)
    | with_reducible apply Onward.foldl
    | refine Onward.of_snd (by assumption) ?_
    | split
    | (with_reducible refine Onward.mk_same rfl ?_
       first
       | with_reducible assumption
       | (with_reducible apply State.abortJob_onward)
       | refine Onward.of_snd (by assumption) ?_)
    | intro _
    | extract_lets
    | dsimp (zeta := false) only
    | dsimp +zetaDelta only)

theorem State.dropHeld_onward {s₀ s : State} (h : Onward s₀ s) : Onward s₀ s.dropHeld.2 := by
  unfold State.dropHeld
  exact h.upd (slices := by dsimp only; exact keysRise_mapAll _ _)

theorem State.abortAll_onward {s₀ : State} {s : State} (resp : Nat) (ho : Onward s₀ s) : Onward s₀ (State.abortAll s
    resp) := by
  unfold State.abortAll
  extract_lets s0_ s1_
  have h_s0_ : Onward s₀ s0_ := by
    dsimp (zeta := false) only [s0_]
    repeat' (first
      | with_reducible assumption
      | (with_reducible apply State.finish_onward)
      | (with_reducible apply State.onEngine_onward)
      | (with_reducible apply State.leaveRunning_onward)
      | (with_reducible apply State.issue_onward)
      | (with_reducible apply State.onJob_onward)
      | with_reducible apply Onward.foldl
      | refine Onward.of_snd (by assumption) ?_
      | split
      | (with_reducible refine Onward.mk_same rfl ?_
         first
         | with_reducible assumption
         | (with_reducible apply State.finish_onward)
         | (with_reducible apply State.onEngine_onward)
         | (with_reducible apply State.leaveRunning_onward)
         | (with_reducible apply State.issue_onward)
         | (with_reducible apply State.onJob_onward)
         | refine Onward.of_snd (by assumption) ?_)
      | intro _
      | extract_lets
      | dsimp (zeta := false) only
      | dsimp +zetaDelta only)
  try clear_value s0_
  have h_s1_ : Onward s₀ s1_ := by
    dsimp (zeta := false) only [s1_]
    repeat' (first
      | with_reducible assumption
      | (with_reducible apply State.finish_onward)
      | (with_reducible apply State.onEngine_onward)
      | (with_reducible apply State.leaveRunning_onward)
      | (with_reducible apply State.issue_onward)
      | (with_reducible apply State.onJob_onward)
      | with_reducible apply Onward.foldl
      | refine Onward.of_snd (by assumption) ?_
      | split
      | (with_reducible refine Onward.mk_same rfl ?_
         first
         | with_reducible assumption
         | (with_reducible apply State.finish_onward)
         | (with_reducible apply State.onEngine_onward)
         | (with_reducible apply State.leaveRunning_onward)
         | (with_reducible apply State.issue_onward)
         | (with_reducible apply State.onJob_onward)
         | refine Onward.of_snd (by assumption) ?_)
      | intro _
      | extract_lets
      | dsimp (zeta := false) only
      | dsimp +zetaDelta only)
  try clear_value s1_
  repeat' (first
    | with_reducible assumption
    | (with_reducible apply State.finish_onward)
    | (with_reducible apply State.onEngine_onward)
    | (with_reducible apply State.leaveRunning_onward)
    | (with_reducible apply State.issue_onward)
    | (with_reducible apply State.onJob_onward)
    | with_reducible apply Onward.foldl
    | refine Onward.of_snd (by assumption) ?_
    | split
    | (with_reducible refine Onward.mk_same rfl ?_
       first
       | with_reducible assumption
       | (with_reducible apply State.finish_onward)
       | (with_reducible apply State.onEngine_onward)
       | (with_reducible apply State.leaveRunning_onward)
       | (with_reducible apply State.issue_onward)
       | (with_reducible apply State.onJob_onward)
       | refine Onward.of_snd (by assumption) ?_)
    | intro _
    | extract_lets
    | dsimp (zeta := false) only
    | dsimp +zetaDelta only)

theorem State.forfeit_onward {s₀ : State} {s : State} (ho : Onward s₀ s) : Onward s₀ (State.forfeit s) := by
  unfold State.forfeit
  repeat' (first
    | with_reducible assumption
    | (with_reducible apply State.restart_onward)
    | (with_reducible apply State.eraseRoots_onward)
    | with_reducible apply Onward.foldl
    | refine Onward.of_snd (by assumption) ?_
    | split
    | (with_reducible refine Onward.mk_same rfl ?_
       first
       | with_reducible assumption
       | (with_reducible apply State.restart_onward)
       | (with_reducible apply State.eraseRoots_onward)
       | refine Onward.of_snd (by assumption) ?_)
    | intro _
    | extract_lets
    | dsimp (zeta := false) only
    | dsimp +zetaDelta only)

theorem State.purgeStep_onward {s₀ s : State} (ho : Onward s₀ s) : Onward s₀ s.purgeStep := by
  unfold State.purgeStep
  split
  · exact ho
  rename_i q hq
  extract_lets +onlyGivenNames at_
  have hat : ∀ (u : State) (n d : Nat), Onward s₀ u → Onward s₀ (at_ u n d) := fun u n d hu => hu.same rfl
  clear_value at_
  split
  · exact hat _ _ _ ho
  split
  · exact hat _ _ _ (State.abortStarted_onward _ ho)
  split
  · refine hat _ _ _ (Onward.foldl (fun u e hu => State.loadConsts_onward _ hu) ?_)
    have h1 := State.endGrant_onward 6 ho
    generalize s.endGrant 6 = u at h1 ⊢
    exact h1.upd (vces := fun _ => rfl) (slots := fun _ => rfl) (sess := fun _ => rfl)
      (engines := fun g => by dsimp only; exact keysRise_mapAll _ _ g) (pool := fun _ => Nat.zero_le _) (slices :=
          fun g => by dsimp only; exact keysRise_mapAll _ _ g)
  split
  · have h1 := State.dropHeld_onward (State.abortAll_onward s.response ho)
    exact hat _ _ _ h1
  split
  · have h1 := State.nextBoot_onward ho
    generalize s.nextBoot = u at h1 ⊢
    have h2 : Onward s₀ { u with kmg := { u.kmg with
        stf := mapAll {} u.kmg.stf fun _ r => { r with next := r.log.getLastD 0 } } } :=
      h1.upd (stf := fun g => by dsimp only; exact keysRise_mapAll _ _ g)
    have h3 := State.event_onward 8 q.monitor 7 0 0xFF (leBytes 4 q.discarded) h2
    dsimp only
    split
    · exact State.forfeit_onward h3
    · exact hat _ _ _ h3
  split
  · exact Onward.ite (State.forfeit_onward ho) ho
  · exact ho.same rfl

theorem State.purgeRun_onward {s₀ : State} (n : Nat) {s : State} (ho : Onward s₀ s) : Onward s₀ (s.purgeRun n) := by
  induction n generalizing s with
  | zero => exact ho
  | succ n ih => exact ih (State.purgeStep_onward ho)

theorem State.respond_onward {s₀ : State} {s : State} (m : Nat) (resp : Nat) (before : Nat) (scope : Scope) (ho :
    Onward s₀ s) : Onward s₀ (State.respond s m resp before scope) := by
  unfold State.respond
  extract_lets s0_ s1_ x2_ s3_ x4_
  have h_s0_ : Onward s₀ s0_ := by
    dsimp (zeta := false) only [s0_]
    repeat' (first
      | with_reducible assumption
      | (with_reducible apply State.containScope_onward)
      | (with_reducible apply State.abortStarted_onward)
      | (with_reducible apply State.stopAll_onward)
      | with_reducible apply Onward.foldl
      | refine Onward.of_snd (by assumption) ?_
      | split
      | (with_reducible refine Onward.mk_same rfl ?_
         first
         | with_reducible assumption
         | (with_reducible apply State.containScope_onward)
         | (with_reducible apply State.abortStarted_onward)
         | (with_reducible apply State.stopAll_onward)
         | refine Onward.of_snd (by assumption) ?_)
      | intro _
      | extract_lets
      | dsimp (zeta := false) only
      | dsimp +zetaDelta only)
  try clear_value s0_
  have h_s1_ : Onward s₀ s1_ := by
    dsimp (zeta := false) only [s1_]
    repeat' (first
      | with_reducible assumption
      | (with_reducible apply State.containScope_onward)
      | (with_reducible apply State.abortStarted_onward)
      | (with_reducible apply State.stopAll_onward)
      | with_reducible apply Onward.foldl
      | refine Onward.of_snd (by assumption) ?_
      | split
      | (with_reducible refine Onward.mk_same rfl ?_
         first
         | with_reducible assumption
         | (with_reducible apply State.containScope_onward)
         | (with_reducible apply State.abortStarted_onward)
         | (with_reducible apply State.stopAll_onward)
         | refine Onward.of_snd (by assumption) ?_)
      | intro _
      | extract_lets
      | dsimp (zeta := false) only
      | dsimp +zetaDelta only)
  try clear_value s1_
  have h_s3_ : Onward s₀ s3_ := by
    dsimp (zeta := false) only [s3_]
    repeat' (first
      | with_reducible assumption
      | (with_reducible apply State.containScope_onward)
      | (with_reducible apply State.abortStarted_onward)
      | (with_reducible apply State.stopAll_onward)
      | with_reducible apply Onward.foldl
      | refine Onward.of_snd (by assumption) ?_
      | split
      | (with_reducible refine Onward.mk_same rfl ?_
         first
         | with_reducible assumption
         | (with_reducible apply State.containScope_onward)
         | (with_reducible apply State.abortStarted_onward)
         | (with_reducible apply State.stopAll_onward)
         | refine Onward.of_snd (by assumption) ?_)
      | intro _
      | extract_lets
      | dsimp (zeta := false) only
      | dsimp +zetaDelta only)
  try clear_value s3_
  repeat' (first
    | with_reducible assumption
    | (with_reducible apply State.containScope_onward)
    | (with_reducible apply State.abortStarted_onward)
    | (with_reducible apply State.stopAll_onward)
    | with_reducible apply Onward.foldl
    | refine Onward.of_snd (by assumption) ?_
    | split
    | (with_reducible refine Onward.mk_same rfl ?_
       first
       | with_reducible assumption
       | (with_reducible apply State.containScope_onward)
       | (with_reducible apply State.abortStarted_onward)
       | (with_reducible apply State.stopAll_onward)
       | refine Onward.of_snd (by assumption) ?_)
    | intro _
    | extract_lets
    | dsimp (zeta := false) only
    | dsimp +zetaDelta only)

theorem State.raise_onward {s₀ : State} {s : State} (m : Nat) (count : Nat) (scope : Scope) (ho : Onward s₀ s) :
    Onward s₀ (State.raise s m count scope) := by
  unfold State.raise
  extract_lets x0_ x1_ x2_ x3_ x4_ x5_ s6_ s7_ s8_
  have h_s6_ : Onward s₀ s6_ := by
    dsimp (zeta := false) only [s6_]
    repeat' (first
      | with_reducible assumption
      | (with_reducible apply State.intake_onward)
      | (with_reducible apply State.refuseTransition_onward)
      | (with_reducible apply State.respond_onward)
      | with_reducible apply Onward.foldl
      | refine Onward.of_snd (by assumption) ?_
      | split
      | (with_reducible refine Onward.mk_same rfl ?_
         first
         | with_reducible assumption
         | (with_reducible apply State.intake_onward)
         | (with_reducible apply State.refuseTransition_onward)
         | (with_reducible apply State.respond_onward)
         | refine Onward.of_snd (by assumption) ?_)
      | intro _
      | extract_lets
      | dsimp (zeta := false) only
      | dsimp +zetaDelta only)
  try clear_value s6_
  have h_s7_ : Onward s₀ s7_ := by
    dsimp (zeta := false) only [s7_]
    repeat' (first
      | with_reducible assumption
      | (with_reducible apply State.intake_onward)
      | (with_reducible apply State.refuseTransition_onward)
      | (with_reducible apply State.respond_onward)
      | with_reducible apply Onward.foldl
      | refine Onward.of_snd (by assumption) ?_
      | split
      | (with_reducible refine Onward.mk_same rfl ?_
         first
         | with_reducible assumption
         | (with_reducible apply State.intake_onward)
         | (with_reducible apply State.refuseTransition_onward)
         | (with_reducible apply State.respond_onward)
         | refine Onward.of_snd (by assumption) ?_)
      | intro _
      | extract_lets
      | dsimp (zeta := false) only
      | dsimp +zetaDelta only)
  try clear_value s7_
  have h_s8_ : Onward s₀ s8_ := by
    dsimp (zeta := false) only [s8_]
    repeat' (first
      | with_reducible assumption
      | (with_reducible apply State.intake_onward)
      | (with_reducible apply State.refuseTransition_onward)
      | (with_reducible apply State.respond_onward)
      | with_reducible apply Onward.foldl
      | refine Onward.of_snd (by assumption) ?_
      | split
      | (with_reducible refine Onward.mk_same rfl ?_
         first
         | with_reducible assumption
         | (with_reducible apply State.intake_onward)
         | (with_reducible apply State.refuseTransition_onward)
         | (with_reducible apply State.respond_onward)
         | refine Onward.of_snd (by assumption) ?_)
      | intro _
      | extract_lets
      | dsimp (zeta := false) only
      | dsimp +zetaDelta only)
  try clear_value s8_
  repeat' (first
    | with_reducible assumption
    | (with_reducible apply State.intake_onward)
    | (with_reducible apply State.refuseTransition_onward)
    | (with_reducible apply State.respond_onward)
    | with_reducible apply Onward.foldl
    | refine Onward.of_snd (by assumption) ?_
    | split
    | (with_reducible refine Onward.mk_same rfl ?_
       first
       | with_reducible assumption
       | (with_reducible apply State.intake_onward)
       | (with_reducible apply State.refuseTransition_onward)
       | (with_reducible apply State.respond_onward)
       | refine Onward.of_snd (by assumption) ?_)
    | intro _
    | extract_lets
    | dsimp (zeta := false) only
    | dsimp +zetaDelta only)

theorem State.trip_onward {s₀ : State} {s : State} (m : Nat) (count : Nat) (scope : Scope) (ho : Onward s₀ s) :
    Onward s₀ (State.trip s m count scope) := by
  unfold State.trip
  repeat' (first
    | with_reducible assumption
    | (with_reducible apply State.raise_onward)
    | (with_reducible apply State.onMon_onward)
    | with_reducible apply Onward.foldl
    | refine Onward.of_snd (by assumption) ?_
    | split
    | (with_reducible refine Onward.mk_same rfl ?_
       first
       | with_reducible assumption
       | (with_reducible apply State.raise_onward)
       | (with_reducible apply State.onMon_onward)
       | refine Onward.of_snd (by assumption) ?_)
    | intro _
    | extract_lets
    | dsimp (zeta := false) only
    | dsimp +zetaDelta only)

theorem execMonitorTrip_onward (m : Nat) (count : Nat) (scope : TripScope) (steps : Nat) {s : State} {t : State} (ho
    : execMonitorTrip m count scope steps s = .next t) : Onward s t := by
  unfold execMonitorTrip at ho
  injection ho with ho
  subst ho
  have ho := Onward.refl s
  extract_lets s0_ s1_
  have h_s0_ : Onward s s0_ := by
    dsimp (zeta := false) only [s0_]
    repeat' (first
      | with_reducible assumption
      | (with_reducible apply State.wakeUp_onward)
      | (with_reducible apply State.onMon_onward)
      | (with_reducible apply State.purgeRun_onward)
      | (with_reducible apply State.trip_onward)
      | with_reducible apply Onward.foldl
      | refine Onward.of_snd (by assumption) ?_
      | split
      | (with_reducible refine Onward.mk_same rfl ?_
         first
         | with_reducible assumption
         | (with_reducible apply State.wakeUp_onward)
         | (with_reducible apply State.onMon_onward)
         | (with_reducible apply State.purgeRun_onward)
         | (with_reducible apply State.trip_onward)
         | refine Onward.of_snd (by assumption) ?_)
      | intro _
      | extract_lets
      | dsimp (zeta := false) only
      | dsimp +zetaDelta only)
  try clear_value s0_
  have h_s1_ : Onward s s1_ := by
    dsimp (zeta := false) only [s1_]
    repeat' (first
      | with_reducible assumption
      | (with_reducible apply State.wakeUp_onward)
      | (with_reducible apply State.onMon_onward)
      | (with_reducible apply State.purgeRun_onward)
      | (with_reducible apply State.trip_onward)
      | with_reducible apply Onward.foldl
      | refine Onward.of_snd (by assumption) ?_
      | split
      | (with_reducible refine Onward.mk_same rfl ?_
         first
         | with_reducible assumption
         | (with_reducible apply State.wakeUp_onward)
         | (with_reducible apply State.onMon_onward)
         | (with_reducible apply State.purgeRun_onward)
         | (with_reducible apply State.trip_onward)
         | refine Onward.of_snd (by assumption) ?_)
      | intro _
      | extract_lets
      | dsimp (zeta := false) only
      | dsimp +zetaDelta only)
  try clear_value s1_
  repeat' (first
    | with_reducible assumption
    | (with_reducible apply State.wakeUp_onward)
    | (with_reducible apply State.onMon_onward)
    | (with_reducible apply State.purgeRun_onward)
    | (with_reducible apply State.trip_onward)
    | with_reducible apply Onward.foldl
    | refine Onward.of_snd (by assumption) ?_
    | split
    | (with_reducible refine Onward.mk_same rfl ?_
       first
       | with_reducible assumption
       | (with_reducible apply State.wakeUp_onward)
       | (with_reducible apply State.onMon_onward)
       | (with_reducible apply State.purgeRun_onward)
       | (with_reducible apply State.trip_onward)
       | refine Onward.of_snd (by assumption) ?_)
    | intro _
    | extract_lets
    | dsimp (zeta := false) only
    | dsimp +zetaDelta only)

theorem State.resumeAll_onward {s₀ s : State} (h : Onward s₀ s) : Onward s₀ s.resumeAll := by
  unfold State.resumeAll
  split
  · exact h.upd (engines := by dsimp only; exact keysRise_mapAll _ _)
  · exact h

theorem State.clearOne_onward {s₀ : State} {s : State} (m : Nat) (holding : Bool) (ho : Onward s₀ s) : Onward s₀
    (State.clearOne s m holding) := by
  unfold State.clearOne
  extract_lets s0_ s1_ s2_ x2_
  have h_s0_ : Onward s₀ s0_ := by
    dsimp (zeta := false) only [s0_]
    repeat' (first | with_reducible assumption | with_reducible apply State.event_onward)
  try clear_value s0_
  have h_s1_ : Onward s₀ s1_ := by
    dsimp (zeta := false) only [s1_]
    repeat' (first | with_reducible assumption | with_reducible apply State.onMon_onward)
  try clear_value s1_
  have h2 : Onward s₀ s2_ := by
    dsimp only [s2_]
    split
    · exact State.onEngine_onward h_s1_
    · exact h_s1_
  split
  · exact h2.same rfl
  · exact ho

theorem execClear_onward {s t : State} (holding : BitVec 20) (h : execClear holding s = .next t) : Onward s t := by
  unfold execClear at h
  injection h with h
  subst h
  have h := Onward.refl s
  split
  · exact h
  · have h := State.takeCommand_onward ‹_› h
    split
    · exact h.same rfl
    · exact State.resumeAll_onward ((Onward.foldl (fun s m h => State.clearOne_onward m _ h) h).same rfl)

theorem execTest_onward (empty : Bool) {s : State} {t : State} (ho : execTest empty s = .next t) : Onward s t := by
  unfold execTest at ho
  injection ho with ho
  subst ho
  have ho := Onward.refl s
  repeat' (first
      | with_reducible assumption | (refine State.takeCommand_onward (by assumption) ?_) | split
      | with_reducible refine Onward.mk_same rfl ?_)

theorem State.nextOfRound_onward {s₀ : State} {s : State} (ho : Onward s₀ s) : Onward s₀ (State.nextOfRound s) := by
  unfold State.nextOfRound
  repeat' (first | with_reducible assumption | split | with_reducible refine Onward.mk_same rfl ?_)

theorem execStimulusTestEnd_onward (pass : Bool) {s : State} {t : State} (ho : execStimulusTestEnd pass s = .next t)
    : Onward s t := by
  unfold execStimulusTestEnd at ho
  injection ho with ho
  subst ho
  have ho := Onward.refl s
  repeat' (first
    | with_reducible assumption
    | (with_reducible apply State.onMon_onward)
    | (with_reducible apply State.event_onward)
    | (with_reducible apply State.nextOfRound_onward)
    | (with_reducible apply State.trip_onward)
    | (with_reducible apply State.wakeUp_onward)
    | with_reducible apply Onward.foldl
    | refine Onward.of_snd (by assumption) ?_
    | split
    | (with_reducible refine Onward.mk_same rfl ?_
       first
       | with_reducible assumption
       | (with_reducible apply State.onMon_onward)
       | (with_reducible apply State.event_onward)
       | (with_reducible apply State.nextOfRound_onward)
       | (with_reducible apply State.trip_onward)
       | (with_reducible apply State.wakeUp_onward)
       | refine Onward.of_snd (by assumption) ?_)
    | intro _
    | extract_lets
    | dsimp (zeta := false) only
    | dsimp +zetaDelta only)

theorem State.startRound_onward {s₀ : State} {s : State} (ho : Onward s₀ s) : Onward s₀ (State.startRound s) := by
  unfold State.startRound
  repeat' (first
      | with_reducible assumption | with_reducible apply State.nextOfRound_onward
      | with_reducible refine Onward.mk_same rfl ?_)

theorem execPeriodicSelftest_onward {s : State} {t : State} (ho : execPeriodicSelftest s = .next t) : Onward s t := by
  unfold execPeriodicSelftest at ho
  injection ho with ho
  subst ho
  have ho := Onward.refl s
  repeat' (first | with_reducible assumption | with_reducible apply State.startRound_onward | split)

theorem execMonCfgWrite_onward (m : Nat) {s : State} {t : State} (ho : execMonCfgWrite m s = .next t) : Onward s t
    := by
  unfold execMonCfgWrite at ho
  injection ho with ho
  subst ho
  have ho := Onward.refl s
  repeat' (first
      | with_reducible assumption | (refine State.takeCommand_onward (by assumption) ?_)
      | with_reducible apply State.setReg_onward | with_reducible apply State.onMon_onward | split
      | with_reducible refine Onward.mk_same rfl ?_)

theorem State.shadow_onward {s₀ : State} {s : State} (off : Nat) (ho : Onward s₀ s) : Onward s₀ (State.shadow s off)
    := by
  unfold State.shadow
  extract_lets s0_ x1_ s2_
  have h_s0_ : Onward s₀ s0_ := by
    dsimp (zeta := false) only [s0_]
    repeat' (first
      | with_reducible assumption
      | (with_reducible apply State.event_onward)
      | (with_reducible apply State.onMon_onward)
      | (with_reducible apply State.trip_onward)
      | with_reducible apply Onward.foldl
      | refine Onward.of_snd (by assumption) ?_
      | split
      | (with_reducible refine Onward.mk_same rfl ?_
         first
         | with_reducible assumption
         | (with_reducible apply State.event_onward)
         | (with_reducible apply State.onMon_onward)
         | (with_reducible apply State.trip_onward)
         | refine Onward.of_snd (by assumption) ?_)
      | intro _
      | extract_lets
      | dsimp (zeta := false) only
      | dsimp +zetaDelta only)
  try clear_value s0_
  have h_s2_ : Onward s₀ s2_ := by
    dsimp (zeta := false) only [s2_]
    repeat' (first
      | with_reducible assumption
      | (with_reducible apply State.event_onward)
      | (with_reducible apply State.onMon_onward)
      | (with_reducible apply State.trip_onward)
      | with_reducible apply Onward.foldl
      | refine Onward.of_snd (by assumption) ?_
      | split
      | (with_reducible refine Onward.mk_same rfl ?_
         first
         | with_reducible assumption
         | (with_reducible apply State.event_onward)
         | (with_reducible apply State.onMon_onward)
         | (with_reducible apply State.trip_onward)
         | refine Onward.of_snd (by assumption) ?_)
      | intro _
      | extract_lets
      | dsimp (zeta := false) only
      | dsimp +zetaDelta only)
  try clear_value s2_
  repeat' (first
    | with_reducible assumption
    | (with_reducible apply State.event_onward)
    | (with_reducible apply State.onMon_onward)
    | (with_reducible apply State.trip_onward)
    | with_reducible apply Onward.foldl
    | refine Onward.of_snd (by assumption) ?_
    | split
    | (with_reducible refine Onward.mk_same rfl ?_
       first
       | with_reducible assumption
       | (with_reducible apply State.event_onward)
       | (with_reducible apply State.onMon_onward)
       | (with_reducible apply State.trip_onward)
       | refine Onward.of_snd (by assumption) ?_)
    | intro _
    | extract_lets
    | dsimp (zeta := false) only
    | dsimp +zetaDelta only)

theorem execShadowWindowExpiry_onward (off : Nat) {s : State} {t : State} (ho : execShadowWindowExpiry off s = .next
    t) : Onward s t := by
  unfold execShadowWindowExpiry at ho
  injection ho with ho
  subst ho
  have ho := Onward.refl s
  repeat' (first
      | with_reducible assumption | with_reducible apply State.shadow_onward | split
      | with_reducible refine Onward.mk_same rfl ?_)

theorem execWinterTrip_onward {s t : State} (m count : Nat) (h : execWinterTrip m count s = .next t) :
    Onward s t := by
  unfold execWinterTrip at h
  injection h with h
  subst h
  have h := Onward.refl s
  extract_lets
  split
  · refine h.upd (counter := ?_)
    have e : ∀ a b c, (Aon.storeAlarm s.aon a b c).counter = s.aon.counter := by
      intro a b c
      unfold Aon.storeAlarm
      split <;> rfl
    exact fun g => (e _ _ _).symm ▸ g
  · exact h

theorem execMonitorRearm_onward (m : Nat) {s : State} {t : State} (ho : execMonitorRearm m s = .next t) : Onward s t
    := by
  unfold execMonitorRearm at ho
  injection ho with ho
  subst ho
  have ho := Onward.refl s
  repeat' (first | with_reducible assumption | split | with_reducible refine Onward.mk_same rfl ?_)

theorem State.slcCommand_onward {s₀ s t : State} {n c : Nat} (e : s.slcCommand n c = some t)
    (h : Onward s₀ s) : Onward s₀ t := by
  unfold State.slcCommand at e
  split at e
  · split at e
    · cases e
      exact State.setReg_onward (State.takeCommand_onward ‹_› h)
    · cases e
  · cases e

theorem State.badState_onward {s₀ : State} {s : State} (n : Nat) (ho : Onward s₀ s) : Onward s₀ (State.badState s n)
    := by
  unfold State.badState
  repeat' (first
      | with_reducible assumption | with_reducible apply State.configEvent_onward
      | with_reducible apply State.onSlice_onward)

theorem State.badConfig_onward {s₀ : State} {s : State} (n : Nat) (cause : Nat) (ho : Onward s₀ s) : Onward s₀
    (State.badConfig s n cause) := by
  unfold State.badConfig
  repeat' (first
      | with_reducible assumption | with_reducible apply State.configEvent_onward
      | with_reducible apply State.onSlice_onward)

theorem State.activate_onward {s₀ : State} {s : State} (n : Nat) (ho : Onward s₀ s) : Onward s₀ (State.activate s n)
    := by
  unfold State.activate
  extract_lets x0_ x1_ x2_ s3_ x4_ s5_
  have h_s3_ : Onward s₀ s3_ := by
    dsimp (zeta := false) only [s3_]
    repeat' (first
      | with_reducible assumption
      | (with_reducible apply State.badConfig_onward)
      | (with_reducible apply State.signalManager_onward)
      | (with_reducible apply State.onSlice_onward)
      | (with_reducible apply State.event_onward)
      | with_reducible apply Onward.foldl
      | refine Onward.of_snd (by assumption) ?_
      | split
      | (with_reducible refine Onward.mk_same rfl ?_
         first
         | with_reducible assumption
         | (with_reducible apply State.badConfig_onward)
         | (with_reducible apply State.signalManager_onward)
         | (with_reducible apply State.onSlice_onward)
         | (with_reducible apply State.event_onward)
         | refine Onward.of_snd (by assumption) ?_)
      | intro _
      | extract_lets
      | dsimp (zeta := false) only
      | dsimp +zetaDelta only)
  try clear_value s3_
  have h_s5_ : Onward s₀ s5_ := by
    dsimp (zeta := false) only [s5_]
    repeat' (first
      | with_reducible assumption
      | (with_reducible apply State.badConfig_onward)
      | (with_reducible apply State.signalManager_onward)
      | (with_reducible apply State.onSlice_onward)
      | (with_reducible apply State.event_onward)
      | with_reducible apply Onward.foldl
      | refine Onward.of_snd (by assumption) ?_
      | split
      | (with_reducible refine Onward.mk_same rfl ?_
         first
         | with_reducible assumption
         | (with_reducible apply State.badConfig_onward)
         | (with_reducible apply State.signalManager_onward)
         | (with_reducible apply State.onSlice_onward)
         | (with_reducible apply State.event_onward)
         | refine Onward.of_snd (by assumption) ?_)
      | intro _
      | extract_lets
      | dsimp (zeta := false) only
      | dsimp +zetaDelta only)
  try clear_value s5_
  repeat' (first
    | with_reducible assumption
    | (with_reducible apply State.badConfig_onward)
    | (with_reducible apply State.signalManager_onward)
    | (with_reducible apply State.onSlice_onward)
    | (with_reducible apply State.event_onward)
    | with_reducible apply Onward.foldl
    | refine Onward.of_snd (by assumption) ?_
    | split
    | (with_reducible refine Onward.mk_same rfl ?_
       first
       | with_reducible assumption
       | (with_reducible apply State.badConfig_onward)
       | (with_reducible apply State.signalManager_onward)
       | (with_reducible apply State.onSlice_onward)
       | (with_reducible apply State.event_onward)
       | refine Onward.of_snd (by assumption) ?_)
    | intro _
    | extract_lets
    | dsimp (zeta := false) only
    | dsimp +zetaDelta only)

theorem execActivate_onward (n : Nat) {s : State} {t : State} (ho : execActivate n s = .next t) : Onward s t := by
  unfold execActivate at ho
  injection ho with ho
  subst ho
  have ho := Onward.refl s
  repeat' (first
      | with_reducible assumption | (refine State.slcCommand_onward (by assumption) ?_)
      | with_reducible apply State.activate_onward | with_reducible apply State.badState_onward | split)

theorem execResume_onward (n : Nat) {s : State} {t : State} (ho : execResume n s = .next t) : Onward s t := by
  unfold execResume at ho
  injection ho with ho
  subst ho
  have ho := Onward.refl s
  repeat' (first
      | with_reducible assumption | (refine State.slcCommand_onward (by assumption) ?_)
      | with_reducible apply State.activate_onward | with_reducible apply State.badState_onward | split)

theorem State.quiesce_onward {s₀ : State} {s : State} (n : Nat) (ho : Onward s₀ s) : Onward s₀ (State.quiesce s n)
    := by
  unfold State.quiesce
  repeat' (first
    | with_reducible assumption
    | (with_reducible apply State.endJobs_onward)
    | (with_reducible apply State.signalManager_onward)
    | (with_reducible apply State.onSlice_onward)
    | with_reducible apply Onward.foldl
    | refine Onward.of_snd (by assumption) ?_
    | split
    | (with_reducible refine Onward.mk_same rfl ?_
       first
       | with_reducible assumption
       | (with_reducible apply State.endJobs_onward)
       | (with_reducible apply State.signalManager_onward)
       | (with_reducible apply State.onSlice_onward)
       | refine Onward.of_snd (by assumption) ?_)
    | intro _
    | extract_lets
    | dsimp (zeta := false) only
    | dsimp +zetaDelta only)

theorem execQuiesce_onward (n : Nat) {s : State} {t : State} (ho : execQuiesce n s = .next t) : Onward s t := by
  unfold execQuiesce at ho
  injection ho with ho
  subst ho
  have ho := Onward.refl s
  repeat' (first
      | with_reducible assumption | (refine State.slcCommand_onward (by assumption) ?_)
      | with_reducible apply State.quiesce_onward | with_reducible apply State.badState_onward | split)

theorem execQuiesceLimit_onward (n : Nat) {s : State} {t : State} (ho : execQuiesceLimit n s = .next t) : Onward s t
    := by
  unfold execQuiesceLimit at ho
  injection ho with ho
  subst ho
  have ho := Onward.refl s
  repeat' (first
      | with_reducible assumption | with_reducible apply State.endJobs_onward
      | with_reducible apply State.onSlice_onward | split)

theorem execQuiesced_onward (n : Nat) {s : State} {t : State} (ho : execQuiesced n s = .next t) : Onward s t := by
  unfold execQuiesced at ho
  injection ho with ho
  subst ho
  have ho := Onward.refl s
  extract_lets s0_ s1_
  have h_s0_ : Onward s s0_ := by
    dsimp (zeta := false) only [s0_]
    repeat' (first
      | with_reducible assumption
      | (with_reducible apply State.onSlice_onward)
      | (with_reducible apply State.event_onward)
      | (with_reducible apply State.signalManager_onward)
      | with_reducible apply Onward.foldl
      | refine Onward.of_snd (by assumption) ?_
      | split
      | (with_reducible refine Onward.mk_same rfl ?_
         first
         | with_reducible assumption
         | (with_reducible apply State.onSlice_onward)
         | (with_reducible apply State.event_onward)
         | (with_reducible apply State.signalManager_onward)
         | refine Onward.of_snd (by assumption) ?_)
      | intro _
      | extract_lets
      | dsimp (zeta := false) only
      | dsimp +zetaDelta only)
  try clear_value s0_
  have h_s1_ : Onward s s1_ := by
    dsimp (zeta := false) only [s1_]
    repeat' (first
      | with_reducible assumption
      | (with_reducible apply State.onSlice_onward)
      | (with_reducible apply State.event_onward)
      | (with_reducible apply State.signalManager_onward)
      | with_reducible apply Onward.foldl
      | refine Onward.of_snd (by assumption) ?_
      | split
      | (with_reducible refine Onward.mk_same rfl ?_
         first
         | with_reducible assumption
         | (with_reducible apply State.onSlice_onward)
         | (with_reducible apply State.event_onward)
         | (with_reducible apply State.signalManager_onward)
         | refine Onward.of_snd (by assumption) ?_)
      | intro _
      | extract_lets
      | dsimp (zeta := false) only
      | dsimp +zetaDelta only)
  try clear_value s1_
  repeat' (first
    | with_reducible assumption
    | (with_reducible apply State.onSlice_onward)
    | (with_reducible apply State.event_onward)
    | (with_reducible apply State.signalManager_onward)
    | with_reducible apply Onward.foldl
    | refine Onward.of_snd (by assumption) ?_
    | split
    | (with_reducible refine Onward.mk_same rfl ?_
       first
       | with_reducible assumption
       | (with_reducible apply State.onSlice_onward)
       | (with_reducible apply State.event_onward)
       | (with_reducible apply State.signalManager_onward)
       | refine Onward.of_snd (by assumption) ?_)
    | intro _
    | extract_lets
    | dsimp (zeta := false) only
    | dsimp +zetaDelta only)

theorem State.clearSlice_onward {s₀ s : State} (n : Nat) (ho : Onward s₀ s) : Onward s₀ (s.clearSlice n) := by
  unfold State.clearSlice
  extract_lets +onlyGivenNames s1 s2 s3 s4
  have h1 : Onward s₀ s1 := ho.same rfl
  clear_value s1
  have h2 : Onward s₀ s2 := Onward.foldl (fun _ _ h => State.setReg_onward h) h1
  clear_value s2
  have h3 : Onward s₀ s3 := State.onSlice_onward h2
  clear_value s3
  have h4 : Onward s₀ s4 := State.freeSlots_onward _ h3
  clear_value s4
  dsimp only
  exact h4.upd (sess := fun g => by dsimp only; exact keysRise_mapAll _ _ g)

theorem execReset_onward {s t : State} (n : Nat) (h : execReset n s = .next t) : Onward s t := by
  unfold execReset at h
  injection h with h
  subst h
  have h := Onward.refl s
  split
  · exact h
  · have h := State.slcCommand_onward ‹_› h
    split
    · exact State.event_onward _ _ _ _ _ _ (State.clearSlice_onward n h)
    · exact State.badState_onward n h

theorem State.remove_onward {s₀ s : State} (n : Nat) (ho : Onward s₀ s) : Onward s₀ (s.remove n) := by
  unfold State.remove
  extract_lets +onlyGivenNames w s1 k2 s2 s3 s4
  have h1 : Onward s₀ s1 := State.clearSlice_onward _ (State.signalManager_onward _ ho)
  clear_value s1
  have h2 : Onward s₀ s2 := h1.upd (epochs := fun g => keysRise_mapSet _ _ _ g)
  clear_value s2
  have h3 : Onward s₀ s3 := State.dropRecords_onward _ h2
  clear_value s3
  have h4 : Onward s₀ s4 := Onward.foldl (fun _ _ h => State.setReg_onward h) h3
  clear_value s4
  exact State.onSlice_onward h4

theorem execRemove_onward (n : Nat) {s : State} {t : State} (ho : execRemove n s = .next t) : Onward s t := by
  unfold execRemove at ho
  injection ho with ho
  subst ho
  have ho := Onward.refl s
  repeat' (first
      | with_reducible assumption | (refine State.slcCommand_onward (by assumption) ?_)
      | with_reducible apply State.badConfig_onward | with_reducible apply State.remove_onward
      | with_reducible apply State.badState_onward | split)

theorem execScrubDone_onward (n : Nat) {s t : State} (ho : execScrubDone n s = .next t) : Onward s t := by
  unfold execScrubDone at ho
  cases ho
  split
  · exact State.event_onward _ _ _ _ _ _ (State.signalManager_onward _ (State.onSlice_onward
      ((Onward.refl s).upd (cells := fun g => by dsimp only [Cmc.rewritten]; exact mapWf_filter _ _ g))))
  · exact .refl s

theorem State.harvest_onward {s₀ : State} {s : State} (us : optParam Nat ((s.el - s.rng.onAt) / 1000)) (ho : Onward
    s₀ s) : Onward s₀ (State.harvest s us) := by
  unfold State.harvest
  repeat' (first
    | with_reducible assumption
    | (with_reducible apply State.newBlock_onward)
    | (with_reducible apply State.fromD0_onward)
    | (with_reducible apply State.seed_onward)
    | (with_reducible apply State.event_onward)
    | with_reducible apply Onward.foldl
    | refine Onward.of_snd (by assumption) ?_
    | split
    | (with_reducible refine Onward.mk_same rfl ?_
       first
       | with_reducible assumption
       | (with_reducible apply State.newBlock_onward)
       | (with_reducible apply State.fromD0_onward)
       | (with_reducible apply State.seed_onward)
       | (with_reducible apply State.event_onward)
       | refine Onward.of_snd (by assumption) ?_)
    | intro _
    | extract_lets
    | dsimp (zeta := false) only
    | dsimp +zetaDelta only)

theorem State.openCmc_onward {s₀ : State} {s : State} (ho : Onward s₀ s) : Onward s₀ (State.openCmc s) := by
  unfold State.openCmc
  repeat' (first | with_reducible assumption | split | with_reducible refine Onward.mk_same rfl ?_)

theorem State.newRoot_onward {s₀ : State} {s : State} (b : Bytes) (ho : Onward s₀ s) : Onward s₀ (State.newRoot s b)
    := by
  unfold State.newRoot
  repeat' (first
    | with_reducible assumption
    | (with_reducible apply State.request1_onward)
    | (with_reducible apply State.seed_onward)
    | (with_reducible apply State.event_onward)
    | (with_reducible apply State.openCmc_onward)
    | with_reducible apply Onward.foldl
    | refine Onward.of_snd (by assumption) ?_
    | split
    | (with_reducible refine Onward.mk_same rfl ?_
       first
       | with_reducible assumption
       | (with_reducible apply State.request1_onward)
       | (with_reducible apply State.seed_onward)
       | (with_reducible apply State.event_onward)
       | (with_reducible apply State.openCmc_onward)
       | refine Onward.of_snd (by assumption) ?_)
    | intro _
    | extract_lets
    | dsimp (zeta := false) only
    | dsimp +zetaDelta only)

theorem State.giveTo_onward {s₀ : State} {s : State} (b : Bytes) (r : FreshReq) (ho : Onward s₀ s) : Onward s₀
    (State.giveTo s b r) := by
  unfold State.giveTo
  extract_lets x0_ s1_ x2_
  have h_s1_ : Onward s₀ s1_ := by
    dsimp (zeta := false) only [s1_]
    repeat' (first
      | with_reducible assumption
      | (with_reducible apply State.newRoot_onward)
      | (with_reducible apply State.seed_onward)
      | with_reducible apply Onward.foldl
      | refine Onward.of_snd (by assumption) ?_
      | split
      | (with_reducible refine Onward.mk_same rfl ?_
         first
         | with_reducible assumption
         | (with_reducible apply State.newRoot_onward)
         | (with_reducible apply State.seed_onward)
         | refine Onward.of_snd (by assumption) ?_)
      | intro _
      | extract_lets
      | dsimp (zeta := false) only
      | dsimp +zetaDelta only)
  try clear_value s1_
  repeat' (first
    | with_reducible assumption
    | (with_reducible apply State.newRoot_onward)
    | (with_reducible apply State.seed_onward)
    | with_reducible apply Onward.foldl
    | refine Onward.of_snd (by assumption) ?_
    | split
    | (with_reducible refine Onward.mk_same rfl ?_
       first
       | with_reducible assumption
       | (with_reducible apply State.newRoot_onward)
       | (with_reducible apply State.seed_onward)
       | refine Onward.of_snd (by assumption) ?_)
    | intro _
    | extract_lets
    | dsimp (zeta := false) only
    | dsimp +zetaDelta only)

theorem State.giveBlock_onward {s₀ s : State} (b : Bytes) (ho : Onward s₀ s) : Onward s₀ (s.giveBlock b) := by
  unfold State.giveBlock
  split
  · exact State.seed_onward _ _ ho
  split
  · exact State.giveTo_onward _ _ ho
  split
  · exact State.seed_onward _ _ ho
  split
  · exact State.giveTo_onward _ _ ho
  · split
    · rename_i hp
      refine ho.upd (pool := fun _ => ?_)
      simp only [List.length_append, List.length_singleton]
      exact hp
    · exact State.seed_onward _ _ ho

theorem State.tallied_onward {s₀ s : State} (n cause : Nat) (h : Onward s₀ s) : Onward s₀ (s.tallied n cause) :=
  h.upd (free := Nat.le_add_right _ 2)

theorem State.noEntropy_onward {s₀ : State} {s : State} (j : Nat) (ho : Onward s₀ s) : Onward s₀ (State.noEntropy s
    j) := by
  unfold State.noEntropy
  repeat' (first
      | with_reducible assumption | with_reducible apply State.finish_onward
      | with_reducible apply State.event_onward | split)

theorem State.entropyGone_onward {s₀ : State} {s : State} (ho : Onward s₀ s) : Onward s₀ (State.entropyGone s) := by
  unfold State.entropyGone
  extract_lets x0_ s1_
  have h_s1_ : Onward s₀ s1_ := by
    dsimp (zeta := false) only [s1_]
    repeat' (first | with_reducible assumption | with_reducible refine Onward.mk_same rfl ?_)
  try clear_value s1_
  repeat' (first
      | with_reducible assumption | with_reducible apply State.noEntropy_onward | with_reducible apply Onward.foldl
      | split | intro _)

theorem State.sourceFails_onward {s₀ s : State} (n cause : Nat) (startup : Bool) (h : Onward s₀ s) :
    Onward s₀ (s.sourceFails n cause startup) := by
  unfold State.sourceFails
  extract_lets s0 x1 s1 s2 x2
  have h0 : Onward s₀ s0 := State.tallied_onward _ _ h
  clear_value s0
  have h1 : Onward s₀ s1 := h0.upd (pool := fun _ => Nat.zero_le _)
  clear_value s1
  have h2 : Onward s₀ s2 := State.event_onward _ _ _ _ _ _ h1
  clear_value s2
  split
  · exact h2.same rfl
  · exact State.entropyGone_onward (State.event_onward _ _ _ _ _ _ (h2.same rfl))

theorem execHealthFail_onward (src : Nat) (cause : Nat) (startup : Bool) {s : State} {t : State} (ho :
    execHealthFail src cause startup s = .next t) : Onward s t := by
  unfold execHealthFail at ho
  injection ho with ho
  subst ho
  have ho := Onward.refl s
  repeat' (first | with_reducible assumption | with_reducible apply State.sourceFails_onward | split)

theorem execNoSamples_onward (src : Nat) {s : State} {t : State} (ho : execNoSamples src s = .next t) : Onward s t
    := by
  unfold execNoSamples at ho
  injection ho with ho
  subst ho
  have ho := Onward.refl s
  repeat' (first | with_reducible assumption | with_reducible apply State.sourceFails_onward | split)

theorem execReseedBackground_onward (inst : Nat) {s : State} {t : State} (ho : execReseedBackground inst s = .next
    t) : Onward s t := by
  unfold execReseedBackground at ho
  injection ho with ho
  subst ho
  have ho := Onward.refl s
  repeat' (first | with_reducible assumption | with_reducible apply State.reseed_onward | split)

theorem execReseedDue_onward (inst : Nat) {s : State} {t : State} (ho : execReseedDue inst s = .next t) : Onward s t
    := by
  unfold execReseedDue at ho
  injection ho with ho
  subst ho
  have ho := Onward.refl s
  repeat' (first
      | with_reducible assumption | with_reducible apply State.reseed_onward
      | with_reducible apply State.setDrbg_onward | split)

theorem State.sourceTested_onward {s₀ : State} {s : State} (n cause : Nat) (ho : Onward s₀ s) : Onward s₀
    (State.sourceTested s n cause) := by
  unfold State.sourceTested
  extract_lets p s0 s1 x1 s2 x3
  have h1 : Onward s₀ s1 := State.event_onward _ _ _ _ _ _ (State.tallied_onward _ _ ho)
  have h2 : Onward s₀ s2 := h1.same rfl
  split
  · exact h2.same rfl
  · exact h2

theorem State.beginTest_onward {s₀ : State} {s : State} (n : Nat) (cause : Nat) (ho : Onward s₀ s) : Onward s₀
    (State.beginTest s n cause) := by
  unfold State.beginTest
  repeat' (first
    | with_reducible assumption
    | with_reducible apply Onward.foldl
    | refine Onward.of_snd (by assumption) ?_
    | split
    | (with_reducible refine Onward.mk_same rfl ?_
       first | with_reducible assumption | refine Onward.of_snd (by assumption) ?_)
    | intro _
    | extract_lets
    | dsimp (zeta := false) only
    | dsimp +zetaDelta only)

theorem State.endTests_onward {s₀ : State} {s : State} (ho : Onward s₀ s) : Onward s₀ (State.endTests s) := by
  unfold State.endTests
  repeat' (first
    | with_reducible assumption
    | (with_reducible apply State.sourceTested_onward)
    | with_reducible apply Onward.foldl
    | refine Onward.of_snd (by assumption) ?_
    | split
    | (with_reducible refine Onward.mk_same rfl ?_
       first
       | with_reducible assumption
       | (with_reducible apply State.sourceTested_onward)
       | refine Onward.of_snd (by assumption) ?_)
    | intro _
    | extract_lets
    | dsimp (zeta := false) only
    | dsimp +zetaDelta only)

theorem execRetest_onward (src : Nat) (cause : Nat) {s : State} {t : State} (ho : execRetest src cause s = .next t)
    : Onward s t := by
  unfold execRetest at ho
  injection ho with ho
  subst ho
  have ho := Onward.refl s
  repeat' (first
    | with_reducible assumption
    | (with_reducible apply State.beginTest_onward)
    | with_reducible apply Onward.foldl
    | refine Onward.of_snd (by assumption) ?_
    | split
    | (with_reducible refine Onward.mk_same rfl ?_
       first
       | with_reducible assumption
       | (with_reducible apply State.beginTest_onward)
       | refine Onward.of_snd (by assumption) ?_)
    | intro _
    | extract_lets
    | dsimp (zeta := false) only
    | dsimp +zetaDelta only)

theorem execStandbyRetest_onward (src : Nat) (cause : Nat) {s : State} {t : State} (ho : execStandbyRetest src cause
    s = .next t) : Onward s t := by
  unfold execStandbyRetest at ho
  injection ho with ho
  subst ho
  have ho := Onward.refl s
  repeat' (first
    | with_reducible assumption
    | (with_reducible apply State.beginTest_onward)
    | with_reducible apply Onward.foldl
    | refine Onward.of_snd (by assumption) ?_
    | split
    | (with_reducible refine Onward.mk_same rfl ?_
       first
       | with_reducible assumption
       | (with_reducible apply State.beginTest_onward)
       | refine Onward.of_snd (by assumption) ?_)
    | intro _
    | extract_lets
    | dsimp (zeta := false) only
    | dsimp +zetaDelta only)

theorem State.freeSlot_onward {s₀ : State} {s : State} (i : Nat) (ho : Onward s₀ s) : Onward s₀ (State.freeSlot s i)
    := by
  unfold State.freeSlot
  repeat' (first | with_reducible assumption | with_reducible apply State.onSlot_onward)

theorem State.makeRoom_onward {s₀ s : State} (k n : Nat) {q : Nat} (ho : Onward s₀ s) : Onward s₀ (s.makeRoom k n
    q).2 := by
  induction k generalizing s with
  | zero => exact ho
  | succ k ih =>
    unfold State.makeRoom
    extract_lets short
    clear_value short
    split
    · exact ho
    split
    · exact ih (State.freeSlot_onward _ ho)
    · exact ho

theorem State.shortage_onward {s₀ : State} {s : State} (n : Nat) (why : Nat) (ho : Onward s₀ s) : Onward s₀
    (State.shortage s n why) := by
  unfold State.shortage
  repeat' (first | with_reducible assumption | with_reducible apply State.event_onward)

theorem State.touch_onward {s₀ s : State} (i : Nat) (h : Onward s₀ s) : Onward s₀ (s.touch i) :=
  (State.onSlot_onward (i := i) (f := fun k => { k with used := s.kmg.clock + 1 }) h).same rfl

theorem State.twoShares_onward {s₀ : State} {s : State} (b : Bytes) (ho : Onward s₀ s) : Onward s₀ (State.twoShares
    s b).2 := by
  unfold State.twoShares
  repeat' (first
    | with_reducible assumption
    | (with_reducible apply State.maskedBy_onward)
    | with_reducible apply Onward.foldl
    | refine Onward.of_snd (by assumption) ?_
    | split
    | (with_reducible refine Onward.mk_same rfl ?_
       first
       | with_reducible assumption
       | (with_reducible apply State.maskedBy_onward)
       | refine Onward.of_snd (by assumption) ?_)
    | intro _
    | extract_lets
    | dsimp (zeta := false) only
    | dsimp +zetaDelta only)

theorem State.shareKey_onward {s₀ : State} {s : State} (k : KeySlot) (ho : Onward s₀ s) : Onward s₀ (State.shareKey
    s k).2 := by
  unfold State.shareKey
  repeat' (first
    | with_reducible assumption
    | (with_reducible apply State.twoShares_onward)
    | with_reducible apply Onward.foldl
    | refine Onward.of_snd (by assumption) ?_
    | split
    | (with_reducible refine Onward.mk_same rfl ?_
       first
       | with_reducible assumption
       | (with_reducible apply State.twoShares_onward)
       | refine Onward.of_snd (by assumption) ?_)
    | intro _
    | extract_lets
    | dsimp (zeta := false) only
    | dsimp +zetaDelta only)

theorem State.readSlot_onward {s₀ : State} {s : State} (i : Nat) (ho : Onward s₀ s) : Onward s₀ (State.readSlot s i)
    := by
  unfold State.readSlot
  repeat' (first
    | with_reducible assumption
    | (with_reducible apply State.shareKey_onward)
    | (with_reducible apply State.serve_onward)
    | (with_reducible apply State.onSlot_onward)
    | with_reducible apply Onward.foldl
    | refine Onward.of_snd (by assumption) ?_
    | split
    | (with_reducible refine Onward.mk_same rfl ?_
       first
       | with_reducible assumption
       | (with_reducible apply State.shareKey_onward)
       | (with_reducible apply State.serve_onward)
       | (with_reducible apply State.onSlot_onward)
       | refine Onward.of_snd (by assumption) ?_)
    | intro _
    | extract_lets
    | dsimp (zeta := false) only
    | dsimp +zetaDelta only)

theorem State.install_onward {s₀ s : State} (n : Nat) (k : KeySlot) (loaded : Bool) (ho : Onward s₀ s) :
    Onward s₀ (s.install n k loaded).2 := by
  unfold State.install
  extract_lets +onlyGivenNames lines
  split
  · exact State.shortage_onward _ _ ho
  have hm := State.makeRoom_onward 16385 lines (q := 1) ho
  revert hm
  generalize s.makeRoom 16385 lines = p
  intro hm
  split
  · rename_i s1
    split
    · rename_i i hi
      have hk := State.shareKey_onward k hm
      revert hk
      generalize State.shareKey _ k = p
      obtain ⟨k2, s2⟩ := p
      intro hk
      exact State.touch_onward _ (State.onSlot_onward hk)
    · exact State.shortage_onward _ _ hm
  · exact State.shortage_onward _ _ hm

theorem State.makeLoaded_onward {s₀ : State} {s : State} (n : Nat) (i : Nat) (ho : Onward s₀ s) : Onward s₀
    (State.makeLoaded s n i).2 := by
  unfold State.makeLoaded
  repeat' (first
      | with_reducible assumption | with_reducible apply State.touch_onward
      | with_reducible apply State.onSlot_onward | with_reducible apply State.shortage_onward | split)

theorem State.loadBlob_onward {s₀ : State} {s : State} (n : Nat) (b : Bytes) (loaded : Bool) (extra : KeySlot →
    Bool) (ho : Onward s₀ s) : Onward s₀ (State.loadBlob s n b loaded extra).2 := by
  unfold State.loadBlob
  repeat' (first
    | with_reducible assumption
    | (with_reducible apply State.makeLoaded_onward)
    | (with_reducible apply State.touch_onward)
    | (with_reducible apply State.install_onward)
    | with_reducible apply Onward.foldl
    | refine Onward.of_snd (by assumption) ?_
    | split
    | (with_reducible refine Onward.mk_same rfl ?_
       first
       | with_reducible assumption
       | (with_reducible apply State.makeLoaded_onward)
       | (with_reducible apply State.touch_onward)
       | (with_reducible apply State.install_onward)
       | refine Onward.of_snd (by assumption) ?_)
    | intro _
    | extract_lets
    | dsimp (zeta := false) only
    | dsimp +zetaDelta only)

theorem State.holdSlot_onward {s₀ : State} {s : State} (j : Nat) (i : Nat) (ho : Onward s₀ s) : Onward s₀
    (State.holdSlot s j i) := by
  unfold State.holdSlot
  repeat' (first
      | with_reducible assumption | with_reducible apply State.onJob_onward
      | with_reducible apply State.onSlot_onward)

theorem State.newKeyId_onward {s₀ : State} {s : State} (ho : Onward s₀ s) : Onward s₀ (State.newKeyId s).2 := by
  unfold State.newKeyId
  repeat' (first | with_reducible assumption | with_reducible refine Onward.mk_same rfl ?_)

theorem State.newKey_onward {s₀ : State} {s : State} (n : Nat) (alg : Nat) (body : Bytes) (policy : Nat) (b : Bytes)
    (ho : Onward s₀ s) : Onward s₀ (State.newKey s n alg body policy b).2 := by
  unfold State.newKey
  repeat' (first | with_reducible assumption | with_reducible apply State.newKeyId_onward)

theorem State.placeKey_onward {s₀ : State} {s : State} (n : Nat) (dest : Nat) (k : KeySlot) (ho : Onward s₀ s) :
    Onward s₀ (State.placeKey s n dest k).2 := by
  unfold State.placeKey
  repeat' (first
      | with_reducible assumption | with_reducible apply State.install_onward
      | refine Onward.of_snd (by assumption) ?_ | split)

end Sys2Proof.Machine
end

