-- ==== Sys2Proof/Laws/OnwardFlow.lean ====
section
/-! SUPPORT. The path of a job, the host interface, settings, packages, the partition, time, register writes, context memory, the
scheduler and the engines.
Each lemma: the operation goes onward (`Onward`). -/

namespace Sys2Proof.Machine

set_option linter.all false
-- In order, so that a build of the package as one text needs few threads.
set_option Elab.async false

theorem State.jobRead_onward {s₀ : State} {s : State} (j : Nat) (n : Nat) (addr : Nat) (len : Nat) (ho : Onward s₀
    s) : Onward s₀ (State.jobRead s j n addr len) := by
  unfold State.jobRead
  repeat' (first
    | with_reducible assumption
    | (with_reducible apply State.request_onward)
    | (with_reducible apply State.onJob_onward)
    | with_reducible apply Onward.foldl
    | refine Onward.of_snd (by assumption) ?_
    | split
    | (with_reducible refine Onward.mk_same rfl ?_
       first
       | with_reducible assumption
       | (with_reducible apply State.request_onward)
       | (with_reducible apply State.onJob_onward)
       | refine Onward.of_snd (by assumption) ?_)
    | intro _
    | extract_lets
    | dsimp (zeta := false) only
    | dsimp +zetaDelta only)

theorem State.jobReads_onward {s₀ : State} {s : State} (j : Nat) (n : Nat) (l : List (Nat × Nat)) (ho : Onward s₀ s)
    : Onward s₀ (State.jobReads s j n l) := by
  unfold State.jobReads
  repeat' (first
    | with_reducible assumption
    | (with_reducible apply State.jobRead_onward)
    | with_reducible apply Onward.foldl
    | refine Onward.of_snd (by assumption) ?_
    | split
    | (with_reducible refine Onward.mk_same rfl ?_
       first
       | with_reducible assumption
       | (with_reducible apply State.jobRead_onward)
       | refine Onward.of_snd (by assumption) ?_)
    | intro _
    | extract_lets
    | dsimp (zeta := false) only
    | dsimp +zetaDelta only)

theorem State.readInput_onward {s₀ : State} {s : State} (j : Nat) (x : Job) (ho : Onward s₀ s) : Onward s₀
    (State.readInput s j x) := by
  unfold State.readInput
  repeat' (first
    | with_reducible assumption
    | (with_reducible apply State.jobReads_onward)
    | with_reducible apply Onward.foldl
    | refine Onward.of_snd (by assumption) ?_
    | split
    | (with_reducible refine Onward.mk_same rfl ?_
       first
       | with_reducible assumption
       | (with_reducible apply State.jobReads_onward)
       | refine Onward.of_snd (by assumption) ?_)
    | intro _
    | extract_lets
    | dsimp (zeta := false) only
    | dsimp +zetaDelta only)

theorem State.enterReady_onward {s₀ : State} {s : State} (j : Nat) (ho : Onward s₀ s) : Onward s₀ (State.enterReady
    s j) := by
  unfold State.enterReady
  split
  · dsimp only
    split
    · exact State.readInput_onward _ _ (State.putJob_onward _ _ ho)
    · exact State.putJob_onward _ _ ho
  · exact ho

theorem State.toReady_onward {s₀ s : State} (j : Nat) (ho : Onward s₀ s) : Onward s₀ (s.toReady j) := by
  unfold State.toReady
  split
  · exact ho
  extract_lets +onlyGivenNames s1
  have h1 : Onward s₀ s1 := State.putJob_onward _ _ ho
  clear_value s1
  split
  · extract_lets +onlyGivenNames s2
    have h2 : Onward s₀ s2 := Onward.ite (State.poolSeed_onward _ h1) h1
    clear_value s2
    split
    · exact State.noEntropy_onward _ h2
    split
    · rename_i b u hu
      have hu : s2.takePool = some (b, u) := by
        split at hu
        · exact hu
        · cases hu
      exact State.enterReady_onward _ ((State.takePool_onward hu h2).same rfl)
    · exact State.onJob_onward (h2.same rfl)
  split
  · exact State.enterReady_onward _ h1
  split
  · exact State.noEntropy_onward _ h1
  · exact State.onJob_onward h1

theorem State.keyTaken_onward {s₀ : State} {s : State} (j : Nat) (k : Nat) (ho : Onward s₀ s) : Onward s₀
    (State.keyTaken s j k) := by
  unfold State.keyTaken
  repeat' (first
    | with_reducible assumption
    | (with_reducible apply State.finish_onward)
    | (with_reducible apply State.putJob_onward)
    | (with_reducible apply State.holdSlot_onward)
    | (with_reducible apply State.onJob_onward)
    | (with_reducible apply State.toReady_onward)
    | with_reducible apply Onward.foldl
    | refine Onward.of_snd (by assumption) ?_
    | split
    | (with_reducible refine Onward.mk_same rfl ?_
       first
       | with_reducible assumption
       | (with_reducible apply State.finish_onward)
       | (with_reducible apply State.putJob_onward)
       | (with_reducible apply State.holdSlot_onward)
       | (with_reducible apply State.onJob_onward)
       | (with_reducible apply State.toReady_onward)
       | refine Onward.of_snd (by assumption) ?_)
    | intro _
    | extract_lets
    | dsimp (zeta := false) only
    | dsimp +zetaDelta only)

theorem State.keyByHandle_onward {s₀ : State} {s : State} (j : Nat) (x : Job) (h : Nat) (ho : Onward s₀ s) : Onward
    s₀ (State.keyByHandle s j x h) := by
  unfold State.keyByHandle
  repeat' (first
      | with_reducible assumption | with_reducible apply State.finish_onward
      | with_reducible apply State.keyTaken_onward | with_reducible apply State.touch_onward | split)

theorem State.unpin_onward {s₀ : State} {s : State} (h : Nat) (ho : Onward s₀ s) : Onward s₀ (State.unpin s h) := by
  unfold State.unpin
  repeat' (first
    | with_reducible assumption
    | (with_reducible apply State.onSlot_onward)
    | with_reducible apply Onward.foldl
    | refine Onward.of_snd (by assumption) ?_
    | split
    | (with_reducible refine Onward.mk_same rfl ?_
       first
       | with_reducible assumption
       | (with_reducible apply State.onSlot_onward)
       | refine Onward.of_snd (by assumption) ?_)
    | intro _
    | extract_lets
    | dsimp (zeta := false) only
    | dsimp +zetaDelta only)

theorem State.unpinKeys_onward {s₀ s : State} (i : Nat) (ho : Onward s₀ s) : Onward s₀ (s.unpinKeys i) := by
  unfold State.unpinKeys
  dsimp only
  split
  · exact State.unpin_onward _ (State.unpin_onward _ ho)
  · exact State.unpin_onward _ ho

theorem State.contextLost_onward {s₀ : State} {s : State} (j : Nat) (i : Nat) (ho : Onward s₀ s) : Onward s₀
    (State.contextLost s j i) := by
  unfold State.contextLost
  extract_lets s0_
  have h_s0_ : Onward s₀ s0_ := by
    dsimp (zeta := false) only [s0_]
    repeat' (first
      | with_reducible assumption
      | (with_reducible apply State.onJob_onward)
      | (with_reducible apply State.finish_onward)
      | (with_reducible apply State.readFails_onward)
      | (with_reducible apply State.onSession_onward)
      | (with_reducible apply State.unpinKeys_onward)
      | with_reducible apply Onward.foldl
      | refine Onward.of_snd (by assumption) ?_
      | split
      | (with_reducible refine Onward.mk_same rfl ?_
         first
         | with_reducible assumption
         | (with_reducible apply State.onJob_onward)
         | (with_reducible apply State.finish_onward)
         | (with_reducible apply State.readFails_onward)
         | (with_reducible apply State.onSession_onward)
         | (with_reducible apply State.unpinKeys_onward)
         | refine Onward.of_snd (by assumption) ?_)
      | intro _
      | extract_lets
      | dsimp (zeta := false) only
      | dsimp +zetaDelta only)
  try clear_value s0_
  repeat' (first
    | with_reducible assumption
    | (with_reducible apply State.onJob_onward)
    | (with_reducible apply State.finish_onward)
    | (with_reducible apply State.readFails_onward)
    | (with_reducible apply State.onSession_onward)
    | (with_reducible apply State.unpinKeys_onward)
    | with_reducible apply Onward.foldl
    | refine Onward.of_snd (by assumption) ?_
    | split
    | (with_reducible refine Onward.mk_same rfl ?_
       first
       | with_reducible assumption
       | (with_reducible apply State.onJob_onward)
       | (with_reducible apply State.finish_onward)
       | (with_reducible apply State.readFails_onward)
       | (with_reducible apply State.onSession_onward)
       | (with_reducible apply State.unpinKeys_onward)
       | refine Onward.of_snd (by assumption) ?_)
    | intro _
    | extract_lets
    | dsimp (zeta := false) only
    | dsimp +zetaDelta only)

theorem State.cacheSession_onward {s₀ : State} {s : State} (i : Nat) (ho : Onward s₀ s) : Onward s₀
    (State.cacheSession s i) := by
  unfold State.cacheSession
  extract_lets x0_ s1_ s2_ x3_
  have h_s1_ : Onward s₀ s1_ := by
    dsimp (zeta := false) only [s1_]
    repeat' (first
      | with_reducible assumption
      | (with_reducible apply State.readPlace_onward)
      | (with_reducible apply State.writePlace_onward)
      | with_reducible apply Onward.foldl
      | refine Onward.of_snd (by assumption) ?_
      | split
      | (with_reducible refine Onward.mk_same rfl ?_
         first
         | with_reducible assumption
         | (with_reducible apply State.readPlace_onward)
         | (with_reducible apply State.writePlace_onward)
         | refine Onward.of_snd (by assumption) ?_)
      | intro _
      | extract_lets
      | dsimp (zeta := false) only
      | dsimp +zetaDelta only)
  try clear_value s1_
  have h_s2_ : Onward s₀ s2_ := by
    dsimp (zeta := false) only [s2_]
    repeat' (first
      | with_reducible assumption
      | (with_reducible apply State.readPlace_onward)
      | (with_reducible apply State.writePlace_onward)
      | with_reducible apply Onward.foldl
      | refine Onward.of_snd (by assumption) ?_
      | split
      | (with_reducible refine Onward.mk_same rfl ?_
         first
         | with_reducible assumption
         | (with_reducible apply State.readPlace_onward)
         | (with_reducible apply State.writePlace_onward)
         | refine Onward.of_snd (by assumption) ?_)
      | intro _
      | extract_lets
      | dsimp (zeta := false) only
      | dsimp +zetaDelta only)
  try clear_value s2_
  repeat' (first
    | with_reducible assumption
    | (with_reducible apply State.readPlace_onward)
    | (with_reducible apply State.writePlace_onward)
    | with_reducible apply Onward.foldl
    | refine Onward.of_snd (by assumption) ?_
    | split
    | (with_reducible refine Onward.mk_same rfl ?_
       first
       | with_reducible assumption
       | (with_reducible apply State.readPlace_onward)
       | (with_reducible apply State.writePlace_onward)
       | refine Onward.of_snd (by assumption) ?_)
    | intro _
    | extract_lets
    | dsimp (zeta := false) only
    | dsimp +zetaDelta only)

theorem State.readSession_onward {s₀ s t : State} (j : Nat) (x : Job) (he : s.readSession j x = some t) (ho : Onward
    s₀ s) :
    Onward s₀ t := by
  unfold State.readSession at he
  split at he
  · simp at he
  split at he
  · exact Option.some.inj he ▸ State.contextLost_onward _ _ ho
  split at he
  · exact Option.some.inj he ▸ State.finish_onward _ _ _ ho
  · exact Option.some.inj he ▸ State.putJob_onward _ _ (State.cacheSession_onward _ ho)

theorem State.awaitBlob_onward {s₀ : State} {s : State} (j : Nat) (x : Job) (ho : Onward s₀ s) : Onward s₀
    (State.awaitBlob s j x) := by
  unfold State.awaitBlob
  repeat' (first
    | with_reducible assumption
    | (with_reducible apply State.putJob_onward)
    | with_reducible apply Onward.foldl
    | refine Onward.of_snd (by assumption) ?_
    | split
    | (with_reducible refine Onward.mk_same rfl ?_
       first
       | with_reducible assumption
       | (with_reducible apply State.putJob_onward)
       | refine Onward.of_snd (by assumption) ?_)
    | intro _
    | extract_lets
    | dsimp (zeta := false) only
    | dsimp +zetaDelta only)

theorem State.windowSlot_onward {s₀ s t : State} (j : Nat) (x : Job) (off : Nat) (he : s.windowSlot j x off = some t)
    (ho : Onward s₀ s) : Onward s₀ t := by
  unfold State.windowSlot at he
  split at he
  · simp at he
  split at he
  · simp at he
  obtain ⟨i, -, rfl⟩ := Option.map_eq_some_iff.1 he
  split
  · exact State.finish_onward _ _ _ ho
  split
  · exact State.finish_onward _ _ _ ho
  · exact State.keyTaken_onward _ _ (State.touch_onward _ (State.putJob_onward _ _ ho))

theorem State.followKey_onward {s₀ s : State} (j : Nat) (x : Job) (ho : Onward s₀ s) : Onward s₀ (s.followKey j x)
    := by
  unfold State.followKey
  split
  · exact State.toReady_onward _ ho
  split
  · exact State.toReady_onward _ ho
  · exact State.keyByHandle_onward _ _ _ ho
  · split
    · rename_i h
      exact State.windowSlot_onward _ _ _ h ho
    · exact State.awaitBlob_onward _ _ ho
  · exact State.jobRead_onward _ _ _ _ (State.awaitBlob_onward _ _ ho)

theorem State.leaveHeld_onward {s₀ s : State} (j : Nat) (ho : Onward s₀ s) : Onward s₀ (s.leaveHeld j) := by
  unfold State.leaveHeld
  split
  · exact ho
  split
  · split
    · exact State.finish_onward _ _ _ ho
    · rename_i h
      have h1 := State.readSession_onward _ _ h ho
      split
      · split
        · exact State.followKey_onward _ _ h1
        · exact h1
      · exact h1
  repeat' (first
      | exact State.finish_onward _ _ _ ho | exact State.followKey_onward _ _ ho
      | exact State.followKey_onward _ _ (State.putJob_onward _ _ ho) | split)

theorem State.passOne_onward {s₀ : State} {s : State} (j : Nat) (ho : Onward s₀ s) : Onward s₀ (State.passOne s j)
    := by
  unfold State.passOne
  repeat' (first | with_reducible assumption | with_reducible apply State.leaveHeld_onward | split)

theorem State.passHeld_onward {s₀ : State} {s : State} (ho : Onward s₀ s) : Onward s₀ (State.passHeld s) := by
  unfold State.passHeld
  repeat' (first
    | with_reducible assumption
    | (with_reducible apply State.passOne_onward)
    | with_reducible apply Onward.foldl
    | refine Onward.of_snd (by assumption) ?_
    | split
    | (with_reducible refine Onward.mk_same rfl ?_
       first
       | with_reducible assumption
       | (with_reducible apply State.passOne_onward)
       | refine Onward.of_snd (by assumption) ?_)
    | intro _
    | extract_lets
    | dsimp (zeta := false) only
    | dsimp +zetaDelta only)

theorem State.accessFault_onward {s₀ : State} {s : State} (n : Nat) (cause : Nat) (part : Nat) (qid : Nat) (ho :
    Onward s₀ s) : Onward s₀ (State.accessFault s n cause part qid) := by
  unfold State.accessFault
  repeat' (first | with_reducible assumption | with_reducible apply State.event_onward)

theorem State.addJob_onward {s₀ s : State} (x : Job) (h : Onward s₀ s) : Onward s₀ (s.addJob x) := by
  refine h.upd (jobs := fun g => ⟨keysRise_mapInsert _ _ g.jobs, fun e he => ?_⟩)
  rcases mem_mapInsert he with he | rfl
  · exact Nat.lt_succ_of_lt (g.numbers e he)
  · exact Nat.lt_succ_self _

theorem State.completeNow_onward {s₀ : State} {s : State} (x : Job) (r : Result) (ho : Onward s₀ s) : Onward s₀
    (State.completeNow s x r) := by
  unfold State.completeNow
  repeat' (first
      | with_reducible assumption | with_reducible apply State.takeRb_onward
      | with_reducible apply State.addJob_onward)

theorem State.admitJob_onward {s₀ : State} {s : State} (x : Job) (i : OpInfo) (ins : List (Nat × Nat)) (outs : List
    (Nat × Nat)) (ho : Onward s₀ s) : Onward s₀ (State.admitJob s x i ins outs) := by
  unfold State.admitJob
  repeat' (first
      | with_reducible assumption | with_reducible apply State.passOne_onward
      | with_reducible apply State.addJob_onward)

theorem State.consume_onward {s₀ : State} {s : State} (n : Nat) (q : Nat) (fd : FetchedDesc) (ho : Onward s₀ s) :
    Onward s₀ (State.consume s n q fd) := by
  unfold State.consume
  extract_lets x0_ x1_ x2_ s3_ s4_ s5_ x6_ s7_
  have h_s3_ : Onward s₀ s3_ := by
    dsimp (zeta := false) only [s3_]
    repeat' (first
      | with_reducible assumption
      | (with_reducible apply State.onSq_onward)
      | (with_reducible apply State.onCq_onward)
      | (with_reducible apply State.onSlice_onward)
      | (with_reducible apply State.completeNow_onward)
      | (with_reducible apply State.jobReads_onward)
      | (with_reducible apply State.accessFault_onward)
      | (with_reducible apply State.admitJob_onward)
      | with_reducible apply Onward.foldl
      | refine Onward.of_snd (by assumption) ?_
      | split
      | (with_reducible refine Onward.mk_same rfl ?_
         first
         | with_reducible assumption
         | (with_reducible apply State.onSq_onward)
         | (with_reducible apply State.onCq_onward)
         | (with_reducible apply State.onSlice_onward)
         | (with_reducible apply State.completeNow_onward)
         | (with_reducible apply State.jobReads_onward)
         | (with_reducible apply State.accessFault_onward)
         | (with_reducible apply State.admitJob_onward)
         | refine Onward.of_snd (by assumption) ?_)
      | intro _
      | extract_lets
      | dsimp (zeta := false) only
      | dsimp +zetaDelta only)
  try clear_value s3_
  have h_s4_ : Onward s₀ s4_ := by
    dsimp (zeta := false) only [s4_]
    repeat' (first
      | with_reducible assumption
      | (with_reducible apply State.onSq_onward)
      | (with_reducible apply State.onCq_onward)
      | (with_reducible apply State.onSlice_onward)
      | (with_reducible apply State.completeNow_onward)
      | (with_reducible apply State.jobReads_onward)
      | (with_reducible apply State.accessFault_onward)
      | (with_reducible apply State.admitJob_onward)
      | with_reducible apply Onward.foldl
      | refine Onward.of_snd (by assumption) ?_
      | split
      | (with_reducible refine Onward.mk_same rfl ?_
         first
         | with_reducible assumption
         | (with_reducible apply State.onSq_onward)
         | (with_reducible apply State.onCq_onward)
         | (with_reducible apply State.onSlice_onward)
         | (with_reducible apply State.completeNow_onward)
         | (with_reducible apply State.jobReads_onward)
         | (with_reducible apply State.accessFault_onward)
         | (with_reducible apply State.admitJob_onward)
         | refine Onward.of_snd (by assumption) ?_)
      | intro _
      | extract_lets
      | dsimp (zeta := false) only
      | dsimp +zetaDelta only)
  try clear_value s4_
  have h_s5_ : Onward s₀ s5_ := by
    dsimp (zeta := false) only [s5_]
    repeat' (first
      | with_reducible assumption
      | (with_reducible apply State.onSq_onward)
      | (with_reducible apply State.onCq_onward)
      | (with_reducible apply State.onSlice_onward)
      | (with_reducible apply State.completeNow_onward)
      | (with_reducible apply State.jobReads_onward)
      | (with_reducible apply State.accessFault_onward)
      | (with_reducible apply State.admitJob_onward)
      | with_reducible apply Onward.foldl
      | refine Onward.of_snd (by assumption) ?_
      | split
      | (with_reducible refine Onward.mk_same rfl ?_
         first
         | with_reducible assumption
         | (with_reducible apply State.onSq_onward)
         | (with_reducible apply State.onCq_onward)
         | (with_reducible apply State.onSlice_onward)
         | (with_reducible apply State.completeNow_onward)
         | (with_reducible apply State.jobReads_onward)
         | (with_reducible apply State.accessFault_onward)
         | (with_reducible apply State.admitJob_onward)
         | refine Onward.of_snd (by assumption) ?_)
      | intro _
      | extract_lets
      | dsimp (zeta := false) only
      | dsimp +zetaDelta only)
  try clear_value s5_
  have h_s7_ : Onward s₀ s7_ := by
    dsimp (zeta := false) only [s7_]
    repeat' (first
      | with_reducible assumption
      | (with_reducible apply State.onSq_onward)
      | (with_reducible apply State.onCq_onward)
      | (with_reducible apply State.onSlice_onward)
      | (with_reducible apply State.completeNow_onward)
      | (with_reducible apply State.jobReads_onward)
      | (with_reducible apply State.accessFault_onward)
      | (with_reducible apply State.admitJob_onward)
      | with_reducible apply Onward.foldl
      | refine Onward.of_snd (by assumption) ?_
      | split
      | (with_reducible refine Onward.mk_same rfl ?_
         first
         | with_reducible assumption
         | (with_reducible apply State.onSq_onward)
         | (with_reducible apply State.onCq_onward)
         | (with_reducible apply State.onSlice_onward)
         | (with_reducible apply State.completeNow_onward)
         | (with_reducible apply State.jobReads_onward)
         | (with_reducible apply State.accessFault_onward)
         | (with_reducible apply State.admitJob_onward)
         | refine Onward.of_snd (by assumption) ?_)
      | intro _
      | extract_lets
      | dsimp (zeta := false) only
      | dsimp +zetaDelta only)
  try clear_value s7_
  repeat' (first
    | with_reducible assumption
    | (with_reducible apply State.onSq_onward)
    | (with_reducible apply State.onCq_onward)
    | (with_reducible apply State.onSlice_onward)
    | (with_reducible apply State.completeNow_onward)
    | (with_reducible apply State.jobReads_onward)
    | (with_reducible apply State.accessFault_onward)
    | (with_reducible apply State.admitJob_onward)
    | with_reducible apply Onward.foldl
    | refine Onward.of_snd (by assumption) ?_
    | split
    | (with_reducible refine Onward.mk_same rfl ?_
       first
       | with_reducible assumption
       | (with_reducible apply State.onSq_onward)
       | (with_reducible apply State.onCq_onward)
       | (with_reducible apply State.onSlice_onward)
       | (with_reducible apply State.completeNow_onward)
       | (with_reducible apply State.jobReads_onward)
       | (with_reducible apply State.accessFault_onward)
       | (with_reducible apply State.admitJob_onward)
       | refine Onward.of_snd (by assumption) ?_)
    | intro _
    | extract_lets
    | dsimp (zeta := false) only
    | dsimp +zetaDelta only)

theorem State.capReleased_onward {s₀ : State} {s : State} (n : Nat) (ho : Onward s₀ s) : Onward s₀
    (State.capReleased s n) := by
  unfold State.capReleased
  repeat' (first | with_reducible assumption | with_reducible apply State.onSlice_onward | split)

theorem State.readDescs_onward {s₀ : State} {s : State} (n : Nat) (q : Nat) (ho : Onward s₀ s) : Onward s₀
    (State.readDescs s n q) := by
  unfold State.readDescs
  repeat' (first
    | with_reducible assumption
    | (with_reducible apply State.request_onward)
    | (with_reducible apply State.onSq_onward)
    | with_reducible apply Onward.foldl
    | refine Onward.of_snd (by assumption) ?_
    | split
    | (with_reducible refine Onward.mk_same rfl ?_
       first
       | with_reducible assumption
       | (with_reducible apply State.request_onward)
       | (with_reducible apply State.onSq_onward)
       | refine Onward.of_snd (by assumption) ?_)
    | intro _
    | extract_lets
    | dsimp (zeta := false) only
    | dsimp +zetaDelta only)

theorem State.issueDb_onward {s₀ : State} {s : State} (n : Nat) (ho : Onward s₀ s) : Onward s₀ (State.issueDb s n)
    := by
  unfold State.issueDb
  repeat' (first
    | with_reducible assumption
    | (with_reducible apply State.onSlice_onward)
    | (with_reducible apply State.request_onward)
    | with_reducible apply Onward.foldl
    | refine Onward.of_snd (by assumption) ?_
    | split
    | (with_reducible refine Onward.mk_same rfl ?_
       first
       | with_reducible assumption
       | (with_reducible apply State.onSlice_onward)
       | (with_reducible apply State.request_onward)
       | refine Onward.of_snd (by assumption) ?_)
    | intro _
    | extract_lets
    | dsimp (zeta := false) only
    | dsimp +zetaDelta only)

theorem execDoorbellPoll_onward (n : Nat) {s : State} {t : State} (ho : execDoorbellPoll n s = .next t) : Onward s t
    := by
  unfold execDoorbellPoll at ho
  injection ho with ho
  subst ho
  have ho := Onward.refl s
  repeat' (first | with_reducible assumption | with_reducible apply State.issueDb_onward | split)

theorem State.nudge_onward {s₀ : State} {s : State} (offset : Nat) (ho : Onward s₀ s) : Onward s₀ (State.nudge s
    offset) := by
  unfold State.nudge
  repeat' (first
    | with_reducible assumption
    | (with_reducible apply State.issueDb_onward)
    | (with_reducible apply State.wakeUp_onward)
    | with_reducible apply Onward.foldl
    | refine Onward.of_snd (by assumption) ?_
    | split
    | (with_reducible refine Onward.mk_same rfl ?_
       first
       | with_reducible assumption
       | (with_reducible apply State.issueDb_onward)
       | (with_reducible apply State.wakeUp_onward)
       | refine Onward.of_snd (by assumption) ?_)
    | intro _
    | extract_lets
    | dsimp (zeta := false) only
    | dsimp +zetaDelta only)

theorem execNudge_onward (offset : Nat) {s : State} {t : State} (ho : execNudge offset s = .next t) : Onward s t := by
  unfold execNudge at ho
  injection ho with ho
  subst ho
  have ho := Onward.refl s
  repeat' (first
    | with_reducible assumption
    | (with_reducible apply State.nudge_onward)
    | with_reducible apply Onward.foldl
    | refine Onward.of_snd (by assumption) ?_
    | split
    | (with_reducible refine Onward.mk_same rfl ?_
       first
       | with_reducible assumption
       | (with_reducible apply State.nudge_onward)
       | refine Onward.of_snd (by assumption) ?_)
    | intro _
    | extract_lets
    | dsimp (zeta := false) only
    | dsimp +zetaDelta only)

theorem State.takeTail_onward {s₀ : State} {s : State} (n : Nat) (q : Nat) (w : Word) (ho : Onward s₀ s) : Onward s₀
    (State.takeTail s n q w) := by
  unfold State.takeTail
  repeat' (first | with_reducible assumption | with_reducible apply State.onSq_onward | split)

theorem State.takeHead_onward {s₀ : State} {s : State} (n : Nat) (q : Nat) (w : Word) (ho : Onward s₀ s) : Onward s₀
    (State.takeHead s n q w) := by
  unfold State.takeHead
  repeat' (first | with_reducible assumption | with_reducible apply State.onCq_onward | split)

theorem State.readQueues_onward {s₀ : State} {s : State} (n : Nat) (ho : Onward s₀ s) : Onward s₀ (State.readQueues
    s n) := by
  unfold State.readQueues
  repeat' (first
      | with_reducible assumption | with_reducible apply State.readDescs_onward | with_reducible apply Onward.foldl
      | split | intro _)

theorem execDoorbellReadData_onward (n : Nat) (words : List Word) {s : State} {t : State} (ho : execDoorbellReadData
    n words s = .next t) : Onward s t := by
  unfold execDoorbellReadData at ho
  injection ho with ho
  subst ho
  have ho := Onward.refl s
  extract_lets x0_ s1_ s2_ s3_
  have h_s1_ : Onward s s1_ := by
    dsimp (zeta := false) only [s1_]
    repeat' (first | with_reducible assumption | with_reducible apply State.onSlice_onward)
  try clear_value s1_
  have h_s2_ : Onward s s2_ := by
    dsimp (zeta := false) only [s2_]
    repeat' (first
        | with_reducible assumption | with_reducible apply State.takeHead_onward
        | with_reducible apply State.takeTail_onward | with_reducible apply Onward.foldl | intro _)
  try clear_value s2_
  have h_s3_ : Onward s s3_ := by
    dsimp (zeta := false) only [s3_]
    repeat' (first
        | with_reducible assumption | with_reducible apply State.readQueues_onward
        | with_reducible apply State.capReleased_onward)
  try clear_value s3_
  repeat' (first | with_reducible assumption | with_reducible apply State.issueDb_onward | split)

theorem State.admitDue_onward {s₀ : State} (fuel t : Nat) {s : State} (ho : Onward s₀ s) : Onward s₀ (s.admitDue
    fuel t) := by
  induction fuel generalizing s with
  | zero => exact ho
  | succ fuel ih =>
    unfold State.admitDue
    extract_lets +onlyGivenNames at_
    split
    · exact ho
    split
    · exact ho
    · rename_i n q fd _
      extract_lets +onlyGivenNames s1 c2 s2 s3
      have h1 : Onward s₀ s1 := State.onSq_onward _ _ _ (State.capReleased_onward _ ho)
      clear_value s1
      have h3 : Onward s₀ s3 := State.consume_onward _ _ _ (h1.same rfl)
      clear_value s3
      exact ih (Onward.ite (State.readDescs_onward _ _ h3) h3)

theorem execDescriptorArrival_onward (n : Nat) (q : Nat) (descs : List FetchedDesc) {s : State} {t : State} (ho :
    execDescriptorArrival n q descs s = .next t) : Onward s t := by
  unfold execDescriptorArrival at ho
  injection ho with ho
  subst ho
  have ho := Onward.refl s
  extract_lets x0_ s1_ s2_
  have h_s1_ : Onward s s1_ := by
    dsimp (zeta := false) only [s1_]
    repeat' (first
      | with_reducible assumption
      | (with_reducible apply State.onSq_onward)
      | (with_reducible apply State.admitDue_onward)
      | (with_reducible apply State.event_onward)
      | with_reducible apply Onward.foldl
      | refine Onward.of_snd (by assumption) ?_
      | split
      | (with_reducible refine Onward.mk_same rfl ?_
         first
         | with_reducible assumption
         | (with_reducible apply State.onSq_onward)
         | (with_reducible apply State.admitDue_onward)
         | (with_reducible apply State.event_onward)
         | refine Onward.of_snd (by assumption) ?_)
      | intro _
      | extract_lets
      | dsimp (zeta := false) only
      | dsimp +zetaDelta only)
  try clear_value s1_
  have h_s2_ : Onward s s2_ := by
    dsimp (zeta := false) only [s2_]
    repeat' (first
      | with_reducible assumption
      | (with_reducible apply State.onSq_onward)
      | (with_reducible apply State.admitDue_onward)
      | (with_reducible apply State.event_onward)
      | with_reducible apply Onward.foldl
      | refine Onward.of_snd (by assumption) ?_
      | split
      | (with_reducible refine Onward.mk_same rfl ?_
         first
         | with_reducible assumption
         | (with_reducible apply State.onSq_onward)
         | (with_reducible apply State.admitDue_onward)
         | (with_reducible apply State.event_onward)
         | refine Onward.of_snd (by assumption) ?_)
      | intro _
      | extract_lets
      | dsimp (zeta := false) only
      | dsimp +zetaDelta only)
  try clear_value s2_
  repeat' (first
    | with_reducible assumption
    | (with_reducible apply State.onSq_onward)
    | (with_reducible apply State.admitDue_onward)
    | (with_reducible apply State.event_onward)
    | with_reducible apply Onward.foldl
    | refine Onward.of_snd (by assumption) ?_
    | split
    | (with_reducible refine Onward.mk_same rfl ?_
       first
       | with_reducible assumption
       | (with_reducible apply State.onSq_onward)
       | (with_reducible apply State.admitDue_onward)
       | (with_reducible apply State.event_onward)
       | refine Onward.of_snd (by assumption) ?_)
    | intro _
    | extract_lets
    | dsimp (zeta := false) only
    | dsimp +zetaDelta only)

theorem State.logAer_onward {s₀ : State} {s : State} (c : HCause) (ho : Onward s₀ s) : Onward s₀ (State.logAer s c)
    := by
  unfold State.logAer
  repeat' (first
    | with_reducible assumption
    | (with_reducible apply State.event_onward)
    | with_reducible apply Onward.foldl
    | refine Onward.of_snd (by assumption) ?_
    | split
    | (with_reducible refine Onward.mk_same rfl ?_
       first
       | with_reducible assumption
       | (with_reducible apply State.event_onward)
       | refine Onward.of_snd (by assumption) ?_)
    | intro _
    | extract_lets
    | dsimp (zeta := false) only
    | dsimp +zetaDelta only)

theorem State.accessFails_onward {s₀ : State} {s : State} (a : Access) (c : HCause) (ho : Onward s₀ s) : Onward s₀
    (State.accessFails s a c) := by
  unfold State.accessFails
  repeat' (first
      | with_reducible assumption | with_reducible apply State.finish_onward
      | with_reducible apply State.accessFault_onward | with_reducible apply State.putJob_onward
      | with_reducible apply State.onSq_onward | with_reducible apply State.onSlice_onward
      | with_reducible apply State.onCq_onward | split)

theorem execHostAccessFail_onward (a : Access) (c : HCause) {s : State} {t : State} (ho : execHostAccessFail a c s =
    .next t) : Onward s t := by
  unfold execHostAccessFail at ho
  injection ho with ho
  subst ho
  have ho := Onward.refl s
  repeat' (first
    | with_reducible assumption
    | (with_reducible apply State.accessFails_onward)
    | (with_reducible apply State.logAer_onward)
    | with_reducible apply Onward.foldl
    | refine Onward.of_snd (by assumption) ?_
    | split
    | (with_reducible refine Onward.mk_same rfl ?_
       first
       | with_reducible assumption
       | (with_reducible apply State.accessFails_onward)
       | (with_reducible apply State.logAer_onward)
       | refine Onward.of_snd (by assumption) ?_)
    | intro _
    | extract_lets
    | dsimp (zeta := false) only
    | dsimp +zetaDelta only)

theorem execCompletionTimeout_onward (a : Access) {s : State} {t : State} (ho : execCompletionTimeout a s = .next t)
    : Onward s t := by
  unfold execCompletionTimeout at ho
  injection ho with ho
  subst ho
  have ho := Onward.refl s
  repeat' (first
    | with_reducible assumption
    | (with_reducible apply State.accessFails_onward)
    | (with_reducible apply State.logAer_onward)
    | with_reducible apply Onward.foldl
    | refine Onward.of_snd (by assumption) ?_
    | split
    | (with_reducible refine Onward.mk_same rfl ?_
       first
       | with_reducible assumption
       | (with_reducible apply State.accessFails_onward)
       | (with_reducible apply State.logAer_onward)
       | refine Onward.of_snd (by assumption) ?_)
    | intro _
    | extract_lets
    | dsimp (zeta := false) only
    | dsimp +zetaDelta only)

theorem execAtsInvalidation_onward (pasid : Nat) (range : PageRange) {s : State} {t : State} (ho :
    execAtsInvalidation pasid range s = .next t) : Onward s t := by
  unfold execAtsInvalidation at ho
  injection ho with ho
  subst ho
  have ho := Onward.refl s
  extract_lets s0_ x1_
  have h_s0_ : Onward s s0_ := by
    dsimp (zeta := false) only [s0_]
    repeat' (first
      | with_reducible assumption
      | (with_reducible apply State.wakeUp_onward)
      | (with_reducible apply State.emit_onward)
      | with_reducible apply Onward.foldl
      | refine Onward.of_snd (by assumption) ?_
      | split
      | (with_reducible refine Onward.mk_same rfl ?_
         first
         | with_reducible assumption
         | (with_reducible apply State.wakeUp_onward)
         | (with_reducible apply State.emit_onward)
         | refine Onward.of_snd (by assumption) ?_)
      | intro _
      | extract_lets
      | dsimp (zeta := false) only
      | dsimp +zetaDelta only)
  try clear_value s0_
  repeat' (first
    | with_reducible assumption
    | (with_reducible apply State.wakeUp_onward)
    | (with_reducible apply State.emit_onward)
    | with_reducible apply Onward.foldl
    | refine Onward.of_snd (by assumption) ?_
    | split
    | (with_reducible refine Onward.mk_same rfl ?_
       first
       | with_reducible assumption
       | (with_reducible apply State.wakeUp_onward)
       | (with_reducible apply State.emit_onward)
       | refine Onward.of_snd (by assumption) ?_)
    | intro _
    | extract_lets
    | dsimp (zeta := false) only
    | dsimp +zetaDelta only)

theorem State.clearSq_onward {s₀ : State} {s : State} (n : Nat) (q : Nat) (ho : Onward s₀ s) : Onward s₀
    (State.clearSq s n q) := by
  unfold State.clearSq
  extract_lets s0_
  have h_s0_ : Onward s₀ s0_ := by
    dsimp (zeta := false) only [s0_]
    repeat' (first | with_reducible assumption | with_reducible apply State.onSq_onward)
  try clear_value s0_
  repeat' (first | with_reducible assumption | with_reducible apply State.readDescs_onward | split)

theorem execSqErrClear_onward (n : Nat) (q : Nat) {s : State} {t : State} (ho : execSqErrClear n q s = .next t) :
    Onward s t := by
  unfold execSqErrClear at ho
  injection ho with ho
  subst ho
  have ho := Onward.refl s
  repeat' (first
      | with_reducible assumption | with_reducible apply State.gate_onward
      | with_reducible apply State.clearSq_onward | split | intro _)

theorem State.clearCq_onward {s₀ : State} {s : State} (n : Nat) (q : Nat) (ho : Onward s₀ s) : Onward s₀
    (State.clearCq s n q) := by
  unfold State.clearCq
  extract_lets s0_
  have h_s0_ : Onward s₀ s0_ := by
    dsimp (zeta := false) only [s0_]
    repeat' (first | with_reducible assumption | with_reducible apply State.onCq_onward)
  try clear_value s0_
  repeat' (first | with_reducible assumption | with_reducible apply State.flushCq_onward | split)

theorem execCqErrClear_onward (n : Nat) (q : Nat) {s : State} {t : State} (ho : execCqErrClear n q s = .next t) :
    Onward s t := by
  unfold execCqErrClear at ho
  injection ho with ho
  subst ho
  have ho := Onward.refl s
  repeat' (first
      | with_reducible assumption | with_reducible apply State.gate_onward
      | with_reducible apply State.clearCq_onward | split | intro _)

theorem State.clearDb_onward {s₀ : State} {s : State} (n : Nat) (ho : Onward s₀ s) : Onward s₀ (State.clearDb s n)
    := by
  unfold State.clearDb
  repeat' (first | with_reducible assumption | with_reducible apply State.onSlice_onward | split)

theorem execDbErrClear_onward (n : Nat) {s : State} {t : State} (ho : execDbErrClear n s = .next t) : Onward s t := by
  unfold execDbErrClear at ho
  injection ho with ho
  subst ho
  have ho := Onward.refl s
  repeat' (first
      | with_reducible assumption | with_reducible apply State.gate_onward
      | with_reducible apply State.clearDb_onward | intro _)

theorem State.writeSqCfg_onward {s₀ : State} {s : State} (n : Nat) (q : Nat) (v : Word) (ho : Onward s₀ s) : Onward
    s₀ (State.writeSqCfg s n q v) := by
  unfold State.writeSqCfg
  extract_lets x0_ x1_ x2_ s3_ x4_ s5_ s6_
  have h_s3_ : Onward s₀ s3_ := by
    dsimp (zeta := false) only [s3_]
    repeat' (first | with_reducible assumption | with_reducible apply State.configEvent_onward)
  try clear_value s3_
  have h_s5_ : Onward s₀ s5_ := by
    dsimp (zeta := false) only [s5_]
    repeat' (first | with_reducible assumption | split)
  try clear_value s5_
  have h_s6_ : Onward s₀ s6_ := by
    dsimp (zeta := false) only [s6_]
    repeat' (first | with_reducible assumption | with_reducible apply State.setReg_onward)
  try clear_value s6_
  repeat' (first
      | with_reducible assumption | with_reducible apply State.setReg_onward
      | with_reducible apply State.onSq_onward | split)

theorem State.writeCqCfg_onward {s₀ : State} {s : State} (n : Nat) (q : Nat) (v : Word) (ho : Onward s₀ s) : Onward
    s₀ (State.writeCqCfg s n q v) := by
  unfold State.writeCqCfg
  extract_lets x0_ x1_ x2_ s3_ x4_
  have h_s3_ : Onward s₀ s3_ := by
    dsimp (zeta := false) only [s3_]
    repeat' (first | with_reducible assumption | with_reducible apply State.configEvent_onward)
  try clear_value s3_
  repeat' (first
      | with_reducible assumption | with_reducible apply State.setReg_onward
      | with_reducible apply State.onCq_onward | split)

theorem execSqEnable_onward (n : Nat) (q : Nat) (v : Word) {s : State} {t : State} (ho : execSqEnable n q v s =
    .next t) : Onward s t := by
  unfold execSqEnable at ho
  injection ho with ho
  subst ho
  have ho := Onward.refl s
  repeat' (first
      | with_reducible assumption | with_reducible apply State.gate_onward
      | with_reducible apply State.writeSqCfg_onward | split | intro _)

theorem execSqDisable_onward (n : Nat) (q : Nat) (v : Word) {s : State} {t : State} (ho : execSqDisable n q v s =
    .next t) : Onward s t := by
  unfold execSqDisable at ho
  injection ho with ho
  subst ho
  have ho := Onward.refl s
  repeat' (first
      | with_reducible assumption | with_reducible apply State.gate_onward
      | with_reducible apply State.writeSqCfg_onward | split | intro _)

theorem execCqEnable_onward (n : Nat) (q : Nat) (v : Word) {s : State} {t : State} (ho : execCqEnable n q v s =
    .next t) : Onward s t := by
  unfold execCqEnable at ho
  injection ho with ho
  subst ho
  have ho := Onward.refl s
  repeat' (first
      | with_reducible assumption | with_reducible apply State.gate_onward
      | with_reducible apply State.writeCqCfg_onward | split | intro _)

theorem execCqDisable_onward (n : Nat) (q : Nat) (v : Word) {s : State} {t : State} (ho : execCqDisable n q v s =
    .next t) : Onward s t := by
  unfold execCqDisable at ho
  injection ho with ho
  subst ho
  have ho := Onward.refl s
  repeat' (first
      | with_reducible assumption | with_reducible apply State.gate_onward
      | with_reducible apply State.writeCqCfg_onward | split | intro _)

theorem execCoalesceTimeout_onward (n : Nat) (q : Nat) {s : State} {t : State} (ho : execCoalesceTimeout n q s =
    .next t) : Onward s t := by
  unfold execCoalesceTimeout at ho
  injection ho with ho
  subst ho
  have ho := Onward.refl s
  repeat' (first | with_reducible assumption | with_reducible apply State.flushCq_onward | split)

theorem execModerationAge_onward (n : Nat) (q : Nat) {s : State} {t : State} (ho : execModerationAge n q s = .next
    t) : Onward s t := by
  unfold execModerationAge at ho
  injection ho with ho
  subst ho
  have ho := Onward.refl s
  repeat' (first
      | with_reducible assumption | with_reducible apply State.signal_onward | split
      | with_reducible refine Onward.mk_same rfl ?_)

theorem State.unmask_onward {s₀ s : State} (v : Nat) (h : Onward s₀ s) : Onward s₀ (s.unmask v) := by
  unfold State.unmask
  extract_lets x1 s1 x2
  have h1 : Onward s₀ s1 := by
    refine h.upd (msix := ?_)
    dsimp only [s1]
    exact keysRise_mapSet _ _ _
  clear_value s1
  split
  · exact State.message_onward _ (h1.same rfl)
  · exact h1

theorem execVectorUnmask_onward (v : Nat) {s : State} {t : State} (ho : execVectorUnmask v s = .next t) : Onward s t
    := by
  unfold execVectorUnmask at ho
  injection ho with ho
  subst ho
  have ho := Onward.refl s
  repeat' (first | with_reducible assumption | with_reducible apply State.unmask_onward | split)

theorem State.endStore_onward {s₀ : State} {s : State} (res : Nat) (ho : Onward s₀ s) : Onward s₀ (State.endStore s
    res) := by
  unfold State.endStore
  extract_lets x0_ s1_
  have h_s1_ : Onward s₀ s1_ := by
    dsimp (zeta := false) only [s1_]
    repeat' (first | with_reducible assumption | with_reducible refine Onward.mk_same rfl ?_)
  try clear_value s1_
  repeat' (first | with_reducible assumption | with_reducible apply State.event_onward)

theorem State.endOwner_onward {s₀ : State} {s : State} (ho : Onward s₀ s) : Onward s₀ (State.endOwner s) := by
  unfold State.endOwner
  repeat' (first
      | with_reducible assumption | with_reducible apply State.ownerInstall_onward | split
      | with_reducible refine Onward.mk_same rfl ?_)

theorem State.startStore_onward {s₀ : State} {s : State} (ho : Onward s₀ s) : Onward s₀ (State.startStore s) := by
  unfold State.startStore
  extract_lets s0_ x1_ x2_
  have h_s0_ : Onward s₀ s0_ := by
    dsimp (zeta := false) only [s0_]
    repeat' (first | with_reducible assumption | with_reducible apply State.endOwner_onward)
  try clear_value s0_
  repeat' (first | with_reducible assumption | with_reducible refine Onward.mk_same rfl ?_)

theorem State.storeStops_onward {s₀ : State} {s : State} (ho : Onward s₀ s) : Onward s₀ (State.storeStops s) := by
  unfold State.storeStops
  repeat' (first
    | with_reducible assumption
    | (with_reducible apply State.endStore_onward)
    | with_reducible apply Onward.foldl
    | refine Onward.of_snd (by assumption) ?_
    | split
    | (with_reducible refine Onward.mk_same rfl ?_
       first
       | with_reducible assumption
       | (with_reducible apply State.endStore_onward)
       | refine Onward.of_snd (by assumption) ?_)
    | intro _
    | extract_lets
    | dsimp (zeta := false) only
    | dsimp +zetaDelta only)

theorem State.storeStep_onward {s₀ : State} {s : State} (ok : Bool) (ho : Onward s₀ s) : Onward s₀ (State.storeStep
    s ok) := by
  unfold State.storeStep
  repeat' (first
      | with_reducible assumption | with_reducible apply State.endStore_onward
      | with_reducible apply State.eraseBlocks_onward | split | with_reducible refine Onward.mk_same rfl ?_)

theorem State.storeRun_onward {s₀ s : State} (n : Nat) (ok : Bool) (h : Onward s₀ s) :
    Onward s₀ (State.storeRun n s ok) := by
  induction n generalizing s with
  | zero => exact h
  | succ n ih => exact ih (State.storeStep_onward ok h)

theorem State.commandIs_onward {s₀ s t : State} {g : Reg} {c : Nat} {w : Word} (e : s.commandIs g c = some (w, t))
    (h : Onward s₀ s) : Onward s₀ t := by
  unfold State.commandIs at e
  split at e
  · split at e
    · cases e
      exact State.setReg_onward (State.takeCommand_onward ‹_› h)
    · cases e
  · cases e

theorem execStore_onward (steps : Nat) (ok : Bool) {s : State} {t : State} (ho : execStore steps ok s = .next t) :
    Onward s t := by
  unfold execStore at ho
  injection ho with ho
  subst ho
  have ho := Onward.refl s
  repeat' (first
      | with_reducible assumption | (refine State.commandIs_onward (by assumption) ?_)
      | with_reducible apply State.storeRun_onward | with_reducible apply State.startStore_onward | split
      | with_reducible refine Onward.mk_same rfl ?_)

theorem State.eraseImages_onward {s₀ : State} {s : State} (ho : Onward s₀ s) : Onward s₀ (State.eraseImages s) := by
  unfold State.eraseImages
  extract_lets x0_ s1_
  have h_s1_ : Onward s₀ s1_ := by
    dsimp (zeta := false) only [s1_]
    repeat' (first | with_reducible assumption | with_reducible refine Onward.mk_same rfl ?_)
  try clear_value s1_
  repeat' (first
      | with_reducible assumption | with_reducible apply State.endStore_onward
      | with_reducible apply State.eraseBlocks_onward)

theorem execDefaults_onward (now : Bool) {s : State} {t : State} (ho : execDefaults now s = .next t) : Onward s t :=
    by
  unfold execDefaults at ho
  injection ho with ho
  subst ho
  have ho := Onward.refl s
  repeat' (first
      | with_reducible assumption | (refine State.commandIs_onward (by assumption) ?_)
      | with_reducible apply State.eraseImages_onward | with_reducible apply State.endOwner_onward | split
      | with_reducible refine Onward.mk_same rfl ?_)

theorem State.commitResult_onward {s₀ : State} {s : State} (res : Nat) (ho : Onward s₀ s) : Onward s₀
    (State.commitResult s res) := by
  unfold State.commitResult
  repeat' (first | with_reducible assumption | with_reducible refine Onward.mk_same rfl ?_)

theorem State.emptyStaging_onward {s₀ : State} {s : State} (ho : Onward s₀ s) : Onward s₀ (State.emptyStaging s) := by
  unfold State.emptyStaging
  repeat' (first | with_reducible assumption | with_reducible refine Onward.mk_same rfl ?_)

theorem State.stage_onward {s₀ : State} {s : State} (r : Reg) (v : Word) (ho : Onward s₀ s) : Onward s₀ (State.stage
    s r v) := by
  unfold State.stage
  repeat' (first
      | with_reducible assumption | with_reducible apply State.configEvent_onward | split
      | with_reducible refine Onward.mk_same rfl ?_)

theorem execRwcWrite_onward (off : Nat) (v : Word) {s : State} {t : State} (ho : execRwcWrite off v s = .next t) :
    Onward s t := by
  unfold execRwcWrite at ho
  injection ho with ho
  subst ho
  have ho := Onward.refl s
  repeat' (first
      | with_reducible assumption | with_reducible apply State.gate_onward | with_reducible apply State.stage_onward
      | split | intro _)

theorem State.checkFails_onward {s₀ : State} {s : State} (res : Nat) (ho : Onward s₀ s) : Onward s₀
    (State.checkFails s res) := by
  unfold State.checkFails
  repeat' (first
      | with_reducible assumption | with_reducible apply State.event_onward
      | with_reducible refine Onward.mk_same rfl ?_)

theorem State.holdCaps_onward {s₀ s : State} (before : State) (ho : Onward s₀ s) : Onward s₀ (s.holdCaps before) := by
  unfold State.holdCaps
  exact Onward.foldl (fun _ _ h => Onward.ite (State.onSlice_onward h) h) ho

theorem State.clearReserved_onward {s₀ : State} {s : State} (was : List Nat) (ho : Onward s₀ s) : Onward s₀
    (State.clearReserved s was) := by
  unfold State.clearReserved
  repeat' (first
    | with_reducible assumption
    | (with_reducible apply State.unstage_onward)
    | with_reducible apply Onward.foldl
    | refine Onward.of_snd (by assumption) ?_
    | split
    | (with_reducible refine Onward.mk_same rfl ?_
       first
       | with_reducible assumption
       | (with_reducible apply State.unstage_onward)
       | refine Onward.of_snd (by assumption) ?_)
    | intro _
    | extract_lets
    | dsimp (zeta := false) only
    | dsimp +zetaDelta only)

theorem State.takeStaged_onward {s₀ s : State} (ho : Onward s₀ s) : Onward s₀ s.takeStaged := by
  unfold State.takeStaged
  extract_lets +onlyGivenNames was before s1
  have h1 : Onward s₀ s1 := by
    refine Onward.foldl (fun u e h => ?_) ho
    split
    · exact State.setReg_onward h
    · exact h
  clear_value s1
  exact State.clearReserved_onward _ (State.holdCaps_onward _ (State.commitResult_onward _
      (State.emptyStaging_onward h1)))

theorem State.storeFollows_onward {s₀ : State} {s : State} (ho : Onward s₀ s) : Onward s₀ (State.storeFollows s) := by
  unfold State.storeFollows
  repeat' (first
      | with_reducible assumption | with_reducible apply State.event_onward
      | with_reducible apply State.startStore_onward | split | with_reducible refine Onward.mk_same rfl ?_)

theorem State.applySet_onward {s₀ : State} {s : State} (timed : Bool) (ho : Onward s₀ s) : Onward s₀ (State.applySet
    s timed) := by
  unfold State.applySet
  extract_lets x0_ x1_ x2_ s3_ x4_ s5_ s6_
  have h_s3_ : Onward s₀ s3_ := by
    dsimp (zeta := false) only [s3_]
    repeat' (first | with_reducible assumption | with_reducible apply State.takeStaged_onward)
  try clear_value s3_
  have h_s5_ : Onward s₀ s5_ := by
    dsimp (zeta := false) only [s5_]
    repeat' (first | with_reducible assumption | with_reducible refine Onward.mk_same rfl ?_)
  try clear_value s5_
  have h_s6_ : Onward s₀ s6_ := by
    dsimp (zeta := false) only [s6_]
    repeat' (first | with_reducible assumption | with_reducible apply State.event_onward)
  try clear_value s6_
  repeat' (first
      | with_reducible assumption | with_reducible apply State.checkFails_onward
      | with_reducible apply State.storeFollows_onward | split)

theorem State.commitCommand_onward {s₀ : State} {s : State} (cmd : Nat) (f : Word → State → State) (hf : ∀ a0 a1,
    Onward s₀ a1 → Onward s₀ (f a0 a1)) (ho : Onward s₀ s) : Onward s₀ (State.commitCommand s cmd f) := by
  unfold State.commitCommand
  repeat' (first
      | with_reducible assumption | (refine State.commandIs_onward (by assumption) ?_)
      | with_reducible apply State.commitResult_onward | with_reducible apply hf | split)

theorem execCheck_onward {s : State} {t : State} (ho : execCheck s = .next t) : Onward s t := by
  unfold execCheck at ho
  injection ho with ho
  subst ho
  have ho := Onward.refl s
  repeat' (first
      | with_reducible assumption | with_reducible apply State.commitCommand_onward
      | with_reducible apply State.checkFails_onward | split | with_reducible refine Onward.mk_same rfl ?_
      | intro _)

theorem execApplyNow_onward {s : State} {t : State} (ho : execApplyNow s = .next t) : Onward s t := by
  unfold execApplyNow at ho
  injection ho with ho
  subst ho
  have ho := Onward.refl s
  repeat' (first
      | with_reducible assumption | with_reducible apply State.commitCommand_onward
      | with_reducible apply State.applySet_onward | with_reducible refine Onward.mk_same rfl ?_ | intro _)

theorem execApplyAt_onward {s : State} {t : State} (ho : execApplyAt s = .next t) : Onward s t := by
  unfold execApplyAt at ho
  injection ho with ho
  subst ho
  have ho := Onward.refl s
  repeat' (first
      | with_reducible assumption | with_reducible apply State.commitCommand_onward
      | with_reducible apply State.commitResult_onward | with_reducible apply State.event_onward | split
      | with_reducible refine Onward.mk_same rfl ?_ | intro _)

theorem execDiscard_onward {s : State} {t : State} (ho : execDiscard s = .next t) : Onward s t := by
  unfold execDiscard at ho
  injection ho with ho
  subst ho
  have ho := Onward.refl s
  repeat' (first
      | with_reducible assumption | with_reducible apply State.commitCommand_onward
      | with_reducible apply State.event_onward | with_reducible apply State.commitResult_onward
      | with_reducible apply State.emptyStaging_onward | intro _)

theorem State.commitDue_onward {s₀ : State} {s : State} (ho : Onward s₀ s) : Onward s₀ (State.commitDue s) := by
  unfold State.commitDue
  repeat' (first | with_reducible assumption | with_reducible apply State.applySet_onward | split)

theorem execCommitInstant_onward {s : State} {t : State} (ho : execCommitInstant s = .next t) : Onward s t := by
  unfold execCommitInstant at ho
  injection ho with ho
  subst ho
  have ho := Onward.refl s
  repeat' (first
    | with_reducible assumption
    | (with_reducible apply State.commitDue_onward)
    | with_reducible apply Onward.foldl
    | refine Onward.of_snd (by assumption) ?_
    | split
    | (with_reducible refine Onward.mk_same rfl ?_
       first
       | with_reducible assumption
       | (with_reducible apply State.commitDue_onward)
       | refine Onward.of_snd (by assumption) ?_)
    | intro _
    | extract_lets
    | dsimp (zeta := false) only
    | dsimp +zetaDelta only)

theorem State.installBegin_onward {s₀ : State} {s : State} (data : Option Bytes) (ho : Onward s₀ s) : Onward s₀
    (State.installBegin s data) := by
  unfold State.installBegin
  repeat' (first
    | with_reducible assumption
    | (with_reducible apply State.eraseBlocks_onward)
    | with_reducible apply Onward.foldl
    | refine Onward.of_snd (by assumption) ?_
    | split
    | (with_reducible refine Onward.mk_same rfl ?_
       first
       | with_reducible assumption
       | (with_reducible apply State.eraseBlocks_onward)
       | refine Onward.of_snd (by assumption) ?_)
    | intro _
    | extract_lets
    | dsimp (zeta := false) only
    | dsimp +zetaDelta only)

/-- A package that passes every check has a VERSION above the highest ever installed of its type (R386). -/
theorem State.pkgCheck_zero {s : State} {b : Bytes} (h : s.pkgCheck b = 0) :
    mapGet 0 s.code.highest (pkgType b) < pkgVersion b := by
  unfold State.pkgCheck at h
  dsimp only at h
  by_cases v : pkgVersion b ≤ mapGet 0 s.code.highest (pkgType b)
  · rw [if_pos v] at h
    repeat' (split at h)
    all_goals cases h
  · exact Nat.lt_of_not_le v

theorem State.installEnd_onward {s₀ s : State} (data : Option Bytes) (ok : Bool) (h : Onward s₀ s) :
    Onward s₀ (s.installEnd data ok) := by
  have he : ∀ (s : State) (res t : Nat), Onward s₀ s →
      Onward s₀ { s with code := { s.code with busy := false, result := res, type_ := t } } :=
    fun s res t h => h.same rfl
  unfold State.installEnd
  extract_lets
  split
  · exact he _ _ _ h
  · split
    · split
      · exact he _ _ _ h
      · rename_i b _ _ _ _ _ _ _
        refine h.upd (highest := fun i => ?_)
        show mapGet 0 s.code.highest i ≤ mapGet 0 (mapInsert s.code.highest (pkgType b) (pkgVersion b)) i
        by_cases e : i = pkgType b
        · subst e
          exact Nat.le_trans (Nat.le_of_lt (State.pkgCheck_zero ‹_›)) (by simp [mapGet])
        · simp [mapGet, mapFind_mapInsert_ne _ _ e]
    · exact he _ _ _ h

theorem execInstall_onward (data : Option Bytes) (ok : Bool) (now : Bool) {s : State} {t : State} (ho : execInstall
    data ok now s = .next t) : Onward s t := by
  unfold execInstall at ho
  injection ho with ho
  subst ho
  have ho := Onward.refl s
  repeat' (first
    | with_reducible assumption
    | (refine State.commandIs_onward (by assumption) ?_)
    | (with_reducible apply State.installBegin_onward)
    | (with_reducible apply State.stewardRead_onward)
    | (with_reducible apply State.installEnd_onward)
    | with_reducible apply Onward.foldl
    | refine Onward.of_snd (by assumption) ?_
    | split
    | (with_reducible refine Onward.mk_same rfl ?_
       first
       | with_reducible assumption
       | (refine State.commandIs_onward (by assumption) ?_)
       | (with_reducible apply State.installBegin_onward)
       | (with_reducible apply State.stewardRead_onward)
       | (with_reducible apply State.installEnd_onward)
       | refine Onward.of_snd (by assumption) ?_)
    | intro _
    | extract_lets
    | dsimp (zeta := false) only
    | dsimp +zetaDelta only)

theorem execRemovePackage_onward {s : State} {t : State} (ho : execRemovePackage s = .next t) : Onward s t := by
  unfold execRemovePackage at ho
  injection ho with ho
  subst ho
  have ho := Onward.refl s
  repeat' (first
      | with_reducible assumption | (refine State.commandIs_onward (by assumption) ?_) | split
      | with_reducible refine Onward.mk_same rfl ?_)

theorem State.loadPackage_onward {s₀ s : State} (t : Nat) (h : Onward s₀ s) : Onward s₀ (s.loadPackage t) := by
  have e : ∀ (b : Bytes) (l : List Section) (k : Code), (l.foldl (Code.loadSection b) k).highest = k.highest := by
    intro b l
    induction l with
    | nil => exact fun _ => rfl
    | cons c l ih =>
      intro k
      refine (ih _).trans ?_
      unfold Code.loadSection
      split <;> rfl
  unfold State.loadPackage
  split
  · exact h
  · split
    · refine h.upd (highest := fun i => ?_)
      dsimp only
      exact Nat.le_of_eq (by rw [e])
    · exact State.configEvent_onward _ _ _ h

theorem State.copyRegion_onward {s₀ : State} {s : State} (ho : Onward s₀ s) : Onward s₀ (State.copyRegion s) := by
  unfold State.copyRegion
  repeat' (first
    | with_reducible assumption
    | with_reducible apply Onward.foldl
    | refine Onward.of_snd (by assumption) ?_
    | split
    | (with_reducible refine Onward.mk_same rfl ?_
       first | with_reducible assumption | refine Onward.of_snd (by assumption) ?_)
    | intro _
    | extract_lets
    | dsimp (zeta := false) only
    | dsimp +zetaDelta only)

theorem State.audit_onward {s₀ : State} {s : State} (kind : Nat) (old : Nat) (new : Nat) (digest : Bytes) (ho :
    Onward s₀ s) : Onward s₀ (State.audit s kind old new digest) := by
  unfold State.audit
  extract_lets x0_ x1_ x2_ x3_ s4_ s5_
  have h_s4_ : Onward s₀ s4_ := by
    dsimp (zeta := false) only [s4_]
    repeat' (first
      | with_reducible assumption
      | (with_reducible apply State.copyRegion_onward)
      | (with_reducible apply State.event_onward)
      | with_reducible apply Onward.foldl
      | refine Onward.of_snd (by assumption) ?_
      | split
      | (with_reducible refine Onward.mk_same rfl ?_
         first
         | with_reducible assumption
         | (with_reducible apply State.copyRegion_onward)
         | (with_reducible apply State.event_onward)
         | refine Onward.of_snd (by assumption) ?_)
      | intro _
      | extract_lets
      | dsimp (zeta := false) only
      | dsimp +zetaDelta only)
  try clear_value s4_
  have h_s5_ : Onward s₀ s5_ := by
    dsimp (zeta := false) only [s5_]
    repeat' (first
      | with_reducible assumption
      | (with_reducible apply State.copyRegion_onward)
      | (with_reducible apply State.event_onward)
      | with_reducible apply Onward.foldl
      | refine Onward.of_snd (by assumption) ?_
      | split
      | (with_reducible refine Onward.mk_same rfl ?_
         first
         | with_reducible assumption
         | (with_reducible apply State.copyRegion_onward)
         | (with_reducible apply State.event_onward)
         | refine Onward.of_snd (by assumption) ?_)
      | intro _
      | extract_lets
      | dsimp (zeta := false) only
      | dsimp +zetaDelta only)
  try clear_value s5_
  repeat' (first
    | with_reducible assumption
    | (with_reducible apply State.copyRegion_onward)
    | (with_reducible apply State.event_onward)
    | with_reducible apply Onward.foldl
    | refine Onward.of_snd (by assumption) ?_
    | split
    | (with_reducible refine Onward.mk_same rfl ?_
       first
       | with_reducible assumption
       | (with_reducible apply State.copyRegion_onward)
       | (with_reducible apply State.event_onward)
       | refine Onward.of_snd (by assumption) ?_)
    | intro _
    | extract_lets
    | dsimp (zeta := false) only
    | dsimp +zetaDelta only)

theorem State.mpEnd_onward {s₀ : State} {s : State} (res : Nat) (ho : Onward s₀ s) : Onward s₀ (State.mpEnd s res)
    := by
  unfold State.mpEnd
  repeat' (first | with_reducible assumption | with_reducible refine Onward.mk_same rfl ?_)

theorem State.authorityEnd_onward {s₀ s : State} (data : Option Bytes) (ok : Bool) (h : Onward s₀ s) :
    Onward s₀ (s.authorityEnd data ok) := by
  unfold State.authorityEnd
  extract_lets
  split
  · exact State.mpEnd_onward _ h
  · split
    · split
      · exact State.mpEnd_onward _ h
      · split
        · exact State.mpEnd_onward _ h
        · exact (State.mpEnd_onward 0 h).same rfl
    · exact State.mpEnd_onward _ h

theorem State.tariffEnd_onward {s₀ : State} {s : State} (data : Option Bytes) (ok : Bool) (ho : Onward s₀ s) :
    Onward s₀ (State.tariffEnd s data ok) := by
  unfold State.tariffEnd
  extract_lets x0_ x1_ x2_ x3_ s4_
  have h_s4_ : Onward s₀ s4_ := by
    dsimp (zeta := false) only [s4_]
    repeat' (first | with_reducible assumption | with_reducible refine Onward.mk_same rfl ?_)
  try clear_value s4_
  repeat' (first
      | with_reducible assumption | with_reducible apply State.mpEnd_onward
      | with_reducible apply State.audit_onward | split)

theorem State.separateEnd_onward {s₀ s : State} (ok : Bool) (h : Onward s₀ s) : Onward s₀ (s.separateEnd ok) := by
  unfold State.separateEnd
  split
  · exact State.mpEnd_onward _ h
  · split
    · exact State.mpEnd_onward _ h
    · split
      · exact State.mpEnd_onward _ h
      · exact State.mpEnd_onward _ ((State.audit_onward 5 0 0 [] h).upd (sepFuse := fun _ => rfl))

theorem State.mpCommand_onward {s₀ : State} {s : State} (cmd : Nat) (now : Bool) (op : MpOp) (f : State → State) (hf
    : ∀ a0, Onward s₀ a0 → Onward s₀ (f a0)) (ho : Onward s₀ s) : Onward s₀ (State.mpCommand s cmd now op f) := by
  unfold State.mpCommand
  repeat' (first
    | with_reducible assumption
    | (refine State.commandIs_onward (by assumption) ?_)
    | (with_reducible apply State.stewardRead_onward)
    | (with_reducible apply hf)
    | with_reducible apply Onward.foldl
    | refine Onward.of_snd (by assumption) ?_
    | split
    | (with_reducible refine Onward.mk_same rfl ?_
       first
       | with_reducible assumption
       | (refine State.commandIs_onward (by assumption) ?_)
       | (with_reducible apply State.stewardRead_onward)
       | (with_reducible apply hf)
       | refine Onward.of_snd (by assumption) ?_)
    | intro _
    | extract_lets
    | dsimp (zeta := false) only
    | dsimp +zetaDelta only)

theorem execInstallAuthority_onward (data : Option Bytes) (ok : Bool) (now : Bool) {s : State} {t : State} (ho :
    execInstallAuthority data ok now s = .next t) : Onward s t := by
  unfold execInstallAuthority at ho
  injection ho with ho
  subst ho
  have ho := Onward.refl s
  repeat' (first
    | with_reducible assumption
    | (with_reducible apply State.mpCommand_onward)
    | (with_reducible apply State.authorityEnd_onward)
    | with_reducible apply Onward.foldl
    | refine Onward.of_snd (by assumption) ?_
    | split
    | (with_reducible refine Onward.mk_same rfl ?_
       first
       | with_reducible assumption
       | (with_reducible apply State.mpCommand_onward)
       | (with_reducible apply State.authorityEnd_onward)
       | refine Onward.of_snd (by assumption) ?_)
    | intro _
    | extract_lets
    | dsimp (zeta := false) only
    | dsimp +zetaDelta only)

theorem execLoadTariff_onward (data : Option Bytes) (ok : Bool) (now : Bool) {s : State} {t : State} (ho :
    execLoadTariff data ok now s = .next t) : Onward s t := by
  unfold execLoadTariff at ho
  injection ho with ho
  subst ho
  have ho := Onward.refl s
  repeat' (first
    | with_reducible assumption
    | (with_reducible apply State.mpCommand_onward)
    | (with_reducible apply State.tariffEnd_onward)
    | with_reducible apply Onward.foldl
    | refine Onward.of_snd (by assumption) ?_
    | split
    | (with_reducible refine Onward.mk_same rfl ?_
       first
       | with_reducible assumption
       | (with_reducible apply State.mpCommand_onward)
       | (with_reducible apply State.tariffEnd_onward)
       | refine Onward.of_snd (by assumption) ?_)
    | intro _
    | extract_lets
    | dsimp (zeta := false) only
    | dsimp +zetaDelta only)

theorem execSeparate_onward (ok : Bool) (now : Bool) {s : State} {t : State} (ho : execSeparate ok now s = .next t)
    : Onward s t := by
  unfold execSeparate at ho
  injection ho with ho
  subst ho
  have ho := Onward.refl s
  repeat' (first
    | with_reducible assumption
    | (with_reducible apply State.mpCommand_onward)
    | (with_reducible apply State.separateEnd_onward)
    | with_reducible apply Onward.foldl
    | refine Onward.of_snd (by assumption) ?_
    | split
    | (with_reducible refine Onward.mk_same rfl ?_
       first
       | with_reducible assumption
       | (with_reducible apply State.mpCommand_onward)
       | (with_reducible apply State.separateEnd_onward)
       | refine Onward.of_snd (by assumption) ?_)
    | intro _
    | extract_lets
    | dsimp (zeta := false) only
    | dsimp +zetaDelta only)

theorem State.activateMetrology_onward {s₀ : State} {s : State} (p : Package) (ho : Onward s₀ s) : Onward s₀
    (State.activateMetrology s p) := by
  unfold State.activateMetrology
  extract_lets x0_ s1_ s2_ x3_ x4_ s5_
  have h_s1_ : Onward s₀ s1_ := by
    dsimp (zeta := false) only [s1_]
    repeat' (first
      | with_reducible assumption
      | (with_reducible apply State.event_onward)
      | (with_reducible apply State.audit_onward)
      | (with_reducible apply State.switchPackage_onward)
      | with_reducible apply Onward.foldl
      | refine Onward.of_snd (by assumption) ?_
      | split
      | (with_reducible refine Onward.mk_same rfl ?_
         first
         | with_reducible assumption
         | (with_reducible apply State.event_onward)
         | (with_reducible apply State.audit_onward)
         | (with_reducible apply State.switchPackage_onward)
         | refine Onward.of_snd (by assumption) ?_)
      | intro _
      | extract_lets
      | dsimp (zeta := false) only
      | dsimp +zetaDelta only)
  try clear_value s1_
  have h_s2_ : Onward s₀ s2_ := by
    dsimp (zeta := false) only [s2_]
    repeat' (first
      | with_reducible assumption
      | (with_reducible apply State.event_onward)
      | (with_reducible apply State.audit_onward)
      | (with_reducible apply State.switchPackage_onward)
      | with_reducible apply Onward.foldl
      | refine Onward.of_snd (by assumption) ?_
      | split
      | (with_reducible refine Onward.mk_same rfl ?_
         first
         | with_reducible assumption
         | (with_reducible apply State.event_onward)
         | (with_reducible apply State.audit_onward)
         | (with_reducible apply State.switchPackage_onward)
         | refine Onward.of_snd (by assumption) ?_)
      | intro _
      | extract_lets
      | dsimp (zeta := false) only
      | dsimp +zetaDelta only)
  try clear_value s2_
  have h_s5_ : Onward s₀ s5_ := by
    dsimp (zeta := false) only [s5_]
    repeat' (first
      | with_reducible assumption
      | (with_reducible apply State.event_onward)
      | (with_reducible apply State.audit_onward)
      | (with_reducible apply State.switchPackage_onward)
      | with_reducible apply Onward.foldl
      | refine Onward.of_snd (by assumption) ?_
      | split
      | (with_reducible refine Onward.mk_same rfl ?_
         first
         | with_reducible assumption
         | (with_reducible apply State.event_onward)
         | (with_reducible apply State.audit_onward)
         | (with_reducible apply State.switchPackage_onward)
         | refine Onward.of_snd (by assumption) ?_)
      | intro _
      | extract_lets
      | dsimp (zeta := false) only
      | dsimp +zetaDelta only)
  try clear_value s5_
  repeat' (first
    | with_reducible assumption
    | (with_reducible apply State.event_onward)
    | (with_reducible apply State.audit_onward)
    | (with_reducible apply State.switchPackage_onward)
    | with_reducible apply Onward.foldl
    | refine Onward.of_snd (by assumption) ?_
    | split
    | (with_reducible refine Onward.mk_same rfl ?_
       first
       | with_reducible assumption
       | (with_reducible apply State.event_onward)
       | (with_reducible apply State.audit_onward)
       | (with_reducible apply State.switchPackage_onward)
       | refine Onward.of_snd (by assumption) ?_)
    | intro _
    | extract_lets
    | dsimp (zeta := false) only
    | dsimp +zetaDelta only)

theorem State.activatePackages_onward {s₀ : State} {s : State} (ho : Onward s₀ s) : Onward s₀
    (State.activatePackages s) := by
  unfold State.activatePackages
  extract_lets s0_ s1_ s2_ x3_
  have h_s0_ : Onward s₀ s0_ := by
    dsimp (zeta := false) only [s0_]
    repeat' (first
      | with_reducible assumption
      | (with_reducible apply State.switchPackage_onward)
      | (with_reducible apply State.activateMetrology_onward)
      | (with_reducible apply State.erasePackages_onward)
      | with_reducible apply Onward.foldl
      | refine Onward.of_snd (by assumption) ?_
      | split
      | (with_reducible refine Onward.mk_same rfl ?_
         first
         | with_reducible assumption
         | (with_reducible apply State.switchPackage_onward)
         | (with_reducible apply State.activateMetrology_onward)
         | (with_reducible apply State.erasePackages_onward)
         | refine Onward.of_snd (by assumption) ?_)
      | intro _
      | extract_lets
      | dsimp (zeta := false) only
      | dsimp +zetaDelta only)
  try clear_value s0_
  have h_s1_ : Onward s₀ s1_ := by
    dsimp (zeta := false) only [s1_]
    repeat' (first
      | with_reducible assumption
      | (with_reducible apply State.switchPackage_onward)
      | (with_reducible apply State.activateMetrology_onward)
      | (with_reducible apply State.erasePackages_onward)
      | with_reducible apply Onward.foldl
      | refine Onward.of_snd (by assumption) ?_
      | split
      | (with_reducible refine Onward.mk_same rfl ?_
         first
         | with_reducible assumption
         | (with_reducible apply State.switchPackage_onward)
         | (with_reducible apply State.activateMetrology_onward)
         | (with_reducible apply State.erasePackages_onward)
         | refine Onward.of_snd (by assumption) ?_)
      | intro _
      | extract_lets
      | dsimp (zeta := false) only
      | dsimp +zetaDelta only)
  try clear_value s1_
  have h_s2_ : Onward s₀ s2_ := by
    dsimp (zeta := false) only [s2_]
    repeat' (first
      | with_reducible assumption
      | (with_reducible apply State.switchPackage_onward)
      | (with_reducible apply State.activateMetrology_onward)
      | (with_reducible apply State.erasePackages_onward)
      | with_reducible apply Onward.foldl
      | refine Onward.of_snd (by assumption) ?_
      | split
      | (with_reducible refine Onward.mk_same rfl ?_
         first
         | with_reducible assumption
         | (with_reducible apply State.switchPackage_onward)
         | (with_reducible apply State.activateMetrology_onward)
         | (with_reducible apply State.erasePackages_onward)
         | refine Onward.of_snd (by assumption) ?_)
      | intro _
      | extract_lets
      | dsimp (zeta := false) only
      | dsimp +zetaDelta only)
  try clear_value s2_
  repeat' (first
    | with_reducible assumption
    | (with_reducible apply State.switchPackage_onward)
    | (with_reducible apply State.activateMetrology_onward)
    | (with_reducible apply State.erasePackages_onward)
    | with_reducible apply Onward.foldl
    | refine Onward.of_snd (by assumption) ?_
    | split
    | (with_reducible refine Onward.mk_same rfl ?_
       first
       | with_reducible assumption
       | (with_reducible apply State.switchPackage_onward)
       | (with_reducible apply State.activateMetrology_onward)
       | (with_reducible apply State.erasePackages_onward)
       | refine Onward.of_snd (by assumption) ?_)
    | intro _
    | extract_lets
    | dsimp (zeta := false) only
    | dsimp +zetaDelta only)

theorem State.openPartition_onward {s₀ : State} {s : State} (ho : Onward s₀ s) : Onward s₀ (State.openPartition s)
    := by
  unfold State.openPartition
  repeat' (first | with_reducible assumption | split | with_reducible refine Onward.mk_same rfl ?_)

theorem State.statementKey_onward {s₀ : State} {s : State} (ho : Onward s₀ s) : Onward s₀ (State.statementKey s) := by
  unfold State.statementKey
  repeat' (first
    | with_reducible assumption
    | (with_reducible apply State.generate_onward)
    | (with_reducible apply State.newKeyId_onward)
    | (with_reducible apply State.audit_onward)
    | with_reducible apply Onward.foldl
    | refine Onward.of_snd (by assumption) ?_
    | split
    | (with_reducible refine Onward.mk_same rfl ?_
       first
       | with_reducible assumption
       | (with_reducible apply State.generate_onward)
       | (with_reducible apply State.newKeyId_onward)
       | (with_reducible apply State.audit_onward)
       | refine Onward.of_snd (by assumption) ?_)
    | intro _
    | extract_lets
    | dsimp (zeta := false) only
    | dsimp +zetaDelta only)

theorem State.startCounter_onward {s₀ s : State} (ho : Onward s₀ s) : Onward s₀ s.startCounter := by
  unfold State.startCounter
  split
  · have h1 := State.copyRegion_onward ho
    generalize s.copyRegion = u at h1 ⊢
    exact h1.same rfl
  · exact ho

theorem State.carryOutSeparation_onward {s₀ s : State} (ho : Onward s₀ s) : Onward s₀ s.carryOutSeparation := by
  unfold State.carryOutSeparation
  split
  · exact ho
  · extract_lets +onlyGivenNames s1 s2
    have h1 : Onward s₀ s1 :=
      Onward.foldl (fun u a hu => State.flushRing_onward (State.event_onward _ _ _ _ _ _ hu)) ho
    clear_value s1
    have h2 : Onward s₀ s2 := State.erasePackages_onward _ h1
    clear_value s2
    exact h2.upd (sepFuse := fun _ => rfl)

/-- Cycles pass: no clock runs back, and every sub-counter stays within its width. -/
theorem State.advance_onward {s₀ s : State} (k : Nat) (h : Onward s₀ s) : Onward s₀ (s.advance k) := by
  unfold State.advance
  extract_lets d total el op
  refine h.upd (elapsed := Nat.le_add_right ..) (op := ?_) (frac := fun _ => Nat.mod_lt _ (by decide))
    (opNs := fun _ => Nat.mod_lt _ (by decide)) (counter := fun _ => Nat.mod_lt _ (by decide))
  show _ ≤ (s.pwr.opSec + op / 1000000000) * 1000000000 + op % 1000000000
  have := Nat.div_add_mod op 1000000000
  have : s.pwr.opNs ≤ op := Nat.le_add_right ..
  omega

theorem State.tickFlags_onward {s₀ : State} {s : State} (n : Nat) (ho : Onward s₀ s) : Onward s₀ (State.tickFlags s
    n) := by
  unfold State.tickFlags
  repeat' (first | with_reducible assumption | with_reducible apply State.onSlice_onward)

theorem State.notBeforeOne_onward {s₀ : State} {s : State} (j : Nat) (ho : Onward s₀ s) : Onward s₀
    (State.notBeforeOne s j) := by
  unfold State.notBeforeOne
  repeat' (first | with_reducible assumption | with_reducible apply State.onJob_onward)

theorem State.waitOne_onward {s₀ : State} {s : State} (j : Nat) (ho : Onward s₀ s) : Onward s₀ (State.waitOne s j)
    := by
  unfold State.waitOne
  repeat' (first | with_reducible assumption | with_reducible apply State.onJob_onward)

theorem State.expireOne_onward {s₀ : State} {s : State} (j : Nat) (ho : Onward s₀ s) : Onward s₀ (State.expireOne s
    j) := by
  unfold State.expireOne
  repeat' (first
      | with_reducible assumption | with_reducible apply State.finish_onward
      | with_reducible apply State.putJob_onward | split)

theorem State.nvmTick_onward {s₀ : State} {s : State} (ho : Onward s₀ s) : Onward s₀ (State.nvmTick s) := by
  unfold State.nvmTick
  repeat' (first
      | with_reducible assumption | with_reducible apply State.storeStep_onward
      | with_reducible apply State.eraseImages_onward | with_reducible apply State.endOwner_onward
      | with_reducible apply State.installEnd_onward | with_reducible apply State.authorityEnd_onward
      | with_reducible apply State.tariffEnd_onward | with_reducible apply State.separateEnd_onward | split
      | with_reducible refine Onward.mk_same rfl ?_)

theorem State.tickWork_onward {s₀ : State} {s : State} (ho : Onward s₀ s) : Onward s₀ (State.tickWork s) := by
  unfold State.tickWork
  extract_lets x0_ x1_ s2_ x3_ x4_ s5_ s6_ x7_ s8_ s9_
  have h_s2_ : Onward s₀ s2_ := by
    dsimp (zeta := false) only [s2_]
    repeat' (first
      | with_reducible assumption
      | (with_reducible apply State.commitDue_onward)
      | (with_reducible apply State.tickFlags_onward)
      | (with_reducible apply State.endTests_onward)
      | (with_reducible apply State.eachJob_onward)
      | (with_reducible apply State.notBeforeOne_onward)
      | (with_reducible apply State.waitOne_onward)
      | (with_reducible apply State.expireOne_onward)
      | (with_reducible apply State.passHeld_onward)
      | with_reducible apply Onward.foldl
      | refine Onward.of_snd (by assumption) ?_
      | split
      | (with_reducible refine Onward.mk_same rfl ?_
         first
         | with_reducible assumption
         | (with_reducible apply State.commitDue_onward)
         | (with_reducible apply State.tickFlags_onward)
         | (with_reducible apply State.endTests_onward)
         | (with_reducible apply State.eachJob_onward)
         | (with_reducible apply State.notBeforeOne_onward)
         | (with_reducible apply State.waitOne_onward)
         | (with_reducible apply State.expireOne_onward)
         | (with_reducible apply State.passHeld_onward)
         | refine Onward.of_snd (by assumption) ?_)
      | intro _
      | extract_lets
      | dsimp (zeta := false) only
      | dsimp +zetaDelta only)
  try clear_value s2_
  have h_s5_ : Onward s₀ s5_ := by
    dsimp (zeta := false) only [s5_]
    repeat' (first
      | with_reducible assumption
      | (with_reducible apply State.commitDue_onward)
      | (with_reducible apply State.tickFlags_onward)
      | (with_reducible apply State.endTests_onward)
      | (with_reducible apply State.eachJob_onward)
      | (with_reducible apply State.notBeforeOne_onward)
      | (with_reducible apply State.waitOne_onward)
      | (with_reducible apply State.expireOne_onward)
      | (with_reducible apply State.passHeld_onward)
      | with_reducible apply Onward.foldl
      | refine Onward.of_snd (by assumption) ?_
      | split
      | (with_reducible refine Onward.mk_same rfl ?_
         first
         | with_reducible assumption
         | (with_reducible apply State.commitDue_onward)
         | (with_reducible apply State.tickFlags_onward)
         | (with_reducible apply State.endTests_onward)
         | (with_reducible apply State.eachJob_onward)
         | (with_reducible apply State.notBeforeOne_onward)
         | (with_reducible apply State.waitOne_onward)
         | (with_reducible apply State.expireOne_onward)
         | (with_reducible apply State.passHeld_onward)
         | refine Onward.of_snd (by assumption) ?_)
      | intro _
      | extract_lets
      | dsimp (zeta := false) only
      | dsimp +zetaDelta only)
  try clear_value s5_
  have h_s6_ : Onward s₀ s6_ := by
    dsimp (zeta := false) only [s6_]
    repeat' (first
      | with_reducible assumption
      | (with_reducible apply State.commitDue_onward)
      | (with_reducible apply State.tickFlags_onward)
      | (with_reducible apply State.endTests_onward)
      | (with_reducible apply State.eachJob_onward)
      | (with_reducible apply State.notBeforeOne_onward)
      | (with_reducible apply State.waitOne_onward)
      | (with_reducible apply State.expireOne_onward)
      | (with_reducible apply State.passHeld_onward)
      | with_reducible apply Onward.foldl
      | refine Onward.of_snd (by assumption) ?_
      | split
      | (with_reducible refine Onward.mk_same rfl ?_
         first
         | with_reducible assumption
         | (with_reducible apply State.commitDue_onward)
         | (with_reducible apply State.tickFlags_onward)
         | (with_reducible apply State.endTests_onward)
         | (with_reducible apply State.eachJob_onward)
         | (with_reducible apply State.notBeforeOne_onward)
         | (with_reducible apply State.waitOne_onward)
         | (with_reducible apply State.expireOne_onward)
         | (with_reducible apply State.passHeld_onward)
         | refine Onward.of_snd (by assumption) ?_)
      | intro _
      | extract_lets
      | dsimp (zeta := false) only
      | dsimp +zetaDelta only)
  try clear_value s6_
  have h_s8_ : Onward s₀ s8_ := by
    dsimp (zeta := false) only [s8_]
    repeat' (first
      | with_reducible assumption
      | (with_reducible apply State.commitDue_onward)
      | (with_reducible apply State.tickFlags_onward)
      | (with_reducible apply State.endTests_onward)
      | (with_reducible apply State.eachJob_onward)
      | (with_reducible apply State.notBeforeOne_onward)
      | (with_reducible apply State.waitOne_onward)
      | (with_reducible apply State.expireOne_onward)
      | (with_reducible apply State.passHeld_onward)
      | with_reducible apply Onward.foldl
      | refine Onward.of_snd (by assumption) ?_
      | split
      | (with_reducible refine Onward.mk_same rfl ?_
         first
         | with_reducible assumption
         | (with_reducible apply State.commitDue_onward)
         | (with_reducible apply State.tickFlags_onward)
         | (with_reducible apply State.endTests_onward)
         | (with_reducible apply State.eachJob_onward)
         | (with_reducible apply State.notBeforeOne_onward)
         | (with_reducible apply State.waitOne_onward)
         | (with_reducible apply State.expireOne_onward)
         | (with_reducible apply State.passHeld_onward)
         | refine Onward.of_snd (by assumption) ?_)
      | intro _
      | extract_lets
      | dsimp (zeta := false) only
      | dsimp +zetaDelta only)
  try clear_value s8_
  have h_s9_ : Onward s₀ s9_ := by
    dsimp (zeta := false) only [s9_]
    repeat' (first
      | with_reducible assumption
      | (with_reducible apply State.commitDue_onward)
      | (with_reducible apply State.tickFlags_onward)
      | (with_reducible apply State.endTests_onward)
      | (with_reducible apply State.eachJob_onward)
      | (with_reducible apply State.notBeforeOne_onward)
      | (with_reducible apply State.waitOne_onward)
      | (with_reducible apply State.expireOne_onward)
      | (with_reducible apply State.passHeld_onward)
      | with_reducible apply Onward.foldl
      | refine Onward.of_snd (by assumption) ?_
      | split
      | (with_reducible refine Onward.mk_same rfl ?_
         first
         | with_reducible assumption
         | (with_reducible apply State.commitDue_onward)
         | (with_reducible apply State.tickFlags_onward)
         | (with_reducible apply State.endTests_onward)
         | (with_reducible apply State.eachJob_onward)
         | (with_reducible apply State.notBeforeOne_onward)
         | (with_reducible apply State.waitOne_onward)
         | (with_reducible apply State.expireOne_onward)
         | (with_reducible apply State.passHeld_onward)
         | refine Onward.of_snd (by assumption) ?_)
      | intro _
      | extract_lets
      | dsimp (zeta := false) only
      | dsimp +zetaDelta only)
  try clear_value s9_
  repeat' (first
    | with_reducible assumption
    | (with_reducible apply State.commitDue_onward)
    | (with_reducible apply State.tickFlags_onward)
    | (with_reducible apply State.endTests_onward)
    | (with_reducible apply State.eachJob_onward)
    | (with_reducible apply State.notBeforeOne_onward)
    | (with_reducible apply State.waitOne_onward)
    | (with_reducible apply State.expireOne_onward)
    | (with_reducible apply State.passHeld_onward)
    | with_reducible apply Onward.foldl
    | refine Onward.of_snd (by assumption) ?_
    | split
    | (with_reducible refine Onward.mk_same rfl ?_
       first
       | with_reducible assumption
       | (with_reducible apply State.commitDue_onward)
       | (with_reducible apply State.tickFlags_onward)
       | (with_reducible apply State.endTests_onward)
       | (with_reducible apply State.eachJob_onward)
       | (with_reducible apply State.notBeforeOne_onward)
       | (with_reducible apply State.waitOne_onward)
       | (with_reducible apply State.expireOne_onward)
       | (with_reducible apply State.passHeld_onward)
       | refine Onward.of_snd (by assumption) ?_)
    | intro _
    | extract_lets
    | dsimp (zeta := false) only
    | dsimp +zetaDelta only)

theorem State.tick_onward {s₀ : State} {s : State} (ho : Onward s₀ s) : Onward s₀ (State.tick s) := by
  unfold State.tick
  extract_lets s0_ x1_
  have h_s0_ : Onward s₀ s0_ := by
    dsimp (zeta := false) only [s0_]
    repeat' (first | with_reducible assumption | with_reducible apply State.wakeUp_onward | split)
  try clear_value s0_
  repeat' (first
      | with_reducible assumption | with_reducible apply State.tickWork_onward | split
      | with_reducible refine Onward.mk_same rfl ?_)

theorem State.endBuild_onward {s₀ : State} {s : State} (e : Nat) (ho : Onward s₀ s) : Onward s₀ (State.endBuild s e)
    := by
  unfold State.endBuild
  repeat' (first
    | with_reducible assumption
    | (with_reducible apply State.onEngine_onward)
    | (with_reducible apply State.writePlace_onward)
    | (with_reducible apply State.onRecord_onward)
    | (with_reducible apply State.onSlice_onward)
    | with_reducible apply Onward.foldl
    | refine Onward.of_snd (by assumption) ?_
    | split
    | (with_reducible refine Onward.mk_same rfl ?_
       first
       | with_reducible assumption
       | (with_reducible apply State.onEngine_onward)
       | (with_reducible apply State.writePlace_onward)
       | (with_reducible apply State.onRecord_onward)
       | (with_reducible apply State.onSlice_onward)
       | refine Onward.of_snd (by assumption) ?_)
    | intro _
    | extract_lets
    | dsimp (zeta := false) only
    | dsimp +zetaDelta only)

theorem State.endLend_onward {s₀ : State} {s : State} (h : Nat) (ho : Onward s₀ s) : Onward s₀ (State.endLend s h)
    := by
  unfold State.endLend
  repeat' (first
    | with_reducible assumption
    | (with_reducible apply State.onVce_onward)
    | (with_reducible apply State.onEngine_onward)
    | with_reducible apply Onward.foldl
    | refine Onward.of_snd (by assumption) ?_
    | split
    | (with_reducible refine Onward.mk_same rfl ?_
       first
       | with_reducible assumption
       | (with_reducible apply State.onVce_onward)
       | (with_reducible apply State.onEngine_onward)
       | refine Onward.of_snd (by assumption) ?_)
    | intro _
    | extract_lets
    | dsimp (zeta := false) only
    | dsimp +zetaDelta only)

theorem State.endRestore_onward {s₀ : State} {s : State} (e : Nat) (ho : Onward s₀ s) : Onward s₀ (State.endRestore
    s e) := by
  unfold State.endRestore
  extract_lets x0_ s1_
  have h_s1_ : Onward s₀ s1_ := by
    dsimp (zeta := false) only [s1_]
    repeat' (first
      | with_reducible assumption
      | (with_reducible apply State.onEngine_onward)
      | (with_reducible apply State.onVce_onward)
      | with_reducible apply Onward.foldl
      | refine Onward.of_snd (by assumption) ?_
      | split
      | (with_reducible refine Onward.mk_same rfl ?_
         first
         | with_reducible assumption
         | (with_reducible apply State.onEngine_onward)
         | (with_reducible apply State.onVce_onward)
         | refine Onward.of_snd (by assumption) ?_)
      | intro _
      | extract_lets
      | dsimp (zeta := false) only
      | dsimp +zetaDelta only)
  try clear_value s1_
  repeat' (first
    | with_reducible assumption
    | (with_reducible apply State.onEngine_onward)
    | (with_reducible apply State.onVce_onward)
    | with_reducible apply Onward.foldl
    | refine Onward.of_snd (by assumption) ?_
    | split
    | (with_reducible refine Onward.mk_same rfl ?_
       first
       | with_reducible assumption
       | (with_reducible apply State.onEngine_onward)
       | (with_reducible apply State.onVce_onward)
       | refine Onward.of_snd (by assumption) ?_)
    | intro _
    | extract_lets
    | dsimp (zeta := false) only
    | dsimp +zetaDelta only)

theorem State.elapse_onward {s₀ : State} {s : State} (k : Nat) (ho : Onward s₀ s) : Onward s₀ (State.elapse s k) := by
  unfold State.elapse
  extract_lets x0_ s1_
  have h_s1_ : Onward s₀ s1_ := by
    dsimp (zeta := false) only [s1_]
    repeat' (first
      | with_reducible assumption
      | (with_reducible apply State.endRestore_onward)
      | (with_reducible apply State.endLend_onward)
      | (with_reducible apply State.endBuild_onward)
      | (with_reducible apply State.advance_onward)
      | (with_reducible apply State.admitDue_onward)
      | (with_reducible apply State.retireDrained_onward)
      | with_reducible apply Onward.foldl
      | refine Onward.of_snd (by assumption) ?_
      | split
      | (with_reducible refine Onward.mk_same rfl ?_
         first
         | with_reducible assumption
         | (with_reducible apply State.endRestore_onward)
         | (with_reducible apply State.endLend_onward)
         | (with_reducible apply State.endBuild_onward)
         | (with_reducible apply State.advance_onward)
         | (with_reducible apply State.admitDue_onward)
         | (with_reducible apply State.retireDrained_onward)
         | refine Onward.of_snd (by assumption) ?_)
      | intro _
      | extract_lets
      | dsimp (zeta := false) only
      | dsimp +zetaDelta only)
  try clear_value s1_
  repeat' (first
    | with_reducible assumption
    | (with_reducible apply State.endRestore_onward)
    | (with_reducible apply State.endLend_onward)
    | (with_reducible apply State.endBuild_onward)
    | (with_reducible apply State.advance_onward)
    | (with_reducible apply State.admitDue_onward)
    | (with_reducible apply State.retireDrained_onward)
    | with_reducible apply Onward.foldl
    | refine Onward.of_snd (by assumption) ?_
    | split
    | (with_reducible refine Onward.mk_same rfl ?_
       first
       | with_reducible assumption
       | (with_reducible apply State.endRestore_onward)
       | (with_reducible apply State.endLend_onward)
       | (with_reducible apply State.endBuild_onward)
       | (with_reducible apply State.advance_onward)
       | (with_reducible apply State.admitDue_onward)
       | (with_reducible apply State.retireDrained_onward)
       | refine Onward.of_snd (by assumption) ?_)
    | intro _
    | extract_lets
    | dsimp (zeta := false) only
    | dsimp +zetaDelta only)

theorem execNotBeforeReached_onward (j : Nat) {s : State} {t : State} (ho : execNotBeforeReached j s = .next t) :
    Onward s t := by
  unfold execNotBeforeReached at ho
  injection ho with ho
  subst ho
  have ho := Onward.refl s
  repeat' (first
    | with_reducible assumption
    | (with_reducible apply State.passOne_onward)
    | (with_reducible apply State.notBeforeOne_onward)
    | with_reducible apply Onward.foldl
    | refine Onward.of_snd (by assumption) ?_
    | split
    | (with_reducible refine Onward.mk_same rfl ?_
       first
       | with_reducible assumption
       | (with_reducible apply State.passOne_onward)
       | (with_reducible apply State.notBeforeOne_onward)
       | refine Onward.of_snd (by assumption) ?_)
    | intro _
    | extract_lets
    | dsimp (zeta := false) only
    | dsimp +zetaDelta only)

theorem execExpiryTick_onward (j : Nat) {s : State} {t : State} (ho : execExpiryTick j s = .next t) : Onward s t := by
  unfold execExpiryTick at ho
  injection ho with ho
  subst ho
  have ho := Onward.refl s
  repeat' (first
    | with_reducible assumption
    | (with_reducible apply State.expireOne_onward)
    | with_reducible apply Onward.foldl
    | refine Onward.of_snd (by assumption) ?_
    | split
    | (with_reducible refine Onward.mk_same rfl ?_
       first
       | with_reducible assumption
       | (with_reducible apply State.expireOne_onward)
       | refine Onward.of_snd (by assumption) ?_)
    | intro _
    | extract_lets
    | dsimp (zeta := false) only
    | dsimp +zetaDelta only)

theorem State.newWindow_onward {s₀ : State} {s : State} (ho : Onward s₀ s) : Onward s₀ (State.newWindow s) := by
  unfold State.newWindow
  extract_lets x0_ s1_ x2_
  have h_s1_ : Onward s₀ s1_ := by
    dsimp (zeta := false) only [s1_]
    repeat' (first
        | with_reducible assumption | with_reducible apply State.onSlice_onward | with_reducible apply Onward.foldl
        | intro _)
  try clear_value s1_
  repeat' (first | with_reducible assumption | with_reducible refine Onward.mk_same rfl ?_)

theorem execAccountingWindowStart_onward {s : State} {t : State} (ho : execAccountingWindowStart s = .next t) :
    Onward s t := by
  unfold execAccountingWindowStart at ho
  injection ho with ho
  subst ho
  have ho := Onward.refl s
  repeat' (first | with_reducible assumption | with_reducible apply State.newWindow_onward | split)

theorem State.writeAnchor_onward {s₀ : State} {s : State} (ho : Onward s₀ s) : Onward s₀ (State.writeAnchor s) := by
  unfold State.writeAnchor
  repeat' (first | with_reducible assumption | with_reducible refine Onward.mk_same rfl ?_)

theorem execAnchorWrite_onward {s : State} {t : State} (ho : execAnchorWrite s = .next t) : Onward s t := by
  unfold execAnchorWrite at ho
  injection ho with ho
  subst ho
  have ho := Onward.refl s
  repeat' (first | with_reducible assumption | with_reducible apply State.writeAnchor_onward | split)

theorem State.dozes_onward {s₀ : State} {s : State} (ho : Onward s₀ s) : Onward s₀ (State.dozes s) := by
  unfold State.dozes
  repeat' (first | with_reducible assumption | split | with_reducible refine Onward.mk_same rfl ?_)

theorem State.nextTick_onward {s₀ : State} {s : State} (ho : Onward s₀ s) : Onward s₀ (State.nextTick s) := by
  unfold State.nextTick
  extract_lets s0_ s1_
  have h_s0_ : Onward s₀ s0_ := by
    dsimp (zeta := false) only [s0_]
    repeat' (first
      | with_reducible assumption
      | (with_reducible apply State.dozes_onward)
      | (with_reducible apply State.tick_onward)
      | (with_reducible apply State.elapse_onward)
      | (with_reducible apply State.nvmTick_onward)
      | (with_reducible apply State.purgeStep_onward)
      | (with_reducible apply State.writeAnchor_onward)
      | with_reducible apply Onward.foldl
      | refine Onward.of_snd (by assumption) ?_
      | split
      | (with_reducible refine Onward.mk_same rfl ?_
         first
         | with_reducible assumption
         | (with_reducible apply State.dozes_onward)
         | (with_reducible apply State.tick_onward)
         | (with_reducible apply State.elapse_onward)
         | (with_reducible apply State.nvmTick_onward)
         | (with_reducible apply State.purgeStep_onward)
         | (with_reducible apply State.writeAnchor_onward)
         | refine Onward.of_snd (by assumption) ?_)
      | intro _
      | extract_lets
      | dsimp (zeta := false) only
      | dsimp +zetaDelta only)
  try clear_value s0_
  have h_s1_ : Onward s₀ s1_ := by
    dsimp (zeta := false) only [s1_]
    repeat' (first
      | with_reducible assumption
      | (with_reducible apply State.dozes_onward)
      | (with_reducible apply State.tick_onward)
      | (with_reducible apply State.elapse_onward)
      | (with_reducible apply State.nvmTick_onward)
      | (with_reducible apply State.purgeStep_onward)
      | (with_reducible apply State.writeAnchor_onward)
      | with_reducible apply Onward.foldl
      | refine Onward.of_snd (by assumption) ?_
      | split
      | (with_reducible refine Onward.mk_same rfl ?_
         first
         | with_reducible assumption
         | (with_reducible apply State.dozes_onward)
         | (with_reducible apply State.tick_onward)
         | (with_reducible apply State.elapse_onward)
         | (with_reducible apply State.nvmTick_onward)
         | (with_reducible apply State.purgeStep_onward)
         | (with_reducible apply State.writeAnchor_onward)
         | refine Onward.of_snd (by assumption) ?_)
      | intro _
      | extract_lets
      | dsimp (zeta := false) only
      | dsimp +zetaDelta only)
  try clear_value s1_
  repeat' (first
    | with_reducible assumption
    | (with_reducible apply State.dozes_onward)
    | (with_reducible apply State.tick_onward)
    | (with_reducible apply State.elapse_onward)
    | (with_reducible apply State.nvmTick_onward)
    | (with_reducible apply State.purgeStep_onward)
    | (with_reducible apply State.writeAnchor_onward)
    | with_reducible apply Onward.foldl
    | refine Onward.of_snd (by assumption) ?_
    | split
    | (with_reducible refine Onward.mk_same rfl ?_
       first
       | with_reducible assumption
       | (with_reducible apply State.dozes_onward)
       | (with_reducible apply State.tick_onward)
       | (with_reducible apply State.elapse_onward)
       | (with_reducible apply State.nvmTick_onward)
       | (with_reducible apply State.purgeStep_onward)
       | (with_reducible apply State.writeAnchor_onward)
       | refine Onward.of_snd (by assumption) ?_)
    | intro _
    | extract_lets
    | dsimp (zeta := false) only
    | dsimp +zetaDelta only)

theorem execStationTick_onward {s : State} {t : State} (ho : execStationTick s = .next t) : Onward s t := by
  unfold execStationTick at ho
  injection ho with ho
  subst ho
  have ho := Onward.refl s
  repeat' (first | with_reducible assumption | with_reducible apply State.nextTick_onward | split)

theorem State.cycle_onward {s₀ s : State} (ho : Onward s₀ s) : Onward s₀ s.cycle := by
  unfold State.cycle
  split
  · extract_lets +onlyGivenNames old s1
    have h1 : Onward s₀ s1 := State.elapse_onward _ ho
    clear_value s1
    split
    · exact h1
    · extract_lets +onlyGivenNames s2
      have h2 : Onward s₀ s2 :=
        State.nvmTick_onward (State.purgeStep_onward (State.dozes_onward (State.tick_onward h1)))
      clear_value s2
      split
      · exact State.writeAnchor_onward h2
      · exact h2
  · split
    · exact ho.upd (counter := fun _ => Nat.mod_lt _ (by decide))
    · exact ho

theorem State.timeState_onward {s₀ : State} {s : State} (st : TimeSt) (ho : Onward s₀ s) : Onward s₀
    (State.timeState s st) := by
  unfold State.timeState
  extract_lets x0_ x1_ s2_
  have h_s2_ : Onward s₀ s2_ := by
    dsimp (zeta := false) only [s2_]
    repeat' (first | with_reducible assumption | with_reducible refine Onward.mk_same rfl ?_)
  try clear_value s2_
  repeat' (first | with_reducible assumption | with_reducible apply State.event_onward | split)

theorem State.setFreq_onward {s₀ : State} {s : State} (f : Int) (ho : Onward s₀ s) : Onward s₀ (State.setFreq s f)
    := by
  unfold State.setFreq
  extract_lets x0_ x1_ x2_ x3_ x4_ s5_
  have h_s5_ : Onward s₀ s5_ := by
    dsimp (zeta := false) only [s5_]
    repeat' (first | with_reducible assumption | with_reducible refine Onward.mk_same rfl ?_)
  try clear_value s5_
  repeat' (first | with_reducible assumption | with_reducible apply State.event_onward | split)

theorem State.stepTime_onward {s₀ s : State} (new : Nat) (h : Onward s₀ s) : Onward s₀ (s.stepTime new) := by
  unfold State.stepTime
  extract_lets old x1 x2 s1 s2 s3
  have h1 : Onward s₀ s1 := by
    refine h.upd (frac := fun _ => Nat.two_pow_pos _) (jobs := fun g => ?_)
    dsimp only [s1]
    exact ⟨keysRise_mapAll _ _ g.jobs, fun e he => (key_of_mem_mapAll he).elim fun v hv => g.numbers (e.1, v) hv⟩
  clear_value s1
  have h2 : Onward s₀ s2 := State.endGrant_onward _ (State.event_onward _ _ _ _ _ _ h1)
  clear_value s2
  have h3 : Onward s₀ s3 := by
    dsimp only [s3]
    split
    · exact State.tick_onward h2
    · exact h2
  clear_value s3
  split
  · exact State.writeAnchor_onward h3
  · exact h3

theorem State.loadTime_onward {s₀ : State} {s : State} (hi : Word) (ho : Onward s₀ s) : Onward s₀ (State.loadTime s
    hi) := by
  unfold State.loadTime
  extract_lets x0_ x1_ s2_ s3_ x4_ s5_ x6_
  have h_s2_ : Onward s₀ s2_ := by
    dsimp (zeta := false) only [s2_]
    repeat' (first | with_reducible assumption | with_reducible apply State.setPair_onward)
  try clear_value s2_
  have h_s3_ : Onward s₀ s3_ := by
    dsimp (zeta := false) only [s3_]
    repeat' (first | with_reducible assumption | with_reducible refine Onward.mk_same rfl ?_)
  try clear_value s3_
  have h_s5_ : Onward s₀ s5_ := by
    dsimp (zeta := false) only [s5_]
    repeat' (first | with_reducible assumption | with_reducible refine Onward.mk_same rfl ?_)
  try clear_value s5_
  repeat' (first
      | with_reducible assumption | with_reducible apply State.timeState_onward
      | with_reducible apply State.stepTime_onward | split | with_reducible refine Onward.mk_same rfl ?_)

theorem execTimeLoad_onward (hi : Word) {s : State} {t : State} (ho : execTimeLoad hi s = .next t) : Onward s t := by
  unfold execTimeLoad at ho
  injection ho with ho
  subst ho
  have ho := Onward.refl s
  repeat' (first
      | with_reducible assumption | with_reducible apply State.gate_onward
      | with_reducible apply State.loadTime_onward | intro _)

theorem execLoadExpired_onward {s : State} {t : State} (ho : execLoadExpired s = .next t) : Onward s t := by
  unfold execLoadExpired at ho
  injection ho with ho
  subst ho
  have ho := Onward.refl s
  repeat' (first
      | with_reducible assumption | with_reducible apply State.event_onward | split
      | with_reducible refine Onward.mk_same rfl ?_)

theorem execHoldoverEntry_onward {s : State} {t : State} (ho : execHoldoverEntry s = .next t) : Onward s t := by
  unfold execHoldoverEntry at ho
  injection ho with ho
  subst ho
  have ho := Onward.refl s
  repeat' (first | with_reducible assumption | with_reducible apply State.timeState_onward | split)

theorem State.rejectEdge_onward {s₀ : State} {s : State} (ho : Onward s₀ s) : Onward s₀ (State.rejectEdge s) := by
  unfold State.rejectEdge
  extract_lets x0_ s1_ x2_
  have h_s1_ : Onward s₀ s1_ := by
    dsimp (zeta := false) only [s1_]
    repeat' (first | with_reducible assumption | with_reducible refine Onward.mk_same rfl ?_)
  try clear_value s1_
  repeat' (first
      | with_reducible assumption | with_reducible apply State.timeState_onward | split
      | with_reducible refine Onward.mk_same rfl ?_)

theorem State.acceptEdge_onward {s₀ s : State} (e : Int) (exp : Nat) (load : Bool) (h : Onward s₀ s) :
    Onward s₀ (s.acceptEdge e exp load) := by
  unfold State.acceptEdge
  extract_lets slewed x1 x2 s1 x3 s2
  have h1 : Onward s₀ s1 := h.same rfl
  have h2 : Onward s₀ s2 := by
    dsimp only [s2]
    split
    · exact State.setFreq_onward _ (h1.same rfl)
    · exact State.stepTime_onward _ h1
  split
  · exact h2
  · split
    · exact State.timeState_onward _ h2
    · exact State.timeState_onward _ h2

theorem State.edge_onward {s₀ : State} {s : State} (ho : Onward s₀ s) : Onward s₀ (State.edge s) := by
  unfold State.edge
  repeat' (first
    | with_reducible assumption
    | (with_reducible apply State.acceptEdge_onward)
    | (with_reducible apply State.rejectEdge_onward)
    | with_reducible apply Onward.foldl
    | refine Onward.of_snd (by assumption) ?_
    | split
    | (with_reducible refine Onward.mk_same rfl ?_
       first
       | with_reducible assumption
       | (with_reducible apply State.acceptEdge_onward)
       | (with_reducible apply State.rejectEdge_onward)
       | refine Onward.of_snd (by assumption) ?_)
    | intro _
    | extract_lets
    | dsimp (zeta := false) only
    | dsimp +zetaDelta only)

theorem execPpsEdge_onward {s : State} {t : State} (ho : execPpsEdge s = .next t) : Onward s t := by
  unfold execPpsEdge at ho
  injection ho with ho
  subst ho
  have ho := Onward.refl s
  repeat' (first | with_reducible assumption | with_reducible apply State.edge_onward | split)

theorem execPhaseSlewEnd_onward {s : State} {t : State} (ho : execPhaseSlewEnd s = .next t) : Onward s t := by
  unfold execPhaseSlewEnd at ho
  injection ho with ho
  subst ho
  have ho := Onward.refl s
  repeat' (first | with_reducible assumption | split | with_reducible refine Onward.mk_same rfl ?_)

theorem execTsyncPulse_onward {s : State} {t : State} (ho : execTsyncPulse s = .next t) : Onward s t := by
  unfold execTsyncPulse at ho
  injection ho with ho
  subst ho
  have ho := Onward.refl s
  repeat' (first
      | with_reducible assumption | with_reducible apply State.emit_onward | split
      | with_reducible refine Onward.mk_same rfl ?_)

theorem execXtalRc_onward (rc : Bool) {s : State} {t : State} (ho : execXtalRc rc s = .next t) : Onward s t := by
  unfold execXtalRc at ho
  injection ho with ho
  subst ho
  have ho := Onward.refl s
  extract_lets x0_ x1_ s2_
  have h_s2_ : Onward s s2_ := by
    dsimp (zeta := false) only [s2_]
    repeat' (first | with_reducible assumption | with_reducible refine Onward.mk_same rfl ?_)
  try clear_value s2_
  repeat' (first | with_reducible assumption | with_reducible apply State.event_onward | split)

theorem State.acceptWrite_onward {s₀ : State} {s : State} (r : Reg) (w : Word) (ho : Onward s₀ s) : Onward s₀
    (State.acceptWrite s r w) := by
  unfold State.acceptWrite
  extract_lets x0_ x1_ s2_
  have h_s2_ : Onward s₀ s2_ := by
    dsimp (zeta := false) only [s2_]
    repeat' (first
      | with_reducible assumption
      | (with_reducible apply State.configEvent_onward)
      | (with_reducible apply State.badState_onward)
      | (with_reducible apply State.setReg_onward)
      | with_reducible apply Onward.foldl
      | refine Onward.of_snd (by assumption) ?_
      | split
      | (with_reducible refine Onward.mk_same rfl ?_
         first
         | with_reducible assumption
         | (with_reducible apply State.configEvent_onward)
         | (with_reducible apply State.badState_onward)
         | (with_reducible apply State.setReg_onward)
         | refine Onward.of_snd (by assumption) ?_)
      | intro _
      | extract_lets
      | dsimp (zeta := false) only
      | dsimp +zetaDelta only)
  try clear_value s2_
  repeat' (first
    | with_reducible assumption
    | (with_reducible apply State.configEvent_onward)
    | (with_reducible apply State.badState_onward)
    | (with_reducible apply State.setReg_onward)
    | with_reducible apply Onward.foldl
    | refine Onward.of_snd (by assumption) ?_
    | split
    | (with_reducible refine Onward.mk_same rfl ?_
       first
       | with_reducible assumption
       | (with_reducible apply State.configEvent_onward)
       | (with_reducible apply State.badState_onward)
       | (with_reducible apply State.setReg_onward)
       | refine Onward.of_snd (by assumption) ?_)
    | intro _
    | extract_lets
    | dsimp (zeta := false) only
    | dsimp +zetaDelta only)

theorem State.writeInv_onward {s₀ : State} {s : State} (name : Nat) (v : Word) (ho : Onward s₀ s) : Onward s₀
    (State.writeInv s name v) := by
  unfold State.writeInv
  extract_lets s0_
  have h_s0_ : Onward s₀ s0_ := by
    dsimp (zeta := false) only [s0_]
    repeat' (first | with_reducible assumption | with_reducible refine Onward.mk_same rfl ?_)
  try clear_value s0_
  repeat' (first
      | with_reducible assumption | with_reducible apply State.shadow_onward
      | with_reducible apply State.acceptWrite_onward | split)

theorem State.holdWrite_onward {s₀ : State} {s : State} (r : Reg) (v : Word) (ho : Onward s₀ s) : Onward s₀
    (State.holdWrite s r v) := by
  unfold State.holdWrite
  extract_lets s0_
  have h_s0_ : Onward s₀ s0_ := by
    dsimp (zeta := false) only [s0_]
    repeat' (first | with_reducible assumption | with_reducible apply State.shadow_onward | split)
  try clear_value s0_
  repeat' (first | with_reducible assumption | with_reducible refine Onward.mk_same rfl ?_)

theorem State.writeLo_onward {s₀ : State} {s : State} (r : Reg) (v : Word) (ho : Onward s₀ s) : Onward s₀
    (State.writeLo s r v) := by
  unfold State.writeLo
  repeat' (first | with_reducible assumption | with_reducible refine Onward.mk_same rfl ?_)

theorem State.writeHi_onward {s₀ : State} {s : State} (f : Bool → Reg) (v : Word) (ho : Onward s₀ s) : Onward s₀
    (State.writeHi s f v) := by
  unfold State.writeHi
  extract_lets x0_ s1_
  have h_s1_ : Onward s₀ s1_ := by
    dsimp (zeta := false) only [s1_]
    repeat' (first
      | with_reducible assumption
      | (with_reducible apply State.setPair_onward)
      | with_reducible apply Onward.foldl
      | refine Onward.of_snd (by assumption) ?_
      | split
      | (with_reducible refine Onward.mk_same rfl ?_
         first
         | with_reducible assumption
         | (with_reducible apply State.setPair_onward)
         | refine Onward.of_snd (by assumption) ?_)
      | intro _
      | extract_lets
      | dsimp (zeta := false) only
      | dsimp +zetaDelta only)
  try clear_value s1_
  repeat' (first
    | with_reducible assumption
    | (with_reducible apply State.setPair_onward)
    | with_reducible apply Onward.foldl
    | refine Onward.of_snd (by assumption) ?_
    | split
    | (with_reducible refine Onward.mk_same rfl ?_
       first
       | with_reducible assumption
       | (with_reducible apply State.setPair_onward)
       | refine Onward.of_snd (by assumption) ?_)
    | intro _
    | extract_lets
    | dsimp (zeta := false) only
    | dsimp +zetaDelta only)

theorem State.writeHalf_onward {s₀ : State} {s : State} (f : Bool → Reg) (hi : Bool) (v : Word) (isFrozen : Bool)
    (ho : Onward s₀ s) : Onward s₀ (State.writeHalf s f hi v isFrozen) := by
  unfold State.writeHalf
  repeat' (first
      | with_reducible assumption | with_reducible apply State.configEvent_onward
      | with_reducible apply State.writeHi_onward | with_reducible apply State.writeLo_onward | split)

theorem State.writePlain_onward {s₀ : State} {s : State} (r : Reg) (v : Word) (ho : Onward s₀ s) : Onward s₀
    (State.writePlain s r v) := by
  unfold State.writePlain
  repeat' (first
      | with_reducible assumption | with_reducible apply State.configEvent_onward
      | with_reducible apply State.setReg_onward | split)

theorem State.writeBinding_onward {s₀ : State} {s : State} (r : Reg) (n : Nat) (v : Word) (ho : Onward s₀ s) :
    Onward s₀ (State.writeBinding s r n v) := by
  unfold State.writeBinding
  repeat' (first
      | with_reducible assumption | with_reducible apply State.writePlain_onward
      | with_reducible apply State.configEvent_onward | split)

theorem State.writeEvrCmd_onward {s₀ : State} {s : State} (v : Word) (ho : Onward s₀ s) : Onward s₀
    (State.writeEvrCmd s v) := by
  unfold State.writeEvrCmd
  repeat' (first
      | with_reducible assumption | with_reducible apply State.clearByGrant_onward
      | with_reducible apply State.clearByToken_onward | with_reducible apply State.configEvent_onward | split)

theorem State.writeMbox_onward {s₀ : State} {s : State} (i : Nat) (v : Word) (ho : Onward s₀ s) : Onward s₀
    (State.writeMbox s i v) := by
  unfold State.writeMbox
  repeat' (first | with_reducible assumption | with_reducible refine Onward.mk_same rfl ?_)

theorem State.writeSlcStatus_onward {s₀ : State} {s : State} (n : Nat) (v : Word) (ho : Onward s₀ s) : Onward s₀
    (State.writeSlcStatus s n v) := by
  unfold State.writeSlcStatus
  repeat' (first | with_reducible assumption | with_reducible apply State.onSlice_onward)

theorem State.writeReg_onward {s₀ : State} {s : State} (r : Reg) (v : Word) (ho : Onward s₀ s) : Onward s₀
    (State.writeReg s r v) := by
  unfold State.writeReg
  extract_lets x0_ s1_
  have h_s1_ : Onward s₀ s1_ := by
    dsimp (zeta := false) only [s1_]
    repeat' (first | with_reducible assumption | with_reducible apply State.writePlain_onward)
  try clear_value s1_
  repeat' (first
      | with_reducible assumption | with_reducible apply State.sysReset_onward
      | with_reducible apply State.writeInv_onward | with_reducible apply State.loadTime_onward
      | with_reducible apply State.lookup_onward | with_reducible apply State.writeHalf_onward
      | with_reducible apply State.writeSqCfg_onward | with_reducible apply State.writeCqCfg_onward
      | with_reducible apply State.writePlain_onward | with_reducible apply State.setFreq_onward
      | with_reducible apply State.clearDb_onward | with_reducible apply State.clearSq_onward
      | with_reducible apply State.clearCq_onward | with_reducible apply State.writeSlcStatus_onward
      | with_reducible apply State.writeEvrCmd_onward | with_reducible apply State.writeMbox_onward
      | with_reducible apply State.snapWrite_onward | with_reducible apply State.writeBinding_onward
      | with_reducible apply State.holdWrite_onward | with_reducible apply State.stage_onward | split
      | with_reducible refine Onward.mk_same rfl ?_)

theorem State.writeCfg_onward {s₀ : State} {s : State} (o : Nat) (v : Word) (ho : Onward s₀ s) : Onward s₀
    (State.writeCfg s o v) := by
  unfold State.writeCfg
  repeat' (first
    | with_reducible assumption
    | with_reducible apply Onward.foldl
    | refine Onward.of_snd (by assumption) ?_
    | split
    | (with_reducible refine Onward.mk_same rfl ?_
       first | with_reducible assumption | refine Onward.of_snd (by assumption) ?_)
    | intro _
    | extract_lets
    | dsimp (zeta := false) only
    | dsimp +zetaDelta only)

theorem State.writeMsix_onward {s₀ s : State} (o : Nat) (v : Word) (h : Onward s₀ s) : Onward s₀ (s.writeMsix o v)
    := by
  have ho : ∀ (i : Nat) (f : Msix → Msix),
      Onward s₀ { s with hif := { s.hif with msix := mapUpd {} s.hif.msix i f } } := by
    intro i f
    refine h.upd (msix := ?_)
    dsimp only
    exact keysRise_mapSet _ _ _
  unfold State.writeMsix
  extract_lets
  split
  · exact h
  · split
    · exact ho _ _
    · exact ho _ _
    · exact ho _ _
    · split
      · exact ho _ _
      · exact State.unmask_onward _ h

theorem State.write_onward {s₀ s : State} (off : Nat) (v : Word) (ho : Onward s₀ s) : Onward s₀ (s.write off v) := by
  have hf : ∀ u, Onward s₀ u → Onward s₀
      (if off % 4 ≠ 0 then u.badAccess off 0
       else match regAt off with
        | some r => if (match r.sliceOf with | some n => u.present n | none => true) then u.writeReg r v else u
        | none => u) := by
    intro u hu
    split
    · exact State.badAccess_onward _ _ hu
    split
    · refine Onward.ite (State.writeReg_onward _ _ hu) hu
    · exact hu
  unfold State.write
  split
  · split
    · exact State.writeCfg_onward _ _ (State.wakeUp_onward ho)
    · exact ho
  split
  · exact State.nudge_onward _ ho
  split
  · split
    · exact State.writeMsix_onward _ _ (State.wakeUp_onward ho)
    · exact ho
  · exact State.gate_onward _ _ hf ho

theorem execRegisterWrite_onward (off : Nat) (v : Word) {s : State} {t : State} (ho : execRegisterWrite off v s =
    .next t) : Onward s t := by
  unfold execRegisterWrite at ho
  injection ho with ho
  subst ho
  have ho := Onward.refl s
  repeat' (first | with_reducible assumption | with_reducible apply State.write_onward)

theorem execBadAccess_onward (off : Nat) (write : Bool) {s : State} {t : State} (ho : execBadAccess off write s =
    .next t) : Onward s t := by
  unfold execBadAccess at ho
  injection ho with ho
  subst ho
  have ho := Onward.refl s
  extract_lets s0_
  have h_s0_ : Onward s s0_ := by
    dsimp (zeta := false) only [s0_]
    repeat' (first
        | with_reducible assumption | with_reducible apply State.badAccess_onward
        | with_reducible apply State.wakeUp_onward | split)
  try clear_value s0_
  repeat' (first | with_reducible assumption | with_reducible apply State.emit_onward | split)

theorem State.readLo_onward {s₀ : State} {s : State} (off : Nat) (ho : Onward s₀ s) : Onward s₀ (State.readLo s off)
    := by
  unfold State.readLo
  repeat' (first
      | with_reducible assumption | with_reducible apply State.emit_onward
      | with_reducible refine Onward.mk_same rfl ?_)

theorem State.readWord_onward {s₀ : State} {s : State} (off : Nat) (ho : Onward s₀ s) : Onward s₀ (State.readWord s
    off) := by
  unfold State.readWord
  repeat' (first
    | with_reducible assumption
    | (with_reducible apply State.emit_onward)
    | with_reducible apply Onward.foldl
    | refine Onward.of_snd (by assumption) ?_
    | split
    | (with_reducible refine Onward.mk_same rfl ?_
       first
       | with_reducible assumption
       | (with_reducible apply State.emit_onward)
       | refine Onward.of_snd (by assumption) ?_)
    | intro _
    | extract_lets
    | dsimp (zeta := false) only
    | dsimp +zetaDelta only)

theorem execNameLoRead_onward (off : Nat) {s : State} {t : State} (ho : execNameLoRead off s = .next t) : Onward s t
    := by
  unfold execNameLoRead at ho
  injection ho with ho
  subst ho
  have ho := Onward.refl s
  repeat' (first
    | with_reducible assumption
    | (with_reducible apply State.emit_onward)
    | (with_reducible apply State.badAccess_onward)
    | (with_reducible apply State.wakeUp_onward)
    | (with_reducible apply State.readLo_onward)
    | (with_reducible apply State.readWord_onward)
    | with_reducible apply Onward.foldl
    | refine Onward.of_snd (by assumption) ?_
    | split
    | (with_reducible refine Onward.mk_same rfl ?_
       first
       | with_reducible assumption
       | (with_reducible apply State.emit_onward)
       | (with_reducible apply State.badAccess_onward)
       | (with_reducible apply State.wakeUp_onward)
       | (with_reducible apply State.readLo_onward)
       | (with_reducible apply State.readWord_onward)
       | refine Onward.of_snd (by assumption) ?_)
    | intro _
    | extract_lets
    | dsimp (zeta := false) only
    | dsimp +zetaDelta only)

theorem execOverwriteReachesGroup_onward (g : Nat) {s : State} {t : State} (ho : execOverwriteReachesGroup g s =
    .next t) : Onward s t := by
  unfold execOverwriteReachesGroup at ho
  injection ho with ho
  subst ho
  have ho := Onward.refl s
  repeat' (first | with_reducible assumption | split | with_reducible refine Onward.mk_same rfl ?_)

theorem execOvwDone_onward (ms : Nat) {s : State} {t : State} (ho : execOvwDone ms s = .next t) : Onward s t := by
  unfold execOvwDone at ho
  injection ho with ho
  subst ho
  have ho := Onward.refl s
  repeat' (first
      | with_reducible assumption | with_reducible apply State.event_onward | split
      | with_reducible refine Onward.mk_same rfl ?_)

theorem execPatrolScrub_onward (ch : Nat) (corrected : Nat) (bad : List Nat) {s : State} {t : State} (ho :
    execPatrolScrub ch corrected bad s = .next t) : Onward s t := by
  unfold execPatrolScrub at ho
  injection ho with ho
  subst ho
  have ho := Onward.refl s
  extract_lets s0_
  have h_s0_ : Onward s s0_ := by
    dsimp (zeta := false) only [s0_]
    repeat' (first
      | with_reducible assumption
      | (with_reducible apply State.correction_onward)
      | (with_reducible apply State.blockFails_onward)
      | with_reducible apply Onward.foldl
      | refine Onward.of_snd (by assumption) ?_
      | split
      | (with_reducible refine Onward.mk_same rfl ?_
         first
         | with_reducible assumption
         | (with_reducible apply State.correction_onward)
         | (with_reducible apply State.blockFails_onward)
         | refine Onward.of_snd (by assumption) ?_)
      | intro _
      | extract_lets
      | dsimp (zeta := false) only
      | dsimp +zetaDelta only)
  try clear_value s0_
  repeat' (first
    | with_reducible assumption
    | (with_reducible apply State.correction_onward)
    | (with_reducible apply State.blockFails_onward)
    | with_reducible apply Onward.foldl
    | refine Onward.of_snd (by assumption) ?_
    | split
    | (with_reducible refine Onward.mk_same rfl ?_
       first
       | with_reducible assumption
       | (with_reducible apply State.correction_onward)
       | (with_reducible apply State.blockFails_onward)
       | refine Onward.of_snd (by assumption) ?_)
    | intro _
    | extract_lets
    | dsimp (zeta := false) only
    | dsimp +zetaDelta only)

theorem execScratchAllocated_onward (j : Nat) {s : State} {t : State} (ho : execScratchAllocated j s = .next t) :
    Onward s t := by
  unfold execScratchAllocated at ho
  injection ho with ho
  subst ho
  have ho := Onward.refl s
  repeat' (first
    | with_reducible assumption
    | (with_reducible apply State.putJob_onward)
    | (with_reducible apply State.toReady_onward)
    | (with_reducible apply State.passOne_onward)
    | with_reducible apply Onward.foldl
    | refine Onward.of_snd (by assumption) ?_
    | split
    | (with_reducible refine Onward.mk_same rfl ?_
       first
       | with_reducible assumption
       | (with_reducible apply State.putJob_onward)
       | (with_reducible apply State.toReady_onward)
       | (with_reducible apply State.passOne_onward)
       | refine Onward.of_snd (by assumption) ?_)
    | intro _
    | extract_lets
    | dsimp (zeta := false) only
    | dsimp +zetaDelta only)

theorem State.takeBlob_onward {s₀ : State} {s : State} (j : Nat) (x : Job) (b : Bytes) (ho : Onward s₀ s) : Onward
    s₀ (State.takeBlob s j x b) := by
  unfold State.takeBlob
  extract_lets x0_ s1_
  have h_s1_ : Onward s₀ s1_ := by
    dsimp (zeta := false) only [s1_]
    repeat' (first
      | with_reducible assumption
      | (with_reducible apply State.finish_onward)
      | (with_reducible apply State.toReady_onward)
      | (with_reducible apply State.putJob_onward)
      | (with_reducible apply State.loadBlob_onward)
      | (with_reducible apply State.keyTaken_onward)
      | (with_reducible apply State.onSlot_onward)
      | with_reducible apply Onward.foldl
      | refine Onward.of_snd (by assumption) ?_
      | split
      | (with_reducible refine Onward.mk_same rfl ?_
         first
         | with_reducible assumption
         | (with_reducible apply State.finish_onward)
         | (with_reducible apply State.toReady_onward)
         | (with_reducible apply State.putJob_onward)
         | (with_reducible apply State.loadBlob_onward)
         | (with_reducible apply State.keyTaken_onward)
         | (with_reducible apply State.onSlot_onward)
         | refine Onward.of_snd (by assumption) ?_)
      | intro _
      | extract_lets
      | dsimp (zeta := false) only
      | dsimp +zetaDelta only)
  try clear_value s1_
  repeat' (first
    | with_reducible assumption
    | (with_reducible apply State.finish_onward)
    | (with_reducible apply State.toReady_onward)
    | (with_reducible apply State.putJob_onward)
    | (with_reducible apply State.loadBlob_onward)
    | (with_reducible apply State.keyTaken_onward)
    | (with_reducible apply State.onSlot_onward)
    | with_reducible apply Onward.foldl
    | refine Onward.of_snd (by assumption) ?_
    | split
    | (with_reducible refine Onward.mk_same rfl ?_
       first
       | with_reducible assumption
       | (with_reducible apply State.finish_onward)
       | (with_reducible apply State.toReady_onward)
       | (with_reducible apply State.putJob_onward)
       | (with_reducible apply State.loadBlob_onward)
       | (with_reducible apply State.keyTaken_onward)
       | (with_reducible apply State.onSlot_onward)
       | refine Onward.of_snd (by assumption) ?_)
    | intro _
    | extract_lets
    | dsimp (zeta := false) only
    | dsimp +zetaDelta only)

theorem State.awaitHarvest_onward {s₀ : State} {s : State} (j : Nat) (x : Job) (ho : Onward s₀ s) : Onward s₀
    (State.awaitHarvest s j x) := by
  unfold State.awaitHarvest
  repeat' (first
    | with_reducible assumption
    | (with_reducible apply State.noEntropy_onward)
    | (with_reducible apply State.putJob_onward)
    | with_reducible apply Onward.foldl
    | refine Onward.of_snd (by assumption) ?_
    | split
    | (with_reducible refine Onward.mk_same rfl ?_
       first
       | with_reducible assumption
       | (with_reducible apply State.noEntropy_onward)
       | (with_reducible apply State.putJob_onward)
       | refine Onward.of_snd (by assumption) ?_)
    | intro _
    | extract_lets
    | dsimp (zeta := false) only
    | dsimp +zetaDelta only)

theorem State.blobArrives_onward {s₀ : State} {s : State} (j : Nat) (x : Job) (a : Except HCause Bytes) (ho : Onward
    s₀ s) : Onward s₀ (State.blobArrives s j x a) := by
  unfold State.blobArrives
  repeat' (first
    | with_reducible assumption
    | (with_reducible apply State.finish_onward)
    | (with_reducible apply State.accessFault_onward)
    | (with_reducible apply State.awaitHarvest_onward)
    | (with_reducible apply State.takeBlob_onward)
    | with_reducible apply Onward.foldl
    | refine Onward.of_snd (by assumption) ?_
    | split
    | (with_reducible refine Onward.mk_same rfl ?_
       first
       | with_reducible assumption
       | (with_reducible apply State.finish_onward)
       | (with_reducible apply State.accessFault_onward)
       | (with_reducible apply State.awaitHarvest_onward)
       | (with_reducible apply State.takeBlob_onward)
       | refine Onward.of_snd (by assumption) ?_)
    | intro _
    | extract_lets
    | dsimp (zeta := false) only
    | dsimp +zetaDelta only)

theorem execKeyloadDone_onward (j : Nat) (blob : Bytes) {s : State} {t : State} (ho : execKeyloadDone j blob s =
    .next t) : Onward s t := by
  unfold execKeyloadDone at ho
  injection ho with ho
  subst ho
  have ho := Onward.refl s
  repeat' (first
    | with_reducible assumption
    | (with_reducible apply State.blobArrives_onward)
    | (with_reducible apply State.noteRead_onward)
    | (with_reducible apply State.openGroups_onward)
    | (with_reducible apply State.jobRead_onward)
    | (with_reducible apply State.putJob_onward)
    | with_reducible apply Onward.foldl
    | refine Onward.of_snd (by assumption) ?_
    | split
    | (with_reducible refine Onward.mk_same rfl ?_
       first
       | with_reducible assumption
       | (with_reducible apply State.blobArrives_onward)
       | (with_reducible apply State.noteRead_onward)
       | (with_reducible apply State.openGroups_onward)
       | (with_reducible apply State.jobRead_onward)
       | (with_reducible apply State.putJob_onward)
       | refine Onward.of_snd (by assumption) ?_)
    | intro _
    | extract_lets
    | dsimp (zeta := false) only
    | dsimp +zetaDelta only)

theorem State.entropyFor_onward {s₀ s t : State} (j : Nat) (x : Job) (he : s.entropyFor j x = some t) (ho : Onward
    s₀ s) :
    Onward s₀ t := by
  unfold State.entropyFor at he
  split at he
  · cases he
  split at he
  · split at he
    · exact Option.some.inj he ▸ State.enterReady_onward _ ho
    split at he
    · obtain ⟨⟨b, u⟩, hu, rfl⟩ := Option.map_eq_some_iff.1 he
      exact State.enterReady_onward _ (State.giveTo_onward _ _ (State.takePool_onward hu ho))
    · cases he
  split at he
  · exact Option.some.inj he ▸ State.enterReady_onward _ ho
  · cases he

theorem State.waitEnds_onward {s₀ : State} {s : State} (j : Nat) (x : Job) (ho : Onward s₀ s) : Onward s₀
    (State.waitEnds s j x) := by
  unfold State.waitEnds
  repeat' (first
    | with_reducible assumption
    | (with_reducible apply State.finish_onward)
    | (with_reducible apply State.noEntropy_onward)
    | with_reducible apply Onward.foldl
    | refine Onward.of_snd (by assumption) ?_
    | split
    | (with_reducible refine Onward.mk_same rfl ?_
       first
       | with_reducible assumption
       | (with_reducible apply State.finish_onward)
       | (with_reducible apply State.noEntropy_onward)
       | refine Onward.of_snd (by assumption) ?_)
    | intro _
    | extract_lets
    | dsimp (zeta := false) only
    | dsimp +zetaDelta only)

theorem execEntropyWaitLimit_onward (j : Nat) {s t : State} (h : execEntropyWaitLimit j s = .next t) : Onward s t :=
    by
  unfold execEntropyWaitLimit at h
  injection h with h
  subst h
  have h := Onward.refl s
  split
  · split
    · rename_i x _ _
      cases e : s.entropyFor j x with
      | none => exact State.waitEnds_onward _ _ h
      | some t => exact State.entropyFor_onward _ _ e h
    · exact h
  · exact h

theorem State.traceDispatch_onward {s₀ : State} {s : State} (e : Nat) (j : Nat) (ho : Onward s₀ s) : Onward s₀
    (State.traceDispatch s e j) := by
  unfold State.traceDispatch
  repeat' (first | with_reducible assumption | split | with_reducible refine Onward.mk_same rfl ?_)

theorem State.readStaged_onward {s₀ : State} {s : State} (j : Nat) (k : Nat) (ho : Onward s₀ s) : Onward s₀
    (State.readStaged s j k) := by
  unfold State.readStaged
  repeat' (first
    | with_reducible assumption
    | (with_reducible apply State.jobReads_onward)
    | with_reducible apply Onward.foldl
    | refine Onward.of_snd (by assumption) ?_
    | split
    | (with_reducible refine Onward.mk_same rfl ?_
       first
       | with_reducible assumption
       | (with_reducible apply State.jobReads_onward)
       | refine Onward.of_snd (by assumption) ?_)
    | intro _
    | extract_lets
    | dsimp (zeta := false) only
    | dsimp +zetaDelta only)

theorem State.stageOn_onward {s₀ : State} {s : State} (e : Nat) (j : Nat) (k : Nat) (ho : Onward s₀ s) : Onward s₀
    (State.stageOn s e j k) := by
  unfold State.stageOn
  extract_lets s0_ x1_ s2_ s3_ s4_ x5_
  have h_s0_ : Onward s₀ s0_ := by
    dsimp (zeta := false) only [s0_]
    repeat' (first | with_reducible assumption | with_reducible apply State.takeRb_onward)
  try clear_value s0_
  have h_s2_ : Onward s₀ s2_ := by
    dsimp (zeta := false) only [s2_]
    repeat' (first | with_reducible assumption | with_reducible apply State.onEngine_onward)
  try clear_value s2_
  have h_s3_ : Onward s₀ s3_ := by
    dsimp (zeta := false) only [s3_]
    repeat' (first | with_reducible assumption | with_reducible apply State.onJob_onward)
  try clear_value s3_
  have h_s4_ : Onward s₀ s4_ := by
    dsimp (zeta := false) only [s4_]
    repeat' (first
        | with_reducible assumption | with_reducible apply State.readStaged_onward
        | with_reducible apply State.traceDispatch_onward)
  try clear_value s4_
  repeat' (first | with_reducible assumption | split | with_reducible refine Onward.mk_same rfl ?_)

theorem State.noteRb_onward {s₀ : State} {s : State} (ho : Onward s₀ s) : Onward s₀ (State.noteRb s) := by
  unfold State.noteRb
  repeat' (first | with_reducible assumption | with_reducible apply State.event_onward | split)

theorem State.dispatch_onward {s₀ : State} {s : State} (e : Nat) (ho : Onward s₀ s) : Onward s₀ (State.dispatch s e)
    := by
  unfold State.dispatch
  extract_lets s0_
  have h_s0_ : Onward s₀ s0_ := by
    dsimp (zeta := false) only [s0_]
    repeat' (first | with_reducible assumption | with_reducible apply State.noteRb_onward | split)
  try clear_value s0_
  repeat' (first
      | with_reducible assumption | with_reducible apply State.stageOn_onward
      | with_reducible apply State.unstage_onward | split)

theorem execDispatchDecision_onward (e : Nat) {s : State} {t : State} (ho : execDispatchDecision e s = .next t) :
    Onward s t := by
  unfold execDispatchDecision at ho
  injection ho with ho
  subst ho
  have ho := Onward.refl s
  repeat' (first | with_reducible assumption | with_reducible apply State.dispatch_onward)

theorem State.arenaUncorr_onward {s₀ : State} {s : State} (j : Nat) (i : Nat) (ho : Onward s₀ s) : Onward s₀
    (State.arenaUncorr s j i) := by
  unfold State.arenaUncorr
  repeat' (first
    | with_reducible assumption
    | (with_reducible apply State.draw_onward)
    | (with_reducible apply State.markShared_onward)
    | (with_reducible apply State.finish_onward)
    | (with_reducible apply State.onSlot_onward)
    | (with_reducible apply State.event_onward)
    | with_reducible apply Onward.foldl
    | refine Onward.of_snd (by assumption) ?_
    | split
    | (with_reducible refine Onward.mk_same rfl ?_
       first
       | with_reducible assumption
       | (with_reducible apply State.draw_onward)
       | (with_reducible apply State.markShared_onward)
       | (with_reducible apply State.finish_onward)
       | (with_reducible apply State.onSlot_onward)
       | (with_reducible apply State.event_onward)
       | refine Onward.of_snd (by assumption) ?_)
    | intro _
    | extract_lets
    | dsimp (zeta := false) only
    | dsimp +zetaDelta only)

theorem State.shares_onward {s₀ s : State} (k : Nat) (b : Bytes) (ho : Onward s₀ s) : Onward s₀ (s.shares k b).2 := by
  induction k generalizing s b with
  | zero => exact ho
  | succ k ih =>
    cases k with
    | zero => exact ho
    | succ k => exact ih (s := (s.generate 4 b.length).2) _ (State.generate_onward _ _ ho)

theorem State.deliverSlot_onward {s₀ : State} {s : State} (e : Nat) (x : Job) (i : Nat) (ho : Onward s₀ s) : Onward
    s₀ (State.deliverSlot s e x i) := by
  unfold State.deliverSlot
  extract_lets s0_ x1_
  have h_s0_ : Onward s₀ s0_ := by
    dsimp (zeta := false) only [s0_]
    repeat' (first
      | with_reducible assumption
      | (with_reducible apply State.readSlot_onward)
      | (with_reducible apply State.shares_onward)
      | (with_reducible apply State.onEngine_onward)
      | with_reducible apply Onward.foldl
      | refine Onward.of_snd (by assumption) ?_
      | split
      | (with_reducible refine Onward.mk_same rfl ?_
         first
         | with_reducible assumption
         | (with_reducible apply State.readSlot_onward)
         | (with_reducible apply State.shares_onward)
         | (with_reducible apply State.onEngine_onward)
         | refine Onward.of_snd (by assumption) ?_)
      | intro _
      | extract_lets
      | dsimp (zeta := false) only
      | dsimp +zetaDelta only)
  try clear_value s0_
  repeat' (first
    | with_reducible assumption
    | (with_reducible apply State.readSlot_onward)
    | (with_reducible apply State.shares_onward)
    | (with_reducible apply State.onEngine_onward)
    | with_reducible apply Onward.foldl
    | refine Onward.of_snd (by assumption) ?_
    | split
    | (with_reducible refine Onward.mk_same rfl ?_
       first
       | with_reducible assumption
       | (with_reducible apply State.readSlot_onward)
       | (with_reducible apply State.shares_onward)
       | (with_reducible apply State.onEngine_onward)
       | refine Onward.of_snd (by assumption) ?_)
    | intro _
    | extract_lets
    | dsimp (zeta := false) only
    | dsimp +zetaDelta only)

theorem State.deliverStatement_onward {s₀ : State} {s : State} (e : Nat) (x : Job) (ho : Onward s₀ s) : Onward s₀
    (State.deliverStatement s e x) := by
  unfold State.deliverStatement
  repeat' (first
    | with_reducible assumption
    | (with_reducible apply State.shares_onward)
    | (with_reducible apply State.onEngine_onward)
    | with_reducible apply Onward.foldl
    | refine Onward.of_snd (by assumption) ?_
    | split
    | (with_reducible refine Onward.mk_same rfl ?_
       first
       | with_reducible assumption
       | (with_reducible apply State.shares_onward)
       | (with_reducible apply State.onEngine_onward)
       | refine Onward.of_snd (by assumption) ?_)
    | intro _
    | extract_lets
    | dsimp (zeta := false) only
    | dsimp +zetaDelta only)

theorem State.drawFor_onward {s₀ : State} {s : State} (j : Nat) (x : Job) (ho : Onward s₀ s) : Onward s₀
    (State.drawFor s j x) := by
  unfold State.drawFor
  extract_lets x0_ s1_
  have h_s1_ : Onward s₀ s1_ := by
    dsimp (zeta := false) only [s1_]
    repeat' (first
      | with_reducible assumption
      | (with_reducible apply State.freshSlice_onward)
      | (with_reducible apply State.generate_onward)
      | (with_reducible apply State.onJob_onward)
      | with_reducible apply Onward.foldl
      | refine Onward.of_snd (by assumption) ?_
      | split
      | (with_reducible refine Onward.mk_same rfl ?_
         first
         | with_reducible assumption
         | (with_reducible apply State.freshSlice_onward)
         | (with_reducible apply State.generate_onward)
         | (with_reducible apply State.onJob_onward)
         | refine Onward.of_snd (by assumption) ?_)
      | intro _
      | extract_lets
      | dsimp (zeta := false) only
      | dsimp +zetaDelta only)
  try clear_value s1_
  repeat' (first
    | with_reducible assumption
    | (with_reducible apply State.freshSlice_onward)
    | (with_reducible apply State.generate_onward)
    | (with_reducible apply State.onJob_onward)
    | with_reducible apply Onward.foldl
    | refine Onward.of_snd (by assumption) ?_
    | split
    | (with_reducible refine Onward.mk_same rfl ?_
       first
       | with_reducible assumption
       | (with_reducible apply State.freshSlice_onward)
       | (with_reducible apply State.generate_onward)
       | (with_reducible apply State.onJob_onward)
       | refine Onward.of_snd (by assumption) ?_)
    | intro _
    | extract_lets
    | dsimp (zeta := false) only
    | dsimp +zetaDelta only)

theorem State.deliverStaged_onward {s₀ : State} {s : State} (e : Nat) (j : Nat) (x : Job) (ho : Onward s₀ s) :
    Onward s₀ (State.deliverStaged s e j x) := by
  unfold State.deliverStaged
  extract_lets x0_ s1_ s2_ s3_ x4_
  have h_s1_ : Onward s₀ s1_ := by
    dsimp (zeta := false) only [s1_]
    repeat' (first
      | with_reducible assumption
      | (with_reducible apply State.onEngine_onward)
      | (with_reducible apply State.deliverSlot_onward)
      | (with_reducible apply State.drawFor_onward)
      | (with_reducible apply State.deliverStatement_onward)
      | with_reducible apply Onward.foldl
      | refine Onward.of_snd (by assumption) ?_
      | split
      | (with_reducible refine Onward.mk_same rfl ?_
         first
         | with_reducible assumption
         | (with_reducible apply State.onEngine_onward)
         | (with_reducible apply State.deliverSlot_onward)
         | (with_reducible apply State.drawFor_onward)
         | (with_reducible apply State.deliverStatement_onward)
         | refine Onward.of_snd (by assumption) ?_)
      | intro _
      | extract_lets
      | dsimp (zeta := false) only
      | dsimp +zetaDelta only)
  try clear_value s1_
  have h_s2_ : Onward s₀ s2_ := by
    dsimp (zeta := false) only [s2_]
    repeat' (first
      | with_reducible assumption
      | (with_reducible apply State.onEngine_onward)
      | (with_reducible apply State.deliverSlot_onward)
      | (with_reducible apply State.drawFor_onward)
      | (with_reducible apply State.deliverStatement_onward)
      | with_reducible apply Onward.foldl
      | refine Onward.of_snd (by assumption) ?_
      | split
      | (with_reducible refine Onward.mk_same rfl ?_
         first
         | with_reducible assumption
         | (with_reducible apply State.onEngine_onward)
         | (with_reducible apply State.deliverSlot_onward)
         | (with_reducible apply State.drawFor_onward)
         | (with_reducible apply State.deliverStatement_onward)
         | refine Onward.of_snd (by assumption) ?_)
      | intro _
      | extract_lets
      | dsimp (zeta := false) only
      | dsimp +zetaDelta only)
  try clear_value s2_
  have h_s3_ : Onward s₀ s3_ := by
    dsimp (zeta := false) only [s3_]
    repeat' (first
      | with_reducible assumption
      | (with_reducible apply State.onEngine_onward)
      | (with_reducible apply State.deliverSlot_onward)
      | (with_reducible apply State.drawFor_onward)
      | (with_reducible apply State.deliverStatement_onward)
      | with_reducible apply Onward.foldl
      | refine Onward.of_snd (by assumption) ?_
      | split
      | (with_reducible refine Onward.mk_same rfl ?_
         first
         | with_reducible assumption
         | (with_reducible apply State.onEngine_onward)
         | (with_reducible apply State.deliverSlot_onward)
         | (with_reducible apply State.drawFor_onward)
         | (with_reducible apply State.deliverStatement_onward)
         | refine Onward.of_snd (by assumption) ?_)
      | intro _
      | extract_lets
      | dsimp (zeta := false) only
      | dsimp +zetaDelta only)
  try clear_value s3_
  repeat' (first
    | with_reducible assumption
    | (with_reducible apply State.onEngine_onward)
    | (with_reducible apply State.deliverSlot_onward)
    | (with_reducible apply State.drawFor_onward)
    | (with_reducible apply State.deliverStatement_onward)
    | with_reducible apply Onward.foldl
    | refine Onward.of_snd (by assumption) ?_
    | split
    | (with_reducible refine Onward.mk_same rfl ?_
       first
       | with_reducible assumption
       | (with_reducible apply State.onEngine_onward)
       | (with_reducible apply State.deliverSlot_onward)
       | (with_reducible apply State.drawFor_onward)
       | (with_reducible apply State.deliverStatement_onward)
       | refine Onward.of_snd (by assumption) ?_)
    | intro _
    | extract_lets
    | dsimp (zeta := false) only
    | dsimp +zetaDelta only)

theorem State.inputReady_onward {s₀ : State} {s : State} (j : Nat) (x : Job) (ho : Onward s₀ s) : Onward s₀
    (State.inputReady s j x) := by
  unfold State.inputReady
  repeat' (first
    | with_reducible assumption
    | (with_reducible apply State.finish_onward)
    | (with_reducible apply State.noEntropy_onward)
    | (with_reducible apply State.deliverStaged_onward)
    | with_reducible apply Onward.foldl
    | refine Onward.of_snd (by assumption) ?_
    | split
    | (with_reducible refine Onward.mk_same rfl ?_
       first
       | with_reducible assumption
       | (with_reducible apply State.finish_onward)
       | (with_reducible apply State.noEntropy_onward)
       | (with_reducible apply State.deliverStaged_onward)
       | refine Onward.of_snd (by assumption) ?_)
    | intro _
    | extract_lets
    | dsimp (zeta := false) only
    | dsimp +zetaDelta only)

theorem State.subjectArrives_onward {s₀ : State} {s : State} (j : Nat) (x : Job) (ho : Onward s₀ s) : Onward s₀
    (State.subjectArrives s j x) := by
  unfold State.subjectArrives
  repeat' (first
    | with_reducible assumption
    | (with_reducible apply State.finish_onward)
    | (with_reducible apply State.jobRead_onward)
    | with_reducible apply Onward.foldl
    | refine Onward.of_snd (by assumption) ?_
    | split
    | (with_reducible refine Onward.mk_same rfl ?_
       first
       | with_reducible assumption
       | (with_reducible apply State.finish_onward)
       | (with_reducible apply State.jobRead_onward)
       | refine Onward.of_snd (by assumption) ?_)
    | intro _
    | extract_lets
    | dsimp (zeta := false) only
    | dsimp +zetaDelta only)

theorem execInputStaged_onward (j : Nat) (d : StagedData) {s : State} {t : State} (ho : execInputStaged j d s =
    .next t) : Onward s t := by
  unfold execInputStaged at ho
  injection ho with ho
  subst ho
  have ho := Onward.refl s
  repeat' (first
    | with_reducible assumption
    | (with_reducible apply State.arenaUncorr_onward)
    | (with_reducible apply State.subjectArrives_onward)
    | (with_reducible apply State.inputReady_onward)
    | (with_reducible apply State.putJob_onward)
    | with_reducible apply Onward.foldl
    | refine Onward.of_snd (by assumption) ?_
    | split
    | (with_reducible refine Onward.mk_same rfl ?_
       first
       | with_reducible assumption
       | (with_reducible apply State.arenaUncorr_onward)
       | (with_reducible apply State.subjectArrives_onward)
       | (with_reducible apply State.inputReady_onward)
       | (with_reducible apply State.putJob_onward)
       | refine Onward.of_snd (by assumption) ?_)
    | intro _
    | extract_lets
    | dsimp (zeta := false) only
    | dsimp +zetaDelta only)

theorem execEntropyAvailable_onward (j : Nat) {s t : State} (h : execEntropyAvailable j s = .next t) : Onward s t :=
    by
  unfold execEntropyAvailable at h
  injection h with h
  subst h
  have h := Onward.refl s
  split
  · rename_i x _
    cases e : s.entropyFor j x with
    | none => exact Onward.ite (State.inputReady_onward _ _ h) h
    | some t => exact State.entropyFor_onward _ _ e h
  · exact h

theorem State.loadKernel_onward {s₀ : State} {s : State} (e : Nat) (x : Job) (step : Nat) (slot : Nat) (ho : Onward
    s₀ s) : Onward s₀ (State.loadKernel s e x step slot) := by
  unfold State.loadKernel
  repeat' (first
    | with_reducible assumption
    | (with_reducible apply State.shares_onward)
    | (with_reducible apply State.onVce_onward)
    | with_reducible apply Onward.foldl
    | refine Onward.of_snd (by assumption) ?_
    | split
    | (with_reducible refine Onward.mk_same rfl ?_
       first
       | with_reducible assumption
       | (with_reducible apply State.shares_onward)
       | (with_reducible apply State.onVce_onward)
       | refine Onward.of_snd (by assumption) ?_)
    | intro _
    | extract_lets
    | dsimp (zeta := false) only
    | dsimp +zetaDelta only)

theorem State.restoreKernel_onward {s₀ : State} {s : State} (e : Nat) (j : Nat) (x : Job) (step : Nat) (slot : Nat)
    (ho : Onward s₀ s) : Onward s₀ (State.restoreKernel s e j x step slot) := by
  unfold State.restoreKernel
  extract_lets s0_ x1_
  have h_s0_ : Onward s₀ s0_ := by
    dsimp (zeta := false) only [s0_]
    repeat' (first
      | with_reducible assumption
      | (with_reducible apply State.loadKernel_onward)
      | (with_reducible apply State.onVce_onward)
      | with_reducible apply Onward.foldl
      | refine Onward.of_snd (by assumption) ?_
      | split
      | (with_reducible refine Onward.mk_same rfl ?_
         first
         | with_reducible assumption
         | (with_reducible apply State.loadKernel_onward)
         | (with_reducible apply State.onVce_onward)
         | refine Onward.of_snd (by assumption) ?_)
      | intro _
      | extract_lets
      | dsimp (zeta := false) only
      | dsimp +zetaDelta only)
  try clear_value s0_
  repeat' (first
    | with_reducible assumption
    | (with_reducible apply State.loadKernel_onward)
    | (with_reducible apply State.onVce_onward)
    | with_reducible apply Onward.foldl
    | refine Onward.of_snd (by assumption) ?_
    | split
    | (with_reducible refine Onward.mk_same rfl ?_
       first
       | with_reducible assumption
       | (with_reducible apply State.loadKernel_onward)
       | (with_reducible apply State.onVce_onward)
       | refine Onward.of_snd (by assumption) ?_)
    | intro _
    | extract_lets
    | dsimp (zeta := false) only
    | dsimp +zetaDelta only)

theorem State.startLeaf_onward {s₀ : State} {s : State} (j : Nat) (x : Job) (ho : Onward s₀ s) : Onward s₀
    (State.startLeaf s j x) := by
  unfold State.startLeaf
  repeat' (first
      | with_reducible assumption | with_reducible apply State.finish_onward
      | with_reducible apply State.onJob_onward | with_reducible apply State.onRecord_onward | split
      | with_reducible refine Onward.mk_same rfl ?_)

theorem State.sessionTime_onward {s₀ : State} {s : State} (i : Nat) (t : Nat) (ho : Onward s₀ s) : Onward s₀
    (State.sessionTime s i t) := by
  unfold State.sessionTime
  extract_lets x0_ s1_
  have h_s1_ : Onward s₀ s1_ := by
    dsimp (zeta := false) only [s1_]
    repeat' (first | with_reducible assumption | with_reducible apply State.onSession_onward | split)
  try clear_value s1_
  repeat' (first
      | with_reducible assumption | with_reducible apply State.onSession_onward
      | with_reducible apply State.unpin_onward | split)

theorem State.startSession_onward {s₀ : State} {s : State} (j : Nat) (x : Job) (ho : Onward s₀ s) : Onward s₀
    (State.startSession s j x) := by
  unfold State.startSession
  repeat' (first
      | with_reducible assumption | with_reducible apply State.finish_onward
      | with_reducible apply State.sessionTime_onward | with_reducible apply State.onJob_onward
      | with_reducible apply State.onSession_onward | split | with_reducible refine Onward.mk_same rfl ?_)

theorem State.startTakes_onward {s₀ : State} {s : State} (j : Nat) (ho : Onward s₀ s) : Onward s₀ (State.startTakes
    s j) := by
  unfold State.startTakes
  repeat' (first
      | with_reducible assumption | with_reducible apply State.startLeaf_onward
      | with_reducible apply State.startSession_onward | split)

theorem State.takeHalf_onward {s₀ : State} {s : State} (e : Nat) (j : Nat) (x : Job) (ho : Onward s₀ s) : Onward s₀
    (State.takeHalf s e j x) := by
  unfold State.takeHalf
  extract_lets x0_ s1_ x2_ s3_ x4_
  have h_s1_ : Onward s₀ s1_ := by
    dsimp (zeta := false) only [s1_]
    repeat' (first
      | with_reducible assumption
      | (with_reducible apply State.onEngine_onward)
      | (with_reducible apply State.writePlace_onward)
      | with_reducible apply Onward.foldl
      | refine Onward.of_snd (by assumption) ?_
      | split
      | (with_reducible refine Onward.mk_same rfl ?_
         first
         | with_reducible assumption
         | (with_reducible apply State.onEngine_onward)
         | (with_reducible apply State.writePlace_onward)
         | refine Onward.of_snd (by assumption) ?_)
      | intro _
      | extract_lets
      | dsimp (zeta := false) only
      | dsimp +zetaDelta only)
  try clear_value s1_
  have h_s3_ : Onward s₀ s3_ := by
    dsimp (zeta := false) only [s3_]
    repeat' (first
      | with_reducible assumption
      | (with_reducible apply State.onEngine_onward)
      | (with_reducible apply State.writePlace_onward)
      | with_reducible apply Onward.foldl
      | refine Onward.of_snd (by assumption) ?_
      | split
      | (with_reducible refine Onward.mk_same rfl ?_
         first
         | with_reducible assumption
         | (with_reducible apply State.onEngine_onward)
         | (with_reducible apply State.writePlace_onward)
         | refine Onward.of_snd (by assumption) ?_)
      | intro _
      | extract_lets
      | dsimp (zeta := false) only
      | dsimp +zetaDelta only)
  try clear_value s3_
  repeat' (first
    | with_reducible assumption
    | (with_reducible apply State.onEngine_onward)
    | (with_reducible apply State.writePlace_onward)
    | with_reducible apply Onward.foldl
    | refine Onward.of_snd (by assumption) ?_
    | split
    | (with_reducible refine Onward.mk_same rfl ?_
       first
       | with_reducible assumption
       | (with_reducible apply State.onEngine_onward)
       | (with_reducible apply State.writePlace_onward)
       | refine Onward.of_snd (by assumption) ?_)
    | intro _
    | extract_lets
    | dsimp (zeta := false) only
    | dsimp +zetaDelta only)

theorem State.matrixRound_onward {s₀ : State} {s : State} (e : Nat) (j : Nat) (x : Job) (ho : Onward s₀ s) : Onward
    s₀ (State.matrixRound s e j x) := by
  unfold State.matrixRound
  repeat' (first
    | with_reducible assumption
    | (with_reducible apply State.onEngine_onward)
    | with_reducible apply Onward.foldl
    | refine Onward.of_snd (by assumption) ?_
    | split
    | (with_reducible refine Onward.mk_same rfl ?_
       first
       | with_reducible assumption
       | (with_reducible apply State.onEngine_onward)
       | refine Onward.of_snd (by assumption) ?_)
    | intro _
    | extract_lets
    | dsimp (zeta := false) only
    | dsimp +zetaDelta only)

theorem State.beginOn_onward {s₀ : State} {s : State} (e : Nat) (j : Nat) (k : Nat) (slot : Nat) (ho : Onward s₀ s)
    : Onward s₀ (State.beginOn s e j k slot) := by
  unfold State.beginOn
  repeat' (first
    | with_reducible assumption
    | (with_reducible apply State.drawFor_onward)
    | (with_reducible apply State.onEngine_onward)
    | (with_reducible apply State.onJob_onward)
    | (with_reducible apply State.restoreKernel_onward)
    | (with_reducible apply State.loadKernel_onward)
    | (with_reducible apply State.takeHalf_onward)
    | (with_reducible apply State.startTakes_onward)
    | with_reducible apply Onward.foldl
    | refine Onward.of_snd (by assumption) ?_
    | split
    | (with_reducible refine Onward.mk_same rfl ?_
       first
       | with_reducible assumption
       | (with_reducible apply State.drawFor_onward)
       | (with_reducible apply State.onEngine_onward)
       | (with_reducible apply State.onJob_onward)
       | (with_reducible apply State.restoreKernel_onward)
       | (with_reducible apply State.loadKernel_onward)
       | (with_reducible apply State.takeHalf_onward)
       | (with_reducible apply State.startTakes_onward)
       | refine Onward.of_snd (by assumption) ?_)
    | intro _
    | extract_lets
    | dsimp (zeta := false) only
    | dsimp +zetaDelta only)

theorem State.imageLost_onward {s₀ : State} {s : State} (j : Nat) (b : Nat) (ho : Onward s₀ s) : Onward s₀
    (State.imageLost s j b) := by
  unfold State.imageLost
  repeat' (first
    | with_reducible assumption
    | (with_reducible apply State.finish_onward)
    | (with_reducible apply State.readFails_onward)
    | with_reducible apply Onward.foldl
    | refine Onward.of_snd (by assumption) ?_
    | split
    | (with_reducible refine Onward.mk_same rfl ?_
       first
       | with_reducible assumption
       | (with_reducible apply State.finish_onward)
       | (with_reducible apply State.readFails_onward)
       | refine Onward.of_snd (by assumption) ?_)
    | intro _
    | extract_lets
    | dsimp (zeta := false) only
    | dsimp +zetaDelta only)

theorem State.startLoss_onward {s₀ s t : State} (j k : Nat) (x : Job) (p : PStep) (he : s.startLoss j k x p = some t)
    (ho : Onward s₀ s) : Onward s₀ t := by
  unfold State.startLoss at he
  split at he
  · obtain ⟨b, -, rfl⟩ := Option.map_eq_some_iff.1 he
    exact State.imageLost_onward _ _ ho
  · obtain ⟨i, -, rfl⟩ := Option.map_eq_some_iff.1 he
    exact State.contextLost_onward _ _ ho

theorem State.beginHere_onward {s₀ : State} {s : State} (j : Nat) (k : Nat) (x : Job) (ho : Onward s₀ s) : Onward s₀
    (State.beginHere s j k x) := by
  unfold State.beginHere
  extract_lets s0_
  have h_s0_ : Onward s₀ s0_ := by
    dsimp (zeta := false) only [s0_]
    repeat' (first
      | with_reducible assumption
      | (with_reducible apply State.drawFor_onward)
      | (with_reducible apply State.takeRb_onward)
      | (with_reducible apply State.startTakes_onward)
      | (with_reducible apply State.onJob_onward)
      | with_reducible apply Onward.foldl
      | refine Onward.of_snd (by assumption) ?_
      | split
      | (with_reducible refine Onward.mk_same rfl ?_
         first
         | with_reducible assumption
         | (with_reducible apply State.drawFor_onward)
         | (with_reducible apply State.takeRb_onward)
         | (with_reducible apply State.startTakes_onward)
         | (with_reducible apply State.onJob_onward)
         | refine Onward.of_snd (by assumption) ?_)
      | intro _
      | extract_lets
      | dsimp (zeta := false) only
      | dsimp +zetaDelta only)
  try clear_value s0_
  repeat' (first
    | with_reducible assumption
    | (with_reducible apply State.drawFor_onward)
    | (with_reducible apply State.takeRb_onward)
    | (with_reducible apply State.startTakes_onward)
    | (with_reducible apply State.onJob_onward)
    | with_reducible apply Onward.foldl
    | refine Onward.of_snd (by assumption) ?_
    | split
    | (with_reducible refine Onward.mk_same rfl ?_
       first
       | with_reducible assumption
       | (with_reducible apply State.drawFor_onward)
       | (with_reducible apply State.takeRb_onward)
       | (with_reducible apply State.startTakes_onward)
       | (with_reducible apply State.onJob_onward)
       | refine Onward.of_snd (by assumption) ?_)
    | intro _
    | extract_lets
    | dsimp (zeta := false) only
    | dsimp +zetaDelta only)

theorem State.startStep_onward {s₀ s : State} (j k : Nat) (ho : Onward s₀ s) : Onward s₀ (s.startStep j k) := by
  have hg : ∀ (x : Job) (p : PStep) (u : State), Onward s₀ u → Onward s₀ ((s.startLoss j k x p).getD u) := by
    intro x p u hu
    rcases hl : s.startLoss j k x p with _ | t
    · exact hu
    · exact State.startLoss_onward _ _ _ _ hl ho
  unfold State.startStep
  repeat' (first
      | exact ho | exact State.noEntropy_onward _ ho | exact hg _ _ _ (State.beginHere_onward _ _ _ ho)
      | exact hg _ _ _ (State.beginOn_onward _ _ _ _ ho) | split)

theorem execJobStart_onward (j : Nat) (k : Nat) {s : State} {t : State} (ho : execJobStart j k s = .next t) : Onward
    s t := by
  unfold execJobStart at ho
  injection ho with ho
  subst ho
  have ho := Onward.refl s
  repeat' (first | with_reducible assumption | with_reducible apply State.startStep_onward)

theorem execStreamRowArrival_onward (e : Nat) (bits : Row) {s : State} {t : State} (ho : execStreamRowArrival e bits
    s = .next t) : Onward s t := by
  unfold execStreamRowArrival at ho
  injection ho with ho
  subst ho
  have ho := Onward.refl s
  repeat' (first
      | with_reducible assumption | with_reducible apply State.onVce_onward | split
      | with_reducible refine Onward.mk_same rfl ?_)

theorem State.beginSave_onward {s₀ : State} {s : State} (e : Nat) (j : Nat) (st : Nat) (halt : Bool) (ho : Onward s₀
    s) : Onward s₀ (State.beginSave s e j st halt) := by
  unfold State.beginSave
  extract_lets s0_ s1_ x2_ s3_
  have h_s0_ : Onward s₀ s0_ := by
    dsimp (zeta := false) only [s0_]
    repeat' (first
      | with_reducible assumption
      | (with_reducible apply State.event_onward)
      | (with_reducible apply State.onEngine_onward)
      | (with_reducible apply State.onVce_onward)
      | (with_reducible apply State.onJob_onward)
      | with_reducible apply Onward.foldl
      | refine Onward.of_snd (by assumption) ?_
      | split
      | (with_reducible refine Onward.mk_same rfl ?_
         first
         | with_reducible assumption
         | (with_reducible apply State.event_onward)
         | (with_reducible apply State.onEngine_onward)
         | (with_reducible apply State.onVce_onward)
         | (with_reducible apply State.onJob_onward)
         | refine Onward.of_snd (by assumption) ?_)
      | intro _
      | extract_lets
      | dsimp (zeta := false) only
      | dsimp +zetaDelta only)
  try clear_value s0_
  have h_s1_ : Onward s₀ s1_ := by
    dsimp (zeta := false) only [s1_]
    repeat' (first
      | with_reducible assumption
      | (with_reducible apply State.event_onward)
      | (with_reducible apply State.onEngine_onward)
      | (with_reducible apply State.onVce_onward)
      | (with_reducible apply State.onJob_onward)
      | with_reducible apply Onward.foldl
      | refine Onward.of_snd (by assumption) ?_
      | split
      | (with_reducible refine Onward.mk_same rfl ?_
         first
         | with_reducible assumption
         | (with_reducible apply State.event_onward)
         | (with_reducible apply State.onEngine_onward)
         | (with_reducible apply State.onVce_onward)
         | (with_reducible apply State.onJob_onward)
         | refine Onward.of_snd (by assumption) ?_)
      | intro _
      | extract_lets
      | dsimp (zeta := false) only
      | dsimp +zetaDelta only)
  try clear_value s1_
  have h_s3_ : Onward s₀ s3_ := by
    dsimp (zeta := false) only [s3_]
    repeat' (first
      | with_reducible assumption
      | (with_reducible apply State.event_onward)
      | (with_reducible apply State.onEngine_onward)
      | (with_reducible apply State.onVce_onward)
      | (with_reducible apply State.onJob_onward)
      | with_reducible apply Onward.foldl
      | refine Onward.of_snd (by assumption) ?_
      | split
      | (with_reducible refine Onward.mk_same rfl ?_
         first
         | with_reducible assumption
         | (with_reducible apply State.event_onward)
         | (with_reducible apply State.onEngine_onward)
         | (with_reducible apply State.onVce_onward)
         | (with_reducible apply State.onJob_onward)
         | refine Onward.of_snd (by assumption) ?_)
      | intro _
      | extract_lets
      | dsimp (zeta := false) only
      | dsimp +zetaDelta only)
  try clear_value s3_
  repeat' (first
    | with_reducible assumption
    | (with_reducible apply State.event_onward)
    | (with_reducible apply State.onEngine_onward)
    | (with_reducible apply State.onVce_onward)
    | (with_reducible apply State.onJob_onward)
    | with_reducible apply Onward.foldl
    | refine Onward.of_snd (by assumption) ?_
    | split
    | (with_reducible refine Onward.mk_same rfl ?_
       first
       | with_reducible assumption
       | (with_reducible apply State.event_onward)
       | (with_reducible apply State.onEngine_onward)
       | (with_reducible apply State.onVce_onward)
       | (with_reducible apply State.onJob_onward)
       | refine Onward.of_snd (by assumption) ?_)
    | intro _
    | extract_lets
    | dsimp (zeta := false) only
    | dsimp +zetaDelta only)

theorem execSaveDone_onward (e : Nat) {s : State} {t : State} (ho : execSaveDone e s = .next t) : Onward s t := by
  unfold execSaveDone at ho
  injection ho with ho
  subst ho
  have ho := Onward.refl s
  repeat' (first
    | with_reducible assumption
    | (with_reducible apply State.writePlace_onward)
    | (with_reducible apply State.onEngine_onward)
    | (with_reducible apply State.frostJob_onward)
    | (with_reducible apply State.leaveRunning_onward)
    | (with_reducible apply State.onJob_onward)
    | with_reducible apply Onward.foldl
    | refine Onward.of_snd (by assumption) ?_
    | split
    | (with_reducible refine Onward.mk_same rfl ?_
       first
       | with_reducible assumption
       | (with_reducible apply State.writePlace_onward)
       | (with_reducible apply State.onEngine_onward)
       | (with_reducible apply State.frostJob_onward)
       | (with_reducible apply State.leaveRunning_onward)
       | (with_reducible apply State.onJob_onward)
       | refine Onward.of_snd (by assumption) ?_)
    | intro _
    | extract_lets
    | dsimp (zeta := false) only
    | dsimp +zetaDelta only)

theorem State.writeOut_onward {s₀ : State} {s : State} (x : Job) (o : Nat) (b : Bytes) (ho : Onward s₀ s) : Onward
    s₀ (State.writeOut s x o b) := by
  unfold State.writeOut
  repeat' (first
    | with_reducible assumption
    | (with_reducible apply State.request_onward)
    | with_reducible apply Onward.foldl
    | refine Onward.of_snd (by assumption) ?_
    | split
    | (with_reducible refine Onward.mk_same rfl ?_
       first
       | with_reducible assumption
       | (with_reducible apply State.request_onward)
       | refine Onward.of_snd (by assumption) ?_)
    | intro _
    | extract_lets
    | dsimp (zeta := false) only
    | dsimp +zetaDelta only)

theorem State.issueCounter_onward {s₀ : State} {s : State} (x : Job) (r : Result) (ho : Onward s₀ s) : Onward s₀
    (State.issueCounter s x r) := by
  unfold State.issueCounter
  repeat' (first
    | with_reducible assumption
    | with_reducible apply Onward.foldl
    | refine Onward.of_snd (by assumption) ?_
    | split
    | (with_reducible refine Onward.mk_same rfl ?_
       first | with_reducible assumption | refine Onward.of_snd (by assumption) ?_)
    | intro _
    | extract_lets
    | dsimp (zeta := false) only
    | dsimp +zetaDelta only)

theorem State.collect_onward {s₀ : State} {s : State} (j : Nat) (x : Job) (r : Result) (ho : Onward s₀ s) : Onward
    s₀ (State.collect s j x r) := by
  unfold State.collect
  extract_lets x0_ s1_ x2_
  have h_s1_ : Onward s₀ s1_ := by
    dsimp (zeta := false) only [s1_]
    repeat' (first
      | with_reducible assumption
      | (with_reducible apply State.writeOut_onward)
      | (with_reducible apply State.onJob_onward)
      | (with_reducible apply State.lapse_onward)
      | (with_reducible apply State.issueCounter_onward)
      | (with_reducible apply State.takeRb_onward)
      | with_reducible apply Onward.foldl
      | refine Onward.of_snd (by assumption) ?_
      | split
      | (with_reducible refine Onward.mk_same rfl ?_
         first
         | with_reducible assumption
         | (with_reducible apply State.writeOut_onward)
         | (with_reducible apply State.onJob_onward)
         | (with_reducible apply State.lapse_onward)
         | (with_reducible apply State.issueCounter_onward)
         | (with_reducible apply State.takeRb_onward)
         | refine Onward.of_snd (by assumption) ?_)
      | intro _
      | extract_lets
      | dsimp (zeta := false) only
      | dsimp +zetaDelta only)
  try clear_value s1_
  repeat' (first
    | with_reducible assumption
    | (with_reducible apply State.writeOut_onward)
    | (with_reducible apply State.onJob_onward)
    | (with_reducible apply State.lapse_onward)
    | (with_reducible apply State.issueCounter_onward)
    | (with_reducible apply State.takeRb_onward)
    | with_reducible apply Onward.foldl
    | refine Onward.of_snd (by assumption) ?_
    | split
    | (with_reducible refine Onward.mk_same rfl ?_
       first
       | with_reducible assumption
       | (with_reducible apply State.writeOut_onward)
       | (with_reducible apply State.onJob_onward)
       | (with_reducible apply State.lapse_onward)
       | (with_reducible apply State.issueCounter_onward)
       | (with_reducible apply State.takeRb_onward)
       | refine Onward.of_snd (by assumption) ?_)
    | intro _
    | extract_lets
    | dsimp (zeta := false) only
    | dsimp +zetaDelta only)

theorem execJobResult_onward (j : Nat) {s : State} {t : State} (ho : execJobResult j s = .next t) : Onward s t := by
  unfold execJobResult at ho
  injection ho with ho
  subst ho
  have ho := Onward.refl s
  repeat' (first | with_reducible assumption | with_reducible apply State.collect_onward | split)

theorem execFrostDone_onward (j : Nat) {s : State} {t : State} (ho : execFrostDone j s = .next t) : Onward s t := by
  unfold execFrostDone at ho
  injection ho with ho
  subst ho
  have ho := Onward.refl s
  repeat' (first
      | with_reducible assumption | with_reducible apply State.onJob_onward
      | with_reducible apply State.freeResult_onward | with_reducible apply Onward.foldl | split | intro _)

theorem execFlowRelease_onward (j : Nat) {s : State} {t : State} (ho : execFlowRelease j s = .next t) : Onward s t
    := by
  unfold execFlowRelease at ho
  injection ho with ho
  subst ho
  have ho := Onward.refl s
  extract_lets s0_
  have h_s0_ : Onward s s0_ := by
    dsimp (zeta := false) only [s0_]
    repeat' (first | with_reducible assumption | with_reducible apply State.issue_onward)
  try clear_value s0_
  repeat' (first | with_reducible assumption | with_reducible apply State.passHeld_onward | split)

theorem execRbEntryFree_onward {s : State} {t : State} (ho : execRbEntryFree s = .next t) : Onward s t := by
  unfold execRbEntryFree at ho
  injection ho with ho
  subst ho
  have ho := Onward.refl s
  repeat' (first
    | with_reducible assumption
    | (with_reducible apply State.putJob_onward)
    | with_reducible apply Onward.foldl
    | refine Onward.of_snd (by assumption) ?_
    | split
    | (with_reducible refine Onward.mk_same rfl ?_
       first
       | with_reducible assumption
       | (with_reducible apply State.putJob_onward)
       | refine Onward.of_snd (by assumption) ?_)
    | intro _
    | extract_lets
    | dsimp (zeta := false) only
    | dsimp +zetaDelta only)

theorem State.placeResult_onward {s₀ : State} {s : State} (e : Nat) (slot : Nat) (r : Result) (ho : Onward s₀ s) :
    Onward s₀ (State.placeResult s e slot r) := by
  unfold State.placeResult
  repeat' (first
    | with_reducible assumption
    | (with_reducible apply State.shares_onward)
    | (with_reducible apply State.onVce_onward)
    | with_reducible apply Onward.foldl
    | refine Onward.of_snd (by assumption) ?_
    | split
    | (with_reducible refine Onward.mk_same rfl ?_
       first
       | with_reducible assumption
       | (with_reducible apply State.shares_onward)
       | (with_reducible apply State.onVce_onward)
       | refine Onward.of_snd (by assumption) ?_)
    | intro _
    | extract_lets
    | dsimp (zeta := false) only
    | dsimp +zetaDelta only)

theorem State.stepLeaves_onward {s₀ : State} {s : State} (e : Nat) (j : Nat) (slot : Nat) (ho : Onward s₀ s) :
    Onward s₀ (State.stepLeaves s e j slot) := by
  unfold State.stepLeaves
  repeat' (first
    | with_reducible assumption
    | (with_reducible apply State.onEngine_onward)
    | (with_reducible apply State.frostJob_onward)
    | (with_reducible apply State.leaveRunning_onward)
    | (with_reducible apply State.placeResult_onward)
    | with_reducible apply Onward.foldl
    | refine Onward.of_snd (by assumption) ?_
    | split
    | (with_reducible refine Onward.mk_same rfl ?_
       first
       | with_reducible assumption
       | (with_reducible apply State.onEngine_onward)
       | (with_reducible apply State.frostJob_onward)
       | (with_reducible apply State.leaveRunning_onward)
       | (with_reducible apply State.placeResult_onward)
       | refine Onward.of_snd (by assumption) ?_)
    | intro _
    | extract_lets
    | dsimp (zeta := false) only
    | dsimp +zetaDelta only)

theorem State.instrFault_onward {s₀ : State} {s : State} (e : Nat) (cause : Nat) (index : Nat) (ho : Onward s₀ s) :
    Onward s₀ (State.instrFault s e cause index) := by
  unfold State.instrFault
  repeat' (first
      | with_reducible assumption | with_reducible apply State.event_onward
      | with_reducible apply State.finish_onward | split)

theorem execRunLimit_onward (e : Nat) {s : State} {t : State} (ho : execRunLimit e s = .next t) : Onward s t := by
  unfold execRunLimit at ho
  injection ho with ho
  subst ho
  have ho := Onward.refl s
  repeat' (first
      | with_reducible assumption | with_reducible apply State.instrFault_onward | split
      | with_reducible refine Onward.mk_same rfl ?_)

theorem State.countAborted_onward {s₀ : State} {s : State} (x : Job) (ho : Onward s₀ s) : Onward s₀
    (State.countAborted s x) := by
  unfold State.countAborted
  repeat' (first
    | with_reducible assumption
    | (with_reducible apply State.onSlice_onward)
    | with_reducible apply Onward.foldl
    | refine Onward.of_snd (by assumption) ?_
    | split
    | (with_reducible refine Onward.mk_same rfl ?_
       first
       | with_reducible assumption
       | (with_reducible apply State.onSlice_onward)
       | refine Onward.of_snd (by assumption) ?_)
    | intro _
    | extract_lets
    | dsimp (zeta := false) only
    | dsimp +zetaDelta only)

theorem State.safePoint_onward {s₀ : State} {s : State} (e : Nat) (round : Bool) (ho : Onward s₀ s) : Onward s₀
    (State.safePoint s e round) := by
  unfold State.safePoint
  extract_lets s0_
  have h_s0_ : Onward s₀ s0_ := by
    dsimp (zeta := false) only [s0_]
    repeat' (first
      | with_reducible assumption
      | (with_reducible apply State.onVce_onward)
      | (with_reducible apply State.finish_onward)
      | (with_reducible apply State.countAborted_onward)
      | (with_reducible apply State.frostEngine_onward)
      | (with_reducible apply State.dropRunning_onward)
      | (with_reducible apply State.instrFault_onward)
      | (with_reducible apply State.beginSave_onward)
      | (with_reducible apply State.matrixRound_onward)
      | with_reducible apply Onward.foldl
      | refine Onward.of_snd (by assumption) ?_
      | split
      | (with_reducible refine Onward.mk_same rfl ?_
         first
         | with_reducible assumption
         | (with_reducible apply State.onVce_onward)
         | (with_reducible apply State.finish_onward)
         | (with_reducible apply State.countAborted_onward)
         | (with_reducible apply State.frostEngine_onward)
         | (with_reducible apply State.dropRunning_onward)
         | (with_reducible apply State.instrFault_onward)
         | (with_reducible apply State.beginSave_onward)
         | (with_reducible apply State.matrixRound_onward)
         | refine Onward.of_snd (by assumption) ?_)
      | intro _
      | extract_lets
      | dsimp (zeta := false) only
      | dsimp +zetaDelta only)
  try clear_value s0_
  repeat' (first
    | with_reducible assumption
    | (with_reducible apply State.onVce_onward)
    | (with_reducible apply State.finish_onward)
    | (with_reducible apply State.countAborted_onward)
    | (with_reducible apply State.frostEngine_onward)
    | (with_reducible apply State.dropRunning_onward)
    | (with_reducible apply State.instrFault_onward)
    | (with_reducible apply State.beginSave_onward)
    | (with_reducible apply State.matrixRound_onward)
    | with_reducible apply Onward.foldl
    | refine Onward.of_snd (by assumption) ?_
    | split
    | (with_reducible refine Onward.mk_same rfl ?_
       first
       | with_reducible assumption
       | (with_reducible apply State.onVce_onward)
       | (with_reducible apply State.finish_onward)
       | (with_reducible apply State.countAborted_onward)
       | (with_reducible apply State.frostEngine_onward)
       | (with_reducible apply State.dropRunning_onward)
       | (with_reducible apply State.instrFault_onward)
       | (with_reducible apply State.beginSave_onward)
       | (with_reducible apply State.matrixRound_onward)
       | refine Onward.of_snd (by assumption) ?_)
    | intro _
    | extract_lets
    | dsimp (zeta := false) only
    | dsimp +zetaDelta only)

theorem execSafePointStop_onward (p : SafePoint) {s : State} {t : State} (ho : execSafePointStop p s = .next t) :
    Onward s t := by
  unfold execSafePointStop at ho
  injection ho with ho
  subst ho
  have ho := Onward.refl s
  repeat' (first
    | with_reducible assumption
    | (with_reducible apply State.safePoint_onward)
    | with_reducible apply Onward.foldl
    | refine Onward.of_snd (by assumption) ?_
    | split
    | (with_reducible refine Onward.mk_same rfl ?_
       first
       | with_reducible assumption
       | (with_reducible apply State.safePoint_onward)
       | refine Onward.of_snd (by assumption) ?_)
    | intro _
    | extract_lets
    | dsimp (zeta := false) only
    | dsimp +zetaDelta only)

theorem execRetireUnit_onward (e : Nat) (criterion : Nat) {s : State} {t : State} (ho : execRetireUnit e criterion s
    = .next t) : Onward s t := by
  unfold execRetireUnit at ho
  injection ho with ho
  subst ho
  have ho := Onward.refl s
  repeat' (first
      | with_reducible assumption | with_reducible apply State.onEngine_onward
      | with_reducible apply State.unstage_onward | with_reducible apply State.retire_onward | split
      | with_reducible refine Onward.mk_same rfl ?_)

theorem execSpareBringIn_onward (spare : Nat) (old : Nat) {s : State} {t : State} (ho : execSpareBringIn spare old s
    = .next t) : Onward s t := by
  unfold execSpareBringIn at ho
  injection ho with ho
  subst ho
  have ho := Onward.refl s
  extract_lets x0_ s1_ s2_ s3_
  have h_s1_ : Onward s s1_ := by
    dsimp (zeta := false) only [s1_]
    repeat' (first
      | with_reducible assumption
      | (with_reducible apply State.onEngine_onward)
      | (with_reducible apply State.recordMap_onward)
      | (with_reducible apply State.event_onward)
      | (with_reducible apply State.ungate_onward)
      | (with_reducible apply State.frostEngine_onward)
      | with_reducible apply Onward.foldl
      | refine Onward.of_snd (by assumption) ?_
      | split
      | (with_reducible refine Onward.mk_same rfl ?_
         first
         | with_reducible assumption
         | (with_reducible apply State.onEngine_onward)
         | (with_reducible apply State.recordMap_onward)
         | (with_reducible apply State.event_onward)
         | (with_reducible apply State.ungate_onward)
         | (with_reducible apply State.frostEngine_onward)
         | refine Onward.of_snd (by assumption) ?_)
      | intro _
      | extract_lets
      | dsimp (zeta := false) only
      | dsimp +zetaDelta only)
  try clear_value s1_
  have h_s2_ : Onward s s2_ := by
    dsimp (zeta := false) only [s2_]
    repeat' (first
      | with_reducible assumption
      | (with_reducible apply State.onEngine_onward)
      | (with_reducible apply State.recordMap_onward)
      | (with_reducible apply State.event_onward)
      | (with_reducible apply State.ungate_onward)
      | (with_reducible apply State.frostEngine_onward)
      | with_reducible apply Onward.foldl
      | refine Onward.of_snd (by assumption) ?_
      | split
      | (with_reducible refine Onward.mk_same rfl ?_
         first
         | with_reducible assumption
         | (with_reducible apply State.onEngine_onward)
         | (with_reducible apply State.recordMap_onward)
         | (with_reducible apply State.event_onward)
         | (with_reducible apply State.ungate_onward)
         | (with_reducible apply State.frostEngine_onward)
         | refine Onward.of_snd (by assumption) ?_)
      | intro _
      | extract_lets
      | dsimp (zeta := false) only
      | dsimp +zetaDelta only)
  try clear_value s2_
  have h_s3_ : Onward s s3_ := by
    dsimp (zeta := false) only [s3_]
    repeat' (first
      | with_reducible assumption
      | (with_reducible apply State.onEngine_onward)
      | (with_reducible apply State.recordMap_onward)
      | (with_reducible apply State.event_onward)
      | (with_reducible apply State.ungate_onward)
      | (with_reducible apply State.frostEngine_onward)
      | with_reducible apply Onward.foldl
      | refine Onward.of_snd (by assumption) ?_
      | split
      | (with_reducible refine Onward.mk_same rfl ?_
         first
         | with_reducible assumption
         | (with_reducible apply State.onEngine_onward)
         | (with_reducible apply State.recordMap_onward)
         | (with_reducible apply State.event_onward)
         | (with_reducible apply State.ungate_onward)
         | (with_reducible apply State.frostEngine_onward)
         | refine Onward.of_snd (by assumption) ?_)
      | intro _
      | extract_lets
      | dsimp (zeta := false) only
      | dsimp +zetaDelta only)
  try clear_value s3_
  repeat' (first
    | with_reducible assumption
    | (with_reducible apply State.onEngine_onward)
    | (with_reducible apply State.recordMap_onward)
    | (with_reducible apply State.event_onward)
    | (with_reducible apply State.ungate_onward)
    | (with_reducible apply State.frostEngine_onward)
    | with_reducible apply Onward.foldl
    | refine Onward.of_snd (by assumption) ?_
    | split
    | (with_reducible refine Onward.mk_same rfl ?_
       first
       | with_reducible assumption
       | (with_reducible apply State.onEngine_onward)
       | (with_reducible apply State.recordMap_onward)
       | (with_reducible apply State.event_onward)
       | (with_reducible apply State.ungate_onward)
       | (with_reducible apply State.frostEngine_onward)
       | refine Onward.of_snd (by assumption) ?_)
    | intro _
    | extract_lets
    | dsimp (zeta := false) only
    | dsimp +zetaDelta only)

theorem State.repairRows_onward {s₀ s : State} (e : Nat) (h : Onward s₀ s) : Onward s₀ (s.repairRows e) := by
  unfold State.repairRows
  extract_lets n s1
  split
  · exact h
  · have h1 : Onward s₀ s1 := State.onEngine_onward h
    clear_value s1
    exact State.event_onward _ _ _ _ _ _ (h1.same rfl)

theorem State.repairAll_onward {s₀ : State} {s : State} (ho : Onward s₀ s) : Onward s₀ (State.repairAll s) := by
  unfold State.repairAll
  extract_lets s0_ x1_ x2_
  have h_s0_ : Onward s₀ s0_ := by
    dsimp (zeta := false) only [s0_]
    repeat' (first
      | with_reducible assumption
      | (with_reducible apply State.repairRows_onward)
      | (with_reducible apply State.event_onward)
      | with_reducible apply Onward.foldl
      | refine Onward.of_snd (by assumption) ?_
      | split
      | (with_reducible refine Onward.mk_same rfl ?_
         first
         | with_reducible assumption
         | (with_reducible apply State.repairRows_onward)
         | (with_reducible apply State.event_onward)
         | refine Onward.of_snd (by assumption) ?_)
      | intro _
      | extract_lets
      | dsimp (zeta := false) only
      | dsimp +zetaDelta only)
  try clear_value s0_
  repeat' (first
    | with_reducible assumption
    | (with_reducible apply State.repairRows_onward)
    | (with_reducible apply State.event_onward)
    | with_reducible apply Onward.foldl
    | refine Onward.of_snd (by assumption) ?_
    | split
    | (with_reducible refine Onward.mk_same rfl ?_
       first
       | with_reducible assumption
       | (with_reducible apply State.repairRows_onward)
       | (with_reducible apply State.event_onward)
       | refine Onward.of_snd (by assumption) ?_)
    | intro _
    | extract_lets
    | dsimp (zeta := false) only
    | dsimp +zetaDelta only)

theorem execQuarantineTestEnd_onward (e : Nat) (pass : Bool) {s : State} {t : State} (ho : execQuarantineTestEnd e
    pass s = .next t) : Onward s t := by
  unfold execQuarantineTestEnd at ho
  injection ho with ho
  subst ho
  have ho := Onward.refl s
  extract_lets x0_ s1_
  have h_s1_ : Onward s s1_ := by
    dsimp (zeta := false) only [s1_]
    repeat' (first
      | with_reducible assumption
      | (with_reducible apply State.repairRows_onward)
      | (with_reducible apply State.retire_onward)
      | (with_reducible apply State.event_onward)
      | (with_reducible apply State.onEngine_onward)
      | (with_reducible apply State.loadConsts_onward)
      | with_reducible apply Onward.foldl
      | refine Onward.of_snd (by assumption) ?_
      | split
      | (with_reducible refine Onward.mk_same rfl ?_
         first
         | with_reducible assumption
         | (with_reducible apply State.repairRows_onward)
         | (with_reducible apply State.retire_onward)
         | (with_reducible apply State.event_onward)
         | (with_reducible apply State.onEngine_onward)
         | (with_reducible apply State.loadConsts_onward)
         | refine Onward.of_snd (by assumption) ?_)
      | intro _
      | extract_lets
      | dsimp (zeta := false) only
      | dsimp +zetaDelta only)
  try clear_value s1_
  repeat' (first
    | with_reducible assumption
    | (with_reducible apply State.repairRows_onward)
    | (with_reducible apply State.retire_onward)
    | (with_reducible apply State.event_onward)
    | (with_reducible apply State.onEngine_onward)
    | (with_reducible apply State.loadConsts_onward)
    | with_reducible apply Onward.foldl
    | refine Onward.of_snd (by assumption) ?_
    | split
    | (with_reducible refine Onward.mk_same rfl ?_
       first
       | with_reducible assumption
       | (with_reducible apply State.repairRows_onward)
       | (with_reducible apply State.retire_onward)
       | (with_reducible apply State.event_onward)
       | (with_reducible apply State.onEngine_onward)
       | (with_reducible apply State.loadConsts_onward)
       | refine Onward.of_snd (by assumption) ?_)
    | intro _
    | extract_lets
    | dsimp (zeta := false) only
    | dsimp +zetaDelta only)

theorem execPoolLow_onward (e : Nat) {s : State} {t : State} (ho : execPoolLow e s = .next t) : Onward s t := by
  unfold execPoolLow at ho
  injection ho with ho
  subst ho
  have ho := Onward.refl s
  extract_lets x0_ s1_
  have h_s1_ : Onward s s1_ := by
    dsimp (zeta := false) only [s1_]
    repeat' (first | with_reducible assumption | with_reducible refine Onward.mk_same rfl ?_)
  try clear_value s1_
  repeat' (first | with_reducible assumption | with_reducible apply State.event_onward | split)

theorem State.sampleAging_onward {s₀ : State} {s : State} (e : Nat) (margins : List Nat) (temp : Nat) (ho : Onward
    s₀ s) : Onward s₀ (State.sampleAging s e margins temp) := by
  unfold State.sampleAging
  extract_lets x0_ x1_ x2_ s3_ x4_ s5_ x6_
  have h_s3_ : Onward s₀ s3_ := by
    dsimp (zeta := false) only [s3_]
    repeat' (first
      | with_reducible assumption
      | (with_reducible apply State.onEngine_onward)
      | (with_reducible apply State.unstage_onward)
      | (with_reducible apply State.retire_onward)
      | (with_reducible apply State.event_onward)
      | with_reducible apply Onward.foldl
      | refine Onward.of_snd (by assumption) ?_
      | split
      | (with_reducible refine Onward.mk_same rfl ?_
         first
         | with_reducible assumption
         | (with_reducible apply State.onEngine_onward)
         | (with_reducible apply State.unstage_onward)
         | (with_reducible apply State.retire_onward)
         | (with_reducible apply State.event_onward)
         | refine Onward.of_snd (by assumption) ?_)
      | intro _
      | extract_lets
      | dsimp (zeta := false) only
      | dsimp +zetaDelta only)
  try clear_value s3_
  have h_s5_ : Onward s₀ s5_ := by
    dsimp (zeta := false) only [s5_]
    repeat' (first
      | with_reducible assumption
      | (with_reducible apply State.onEngine_onward)
      | (with_reducible apply State.unstage_onward)
      | (with_reducible apply State.retire_onward)
      | (with_reducible apply State.event_onward)
      | with_reducible apply Onward.foldl
      | refine Onward.of_snd (by assumption) ?_
      | split
      | (with_reducible refine Onward.mk_same rfl ?_
         first
         | with_reducible assumption
         | (with_reducible apply State.onEngine_onward)
         | (with_reducible apply State.unstage_onward)
         | (with_reducible apply State.retire_onward)
         | (with_reducible apply State.event_onward)
         | refine Onward.of_snd (by assumption) ?_)
      | intro _
      | extract_lets
      | dsimp (zeta := false) only
      | dsimp +zetaDelta only)
  try clear_value s5_
  repeat' (first
    | with_reducible assumption
    | (with_reducible apply State.onEngine_onward)
    | (with_reducible apply State.unstage_onward)
    | (with_reducible apply State.retire_onward)
    | (with_reducible apply State.event_onward)
    | with_reducible apply Onward.foldl
    | refine Onward.of_snd (by assumption) ?_
    | split
    | (with_reducible refine Onward.mk_same rfl ?_
       first
       | with_reducible assumption
       | (with_reducible apply State.onEngine_onward)
       | (with_reducible apply State.unstage_onward)
       | (with_reducible apply State.retire_onward)
       | (with_reducible apply State.event_onward)
       | refine Onward.of_snd (by assumption) ?_)
    | intro _
    | extract_lets
    | dsimp (zeta := false) only
    | dsimp +zetaDelta only)

theorem execAgingSample_onward (e : Nat) (margin : List Nat) (temp : Nat) {s : State} {t : State} (ho :
    execAgingSample e margin temp s = .next t) : Onward s t := by
  unfold execAgingSample at ho
  injection ho with ho
  subst ho
  have ho := Onward.refl s
  repeat' (first
    | with_reducible assumption
    | (with_reducible apply State.sampleAging_onward)
    | with_reducible apply Onward.foldl
    | refine Onward.of_snd (by assumption) ?_
    | split
    | (with_reducible refine Onward.mk_same rfl ?_
       first
       | with_reducible assumption
       | (with_reducible apply State.sampleAging_onward)
       | refine Onward.of_snd (by assumption) ?_)
    | intro _
    | extract_lets
    | dsimp (zeta := false) only
    | dsimp +zetaDelta only)

theorem State.retryJob_onward {s₀ : State} {s : State} (e : Nat) (j : Nat) (k : Nat) (ho : Onward s₀ s) : Onward s₀
    (State.retryJob s e j k) := by
  unfold State.retryJob
  extract_lets s0_
  have h_s0_ : Onward s₀ s0_ := by
    dsimp (zeta := false) only [s0_]
    repeat' (first | with_reducible assumption | with_reducible apply State.onJob_onward)
  try clear_value s0_
  repeat' (first | with_reducible assumption | with_reducible apply State.event_onward | split)

theorem State.faultJob_onward {s₀ : State} {s : State} (e : Nat) (st : Status) (retry : Bool) (ho : Onward s₀ s) :
    Onward s₀ (State.faultJob s e st retry) := by
  unfold State.faultJob
  repeat' (first
    | with_reducible assumption
    | (with_reducible apply State.dropRunning_onward)
    | (with_reducible apply State.finish_onward)
    | (with_reducible apply State.retryJob_onward)
    | (with_reducible apply State.frostJob_onward)
    | (with_reducible apply State.leaveRunning_onward)
    | with_reducible apply Onward.foldl
    | refine Onward.of_snd (by assumption) ?_
    | split
    | (with_reducible refine Onward.mk_same rfl ?_
       first
       | with_reducible assumption
       | (with_reducible apply State.dropRunning_onward)
       | (with_reducible apply State.finish_onward)
       | (with_reducible apply State.retryJob_onward)
       | (with_reducible apply State.frostJob_onward)
       | (with_reducible apply State.leaveRunning_onward)
       | refine Onward.of_snd (by assumption) ?_)
    | intro _
    | extract_lets
    | dsimp (zeta := false) only
    | dsimp +zetaDelta only)

theorem State.countFault_onward {s₀ : State} {s : State} (e : Nat) (cause : Nat) (ho : Onward s₀ s) : Onward s₀
    (State.countFault s e cause) := by
  unfold State.countFault
  repeat' (first | with_reducible assumption | with_reducible apply State.onEngine_onward)

theorem State.markRow_onward {s₀ s : State} (e : Nat) (h : Onward s₀ s) : Onward s₀ (s.markRow e) :=
  State.event_onward _ _ _ _ _ _ (State.onEngine_onward (State.draw_onward (n := 4) h))

theorem State.markRows_onward {s₀ s : State} (e n : Nat) (h : Onward s₀ s) : Onward s₀ (s.markRows e n) :=
  Onward.foldl (fun _ _ h => State.markRow_onward e h) h

theorem State.retract_onward {s₀ s : State} (j : Nat) (x : Job) (r : Result) (h : Onward s₀ s) :
    Onward s₀ (s.retract j x r) := by
  unfold State.retract
  extract_lets s1
  have h1 : Onward s₀ s1 := by
    dsimp (zeta := false) only [s1]
    repeat' (first | with_reducible assumption | with_reducible apply State.freeSlot_onward | split)
  clear_value s1
  exact State.dropRecords_onward _ h1

theorem State.loseResult_onward {s₀ s : State} (e j : Nat) (st : Status) (h : Onward s₀ s) :
    Onward s₀ (s.loseResult e j st) := by
  unfold State.loseResult
  extract_lets s1
  have h1 : Onward s₀ s1 := State.freeResult_onward e j h
  clear_value s1
  split
  · exact h1
  · split
    · exact h1
    · split
      · exact h1
      · rename_i x _ _ r _ _
        have h2 := State.retract_onward j x r h1
        repeat' (first
            | with_reducible assumption | with_reducible apply State.finish_onward
            | with_reducible apply State.retryJob_onward | split)

theorem State.readBack_onward {s₀ s : State} (e : Nat) (st : Status) (bad : List Nat) (h : Onward s₀ s) :
    Onward s₀ (s.readBack e st bad) :=
  Onward.foldl (fun s r h => State.loseResult_onward e r.1 st h) (State.markRows_onward e _ h)

theorem State.engineFault_onward {s₀ : State} {s : State} (e : Nat) (cause : Nat) (bad : List Nat) (ho : Onward s₀
    s) : Onward s₀ (State.engineFault s e cause bad) := by
  unfold State.engineFault
  extract_lets x0_ s1_ s2_ s3_
  have h_s1_ : Onward s₀ s1_ := by
    dsimp (zeta := false) only [s1_]
    repeat' (first
      | with_reducible assumption
      | (with_reducible apply State.reportUnit_onward)
      | (with_reducible apply State.markRows_onward)
      | (with_reducible apply State.countFault_onward)
      | (with_reducible apply State.readBack_onward)
      | (with_reducible apply State.unstage_onward)
      | (with_reducible apply State.faultJob_onward)
      | (with_reducible apply State.onEngine_onward)
      | (with_reducible apply State.frostEngine_onward)
      | (with_reducible apply State.quarantine_onward)
      | with_reducible apply Onward.foldl
      | refine Onward.of_snd (by assumption) ?_
      | split
      | (with_reducible refine Onward.mk_same rfl ?_
         first
         | with_reducible assumption
         | (with_reducible apply State.reportUnit_onward)
         | (with_reducible apply State.markRows_onward)
         | (with_reducible apply State.countFault_onward)
         | (with_reducible apply State.readBack_onward)
         | (with_reducible apply State.unstage_onward)
         | (with_reducible apply State.faultJob_onward)
         | (with_reducible apply State.onEngine_onward)
         | (with_reducible apply State.frostEngine_onward)
         | (with_reducible apply State.quarantine_onward)
         | refine Onward.of_snd (by assumption) ?_)
      | intro _
      | extract_lets
      | dsimp (zeta := false) only
      | dsimp +zetaDelta only)
  try clear_value s1_
  have h_s2_ : Onward s₀ s2_ := by
    dsimp (zeta := false) only [s2_]
    repeat' (first
      | with_reducible assumption
      | (with_reducible apply State.reportUnit_onward)
      | (with_reducible apply State.markRows_onward)
      | (with_reducible apply State.countFault_onward)
      | (with_reducible apply State.readBack_onward)
      | (with_reducible apply State.unstage_onward)
      | (with_reducible apply State.faultJob_onward)
      | (with_reducible apply State.onEngine_onward)
      | (with_reducible apply State.frostEngine_onward)
      | (with_reducible apply State.quarantine_onward)
      | with_reducible apply Onward.foldl
      | refine Onward.of_snd (by assumption) ?_
      | split
      | (with_reducible refine Onward.mk_same rfl ?_
         first
         | with_reducible assumption
         | (with_reducible apply State.reportUnit_onward)
         | (with_reducible apply State.markRows_onward)
         | (with_reducible apply State.countFault_onward)
         | (with_reducible apply State.readBack_onward)
         | (with_reducible apply State.unstage_onward)
         | (with_reducible apply State.faultJob_onward)
         | (with_reducible apply State.onEngine_onward)
         | (with_reducible apply State.frostEngine_onward)
         | (with_reducible apply State.quarantine_onward)
         | refine Onward.of_snd (by assumption) ?_)
      | intro _
      | extract_lets
      | dsimp (zeta := false) only
      | dsimp +zetaDelta only)
  try clear_value s2_
  have h_s3_ : Onward s₀ s3_ := by
    dsimp (zeta := false) only [s3_]
    repeat' (first
      | with_reducible assumption
      | (with_reducible apply State.reportUnit_onward)
      | (with_reducible apply State.markRows_onward)
      | (with_reducible apply State.countFault_onward)
      | (with_reducible apply State.readBack_onward)
      | (with_reducible apply State.unstage_onward)
      | (with_reducible apply State.faultJob_onward)
      | (with_reducible apply State.onEngine_onward)
      | (with_reducible apply State.frostEngine_onward)
      | (with_reducible apply State.quarantine_onward)
      | with_reducible apply Onward.foldl
      | refine Onward.of_snd (by assumption) ?_
      | split
      | (with_reducible refine Onward.mk_same rfl ?_
         first
         | with_reducible assumption
         | (with_reducible apply State.reportUnit_onward)
         | (with_reducible apply State.markRows_onward)
         | (with_reducible apply State.countFault_onward)
         | (with_reducible apply State.readBack_onward)
         | (with_reducible apply State.unstage_onward)
         | (with_reducible apply State.faultJob_onward)
         | (with_reducible apply State.onEngine_onward)
         | (with_reducible apply State.frostEngine_onward)
         | (with_reducible apply State.quarantine_onward)
         | refine Onward.of_snd (by assumption) ?_)
      | intro _
      | extract_lets
      | dsimp (zeta := false) only
      | dsimp +zetaDelta only)
  try clear_value s3_
  repeat' (first
    | with_reducible assumption
    | (with_reducible apply State.reportUnit_onward)
    | (with_reducible apply State.markRows_onward)
    | (with_reducible apply State.countFault_onward)
    | (with_reducible apply State.readBack_onward)
    | (with_reducible apply State.unstage_onward)
    | (with_reducible apply State.faultJob_onward)
    | (with_reducible apply State.onEngine_onward)
    | (with_reducible apply State.frostEngine_onward)
    | (with_reducible apply State.quarantine_onward)
    | with_reducible apply Onward.foldl
    | refine Onward.of_snd (by assumption) ?_
    | split
    | (with_reducible refine Onward.mk_same rfl ?_
       first
       | with_reducible assumption
       | (with_reducible apply State.reportUnit_onward)
       | (with_reducible apply State.markRows_onward)
       | (with_reducible apply State.countFault_onward)
       | (with_reducible apply State.readBack_onward)
       | (with_reducible apply State.unstage_onward)
       | (with_reducible apply State.faultJob_onward)
       | (with_reducible apply State.onEngine_onward)
       | (with_reducible apply State.frostEngine_onward)
       | (with_reducible apply State.quarantine_onward)
       | refine Onward.of_snd (by assumption) ?_)
    | intro _
    | extract_lets
    | dsimp (zeta := false) only
    | dsimp +zetaDelta only)

theorem execEngineFaultDetect_onward (e : Nat) (cause : Nat) (bad : List Nat) {s : State} {t : State} (ho :
    execEngineFaultDetect e cause bad s = .next t) : Onward s t := by
  unfold execEngineFaultDetect at ho
  injection ho with ho
  subst ho
  have ho := Onward.refl s
  repeat' (first
    | with_reducible assumption
    | (with_reducible apply State.reportUnit_onward)
    | (with_reducible apply State.countFault_onward)
    | (with_reducible apply State.engineFault_onward)
    | with_reducible apply Onward.foldl
    | refine Onward.of_snd (by assumption) ?_
    | split
    | (with_reducible refine Onward.mk_same rfl ?_
       first
       | with_reducible assumption
       | (with_reducible apply State.reportUnit_onward)
       | (with_reducible apply State.countFault_onward)
       | (with_reducible apply State.engineFault_onward)
       | refine Onward.of_snd (by assumption) ?_)
    | intro _
    | extract_lets
    | dsimp (zeta := false) only
    | dsimp +zetaDelta only)

theorem State.machineCheck_onward {s₀ : State} {s : State} (e : Nat) (cause : Nat) (addr : Nat) (bad : optParam
    (List Nat) []) (ho : Onward s₀ s) : Onward s₀ (State.machineCheck s e cause addr bad) := by
  unfold State.machineCheck
  extract_lets x0_ s1_ s2_ s3_
  have h_s1_ : Onward s₀ s1_ := by
    dsimp (zeta := false) only [s1_]
    repeat' (first
      | with_reducible assumption
      | (with_reducible apply State.reportUnit_onward)
      | (with_reducible apply State.countFault_onward)
      | (with_reducible apply State.loadConsts_onward)
      | (with_reducible apply State.frostEngine_onward)
      | (with_reducible apply State.readBack_onward)
      | (with_reducible apply State.unstage_onward)
      | (with_reducible apply State.faultJob_onward)
      | (with_reducible apply State.onEngine_onward)
      | (with_reducible apply State.quarantine_onward)
      | with_reducible apply Onward.foldl
      | refine Onward.of_snd (by assumption) ?_
      | split
      | (with_reducible refine Onward.mk_same rfl ?_
         first
         | with_reducible assumption
         | (with_reducible apply State.reportUnit_onward)
         | (with_reducible apply State.countFault_onward)
         | (with_reducible apply State.loadConsts_onward)
         | (with_reducible apply State.frostEngine_onward)
         | (with_reducible apply State.readBack_onward)
         | (with_reducible apply State.unstage_onward)
         | (with_reducible apply State.faultJob_onward)
         | (with_reducible apply State.onEngine_onward)
         | (with_reducible apply State.quarantine_onward)
         | refine Onward.of_snd (by assumption) ?_)
      | intro _
      | extract_lets
      | dsimp (zeta := false) only
      | dsimp +zetaDelta only)
  try clear_value s1_
  have h_s2_ : Onward s₀ s2_ := by
    dsimp (zeta := false) only [s2_]
    repeat' (first
      | with_reducible assumption
      | (with_reducible apply State.reportUnit_onward)
      | (with_reducible apply State.countFault_onward)
      | (with_reducible apply State.loadConsts_onward)
      | (with_reducible apply State.frostEngine_onward)
      | (with_reducible apply State.readBack_onward)
      | (with_reducible apply State.unstage_onward)
      | (with_reducible apply State.faultJob_onward)
      | (with_reducible apply State.onEngine_onward)
      | (with_reducible apply State.quarantine_onward)
      | with_reducible apply Onward.foldl
      | refine Onward.of_snd (by assumption) ?_
      | split
      | (with_reducible refine Onward.mk_same rfl ?_
         first
         | with_reducible assumption
         | (with_reducible apply State.reportUnit_onward)
         | (with_reducible apply State.countFault_onward)
         | (with_reducible apply State.loadConsts_onward)
         | (with_reducible apply State.frostEngine_onward)
         | (with_reducible apply State.readBack_onward)
         | (with_reducible apply State.unstage_onward)
         | (with_reducible apply State.faultJob_onward)
         | (with_reducible apply State.onEngine_onward)
         | (with_reducible apply State.quarantine_onward)
         | refine Onward.of_snd (by assumption) ?_)
      | intro _
      | extract_lets
      | dsimp (zeta := false) only
      | dsimp +zetaDelta only)
  try clear_value s2_
  have h_s3_ : Onward s₀ s3_ := by
    dsimp (zeta := false) only [s3_]
    repeat' (first
      | with_reducible assumption
      | (with_reducible apply State.reportUnit_onward)
      | (with_reducible apply State.countFault_onward)
      | (with_reducible apply State.loadConsts_onward)
      | (with_reducible apply State.frostEngine_onward)
      | (with_reducible apply State.readBack_onward)
      | (with_reducible apply State.unstage_onward)
      | (with_reducible apply State.faultJob_onward)
      | (with_reducible apply State.onEngine_onward)
      | (with_reducible apply State.quarantine_onward)
      | with_reducible apply Onward.foldl
      | refine Onward.of_snd (by assumption) ?_
      | split
      | (with_reducible refine Onward.mk_same rfl ?_
         first
         | with_reducible assumption
         | (with_reducible apply State.reportUnit_onward)
         | (with_reducible apply State.countFault_onward)
         | (with_reducible apply State.loadConsts_onward)
         | (with_reducible apply State.frostEngine_onward)
         | (with_reducible apply State.readBack_onward)
         | (with_reducible apply State.unstage_onward)
         | (with_reducible apply State.faultJob_onward)
         | (with_reducible apply State.onEngine_onward)
         | (with_reducible apply State.quarantine_onward)
         | refine Onward.of_snd (by assumption) ?_)
      | intro _
      | extract_lets
      | dsimp (zeta := false) only
      | dsimp +zetaDelta only)
  try clear_value s3_
  repeat' (first
    | with_reducible assumption
    | (with_reducible apply State.reportUnit_onward)
    | (with_reducible apply State.countFault_onward)
    | (with_reducible apply State.loadConsts_onward)
    | (with_reducible apply State.frostEngine_onward)
    | (with_reducible apply State.readBack_onward)
    | (with_reducible apply State.unstage_onward)
    | (with_reducible apply State.faultJob_onward)
    | (with_reducible apply State.onEngine_onward)
    | (with_reducible apply State.quarantine_onward)
    | with_reducible apply Onward.foldl
    | refine Onward.of_snd (by assumption) ?_
    | split
    | (with_reducible refine Onward.mk_same rfl ?_
       first
       | with_reducible assumption
       | (with_reducible apply State.reportUnit_onward)
       | (with_reducible apply State.countFault_onward)
       | (with_reducible apply State.loadConsts_onward)
       | (with_reducible apply State.frostEngine_onward)
       | (with_reducible apply State.readBack_onward)
       | (with_reducible apply State.unstage_onward)
       | (with_reducible apply State.faultJob_onward)
       | (with_reducible apply State.onEngine_onward)
       | (with_reducible apply State.quarantine_onward)
       | refine Onward.of_snd (by assumption) ?_)
    | intro _
    | extract_lets
    | dsimp (zeta := false) only
    | dsimp +zetaDelta only)

theorem execMachineCheck_onward (e cause addr : Nat) (bad : List Nat) {s t : State}
    (h : execMachineCheck e cause addr bad s = .next t) : Onward s t := by
  unfold execMachineCheck at h
  injection h with h
  subst h
  split
  · exact State.machineCheck_onward _ _ _ _ (Onward.refl s)
  · exact Onward.refl s

theorem execWatchdog_onward (e : Nat) {s : State} {t : State} (ho : execWatchdog e s = .next t) : Onward s t := by
  unfold execWatchdog at ho
  injection ho with ho
  subst ho
  have ho := Onward.refl s
  repeat' (first | with_reducible assumption | with_reducible apply State.machineCheck_onward | split)

theorem State.gateEngine_onward {s₀ : State} {s : State} (e : Nat) (ho : Onward s₀ s) : Onward s₀ (State.gateEngine
    s e) := by
  unfold State.gateEngine
  extract_lets s0_ x1_
  have h_s0_ : Onward s₀ s0_ := by
    dsimp (zeta := false) only [s0_]
    repeat' (first
        | with_reducible assumption | with_reducible apply State.onEngine_onward
        | with_reducible apply State.frostEngine_onward)
  try clear_value s0_
  repeat' (first | with_reducible assumption | split | with_reducible refine Onward.mk_same rfl ?_)

theorem execEngineGate_onward (e : Nat) {s : State} {t : State} (ho : execEngineGate e s = .next t) : Onward s t := by
  unfold execEngineGate at ho
  injection ho with ho
  subst ho
  have ho := Onward.refl s
  repeat' (first
      | with_reducible assumption | with_reducible apply State.gateEngine_onward | split
      | with_reducible refine Onward.mk_same rfl ?_)

theorem execThaw_onward (e : Nat) {s : State} {t : State} (ho : execThaw e s = .next t) : Onward s t := by
  unfold execThaw at ho
  injection ho with ho
  subst ho
  have ho := Onward.refl s
  repeat' (first
      | with_reducible assumption | with_reducible apply State.onEngine_onward | split
      | with_reducible refine Onward.mk_same rfl ?_)

theorem execThawComplete_onward {s u : State} (z : ThawEnd) (ho : execThawComplete z s = .next u) : Onward s u := by
  unfold execThawComplete at ho
  injection ho with ho
  subst ho
  extract_lets +onlyGivenNames e
  split
  · extract_lets +onlyGivenNames s1
    have h1 : Onward s s1 := State.onEngine_onward (State.loadConsts_onward _ (State.frostEngine_onward _
        (Onward.refl s)))
    clear_value s1
    have hf : ∀ v : State, Onward s v → Onward s
        (let w := if z.margins = [] then v else v.sampleAging e z.margins z.temp
         if clsOf e = .vce ∧ !z.testOk ∧ (w.engine e).unit = .active then w.engineFault e 0x07 [] else w) := by
      intro v hv
      extract_lets w
      have hw : Onward s w := Onward.ite hv (State.sampleAging_onward _ _ _ hv)
      clear_value w
      exact Onward.ite (State.engineFault_onward _ _ _ hw) hw
    refine hf _ ?_
    split
    · exact h1.same rfl
    · exact h1
  · exact Onward.refl s

end Sys2Proof.Machine
end

