-- ==== Sys2Proof/Laws/OnwardCompute.lean ====
section
/-! SUPPORT. Job operations and kernels.
Each lemma: the operation goes onward (`Onward`). -/

namespace Sys2Proof.Machine

set_option linter.all false
-- In order, so that a build of the package as one text needs few threads.
set_option Elab.async false

theorem State.produce_onward {s₀ : State} {s : State} (j : Nat) (r : Result) (ho : Onward s₀ s) : Onward s₀
    (State.produce s j r) := by
  unfold State.produce
  extract_lets s0_
  have h_s0_ : Onward s₀ s0_ := by
    dsimp (zeta := false) only [s0_]
    repeat' (first | with_reducible assumption | with_reducible apply State.onJob_onward)
  try clear_value s0_
  repeat' (first | with_reducible assumption | with_reducible apply State.stepLeaves_onward | split)

theorem State.compute_onward {s₀ : State} {s : State} (j : Nat) (fam : Nat) (op : Nat) (f : Job → State → Result ×
    State) (hf : ∀ a0 a1, Onward s₀ a1 → Onward s₀ (f a0 a1).2) (ho : Onward s₀ s) : Onward s₀ (State.compute s j
    fam op f) := by
  unfold State.compute
  repeat' (first
      | with_reducible assumption | with_reducible apply State.produce_onward | with_reducible apply hf | split)

theorem State.deliver_onward {s₀ : State} {s : State} (x : Job) (pub : Bytes) (alg : Nat) (body : Bytes) (policy :
    Nat) (ho : Onward s₀ s) : Onward s₀ (State.deliver s x pub alg body policy).2 := by
  unfold State.deliver
  repeat' (first
      | with_reducible assumption | with_reducible apply State.newKey_onward
      | with_reducible apply State.placeKey_onward | refine Onward.of_snd (by assumption) ?_ | split)

theorem State.giveSecret_onward {s₀ : State} {s : State} (x : Job) (pub : Bytes) (secret : Bytes) (imported : Bool)
    (ho : Onward s₀ s) : Onward s₀ (State.giveSecret s x pub secret imported).2 := by
  unfold State.giveSecret
  repeat' (first | with_reducible assumption | with_reducible apply State.deliver_onward | split)

theorem State.giveKey_onward {s₀ : State} {s : State} (x : Job) (pub : Bytes) (body : Bytes) (ho : Onward s₀ s) :
    Onward s₀ (State.giveKey s x pub body).2 := by
  unfold State.giveKey
  repeat' (first | with_reducible assumption | with_reducible apply State.deliver_onward)

theorem kemGenJob_onward {s₀ : State} (x : Job) {s : State} (ho : Onward s₀ s) : Onward s₀ (kemGenJob x s).2 := by
  unfold kemGenJob
  repeat' (first | with_reducible assumption | with_reducible apply State.giveKey_onward)

theorem kemDecJob_onward {s₀ : State} (x : Job) {s : State} (ho : Onward s₀ s) : Onward s₀ (kemDecJob x s).2 := by
  unfold kemDecJob
  repeat' (first | with_reducible assumption | with_reducible apply State.giveSecret_onward)

theorem kemEncTo_onward {s₀ : State} (pk : Bytes) (x : Job) {s : State} (ho : Onward s₀ s) : Onward s₀ (kemEncTo pk
    x s).2 := by
  unfold kemEncTo
  repeat' (first | with_reducible assumption | with_reducible apply State.giveSecret_onward)

theorem kemEncRefJob_onward {s₀ : State} (x : Job) {s : State} (ho : Onward s₀ s) : Onward s₀ (kemEncRefJob x s).2
    := by
  unfold kemEncRefJob
  repeat' (first | with_reducible assumption | with_reducible apply kemEncTo_onward)

theorem kemEncInlineJob_onward {s₀ : State} (x : Job) {s : State} (ho : Onward s₀ s) : Onward s₀ (kemEncInlineJob x
    s).2 := by
  unfold kemEncInlineJob
  repeat' (first | with_reducible assumption | with_reducible apply kemEncTo_onward | split)

theorem execMlKemKeyGeneration_onward (j : Nat) {s : State} {t : State} (ho : execMlKemKeyGeneration j s = .next t)
    : Onward s t := by
  unfold execMlKemKeyGeneration at ho
  injection ho with ho
  subst ho
  have ho := Onward.refl s
  repeat' (first
      | with_reducible assumption | with_reducible apply State.compute_onward
      | with_reducible apply kemGenJob_onward)

theorem execMlKemDecapsulation_onward (j : Nat) {s : State} {t : State} (ho : execMlKemDecapsulation j s = .next t)
    : Onward s t := by
  unfold execMlKemDecapsulation at ho
  injection ho with ho
  subst ho
  have ho := Onward.refl s
  repeat' (first
      | with_reducible assumption | with_reducible apply State.compute_onward
      | with_reducible apply kemDecJob_onward)

theorem execMlKemEncapsulationReferenced_onward (j : Nat) {s : State} {t : State} (ho :
    execMlKemEncapsulationReferenced j s = .next t) : Onward s t := by
  unfold execMlKemEncapsulationReferenced at ho
  injection ho with ho
  subst ho
  have ho := Onward.refl s
  repeat' (first
      | with_reducible assumption | with_reducible apply State.compute_onward
      | with_reducible apply kemEncRefJob_onward)

theorem execMlKemEncapsulationInline_onward (j : Nat) {s : State} {t : State} (ho : execMlKemEncapsulationInline j s
    = .next t) : Onward s t := by
  unfold execMlKemEncapsulationInline at ho
  injection ho with ho
  subst ho
  have ho := Onward.refl s
  repeat' (first
      | with_reducible assumption | with_reducible apply State.compute_onward
      | with_reducible apply kemEncInlineJob_onward)

theorem execHqcKeyGeneration_onward (j : Nat) {s : State} {t : State} (ho : execHqcKeyGeneration j s = .next t) :
    Onward s t := by
  unfold execHqcKeyGeneration at ho
  injection ho with ho
  subst ho
  have ho := Onward.refl s
  repeat' (first
      | with_reducible assumption | with_reducible apply State.compute_onward
      | with_reducible apply kemGenJob_onward)

theorem execHqcDecapsulation_onward (j : Nat) {s : State} {t : State} (ho : execHqcDecapsulation j s = .next t) :
    Onward s t := by
  unfold execHqcDecapsulation at ho
  injection ho with ho
  subst ho
  have ho := Onward.refl s
  repeat' (first
      | with_reducible assumption | with_reducible apply State.compute_onward
      | with_reducible apply kemDecJob_onward)

theorem execHqcEncapsulationReferenced_onward (j : Nat) {s : State} {t : State} (ho : execHqcEncapsulationReferenced
    j s = .next t) : Onward s t := by
  unfold execHqcEncapsulationReferenced at ho
  injection ho with ho
  subst ho
  have ho := Onward.refl s
  repeat' (first
      | with_reducible assumption | with_reducible apply State.compute_onward
      | with_reducible apply kemEncRefJob_onward)

theorem execHqcEncapsulationInline_onward (j : Nat) {s : State} {t : State} (ho : execHqcEncapsulationInline j s =
    .next t) : Onward s t := by
  unfold execHqcEncapsulationInline at ho
  injection ho with ho
  subst ho
  have ho := Onward.refl s
  repeat' (first
      | with_reducible assumption | with_reducible apply State.compute_onward
      | with_reducible apply kemEncInlineJob_onward)

theorem execMcelieceKeyGeneration_onward (j : Nat) {s : State} {t : State} (ho : execMcelieceKeyGeneration j s =
    .next t) : Onward s t := by
  unfold execMcelieceKeyGeneration at ho
  injection ho with ho
  subst ho
  have ho := Onward.refl s
  repeat' (first
      | with_reducible assumption | with_reducible apply State.compute_onward
      | with_reducible apply kemGenJob_onward)

theorem execMcelieceDecapsulation_onward (j : Nat) {s : State} {t : State} (ho : execMcelieceDecapsulation j s =
    .next t) : Onward s t := by
  unfold execMcelieceDecapsulation at ho
  injection ho with ho
  subst ho
  have ho := Onward.refl s
  repeat' (first
      | with_reducible assumption | with_reducible apply State.compute_onward
      | with_reducible apply kemDecJob_onward)

theorem mceEncRefJob_onward {s₀ : State} (x : Job) {s : State} (ho : Onward s₀ s) : Onward s₀ (mceEncRefJob x s).2
    := by
  unfold mceEncRefJob
  repeat' (first
    | with_reducible assumption
    | (with_reducible apply State.accessFault_onward)
    | (with_reducible apply State.noteRead_onward)
    | (with_reducible apply kemEncTo_onward)
    | with_reducible apply Onward.foldl
    | refine Onward.of_snd (by assumption) ?_
    | split
    | (with_reducible refine Onward.mk_same rfl ?_
       first
       | with_reducible assumption
       | (with_reducible apply State.accessFault_onward)
       | (with_reducible apply State.noteRead_onward)
       | (with_reducible apply kemEncTo_onward)
       | refine Onward.of_snd (by assumption) ?_)
    | intro _
    | extract_lets
    | dsimp (zeta := false) only
    | dsimp +zetaDelta only)

theorem execMcelieceEncapsulationReferenced_onward (j : Nat) {s : State} {t : State} (ho :
    execMcelieceEncapsulationReferenced j s = .next t) : Onward s t := by
  unfold execMcelieceEncapsulationReferenced at ho
  injection ho with ho
  subst ho
  have ho := Onward.refl s
  repeat' (first
      | with_reducible assumption | with_reducible apply State.compute_onward
      | with_reducible apply mceEncRefJob_onward)

theorem execMcelieceEncapsulationInline_onward (j : Nat) {s : State} {t : State} (ho :
    execMcelieceEncapsulationInline j s = .next t) : Onward s t := by
  unfold execMcelieceEncapsulationInline at ho
  injection ho with ho
  subst ho
  have ho := Onward.refl s
  repeat' (first
      | with_reducible assumption | with_reducible apply State.compute_onward
      | with_reducible apply kemEncInlineJob_onward)

theorem mldsaGenJob_onward {s₀ : State} (x : Job) {s : State} (ho : Onward s₀ s) : Onward s₀ (mldsaGenJob x s).2 := by
  unfold mldsaGenJob
  repeat' (first | with_reducible assumption | with_reducible apply State.giveKey_onward)

theorem mldsaSignJob_onward {s₀ : State} (x : Job) {s : State} (ho : Onward s₀ s) : Onward s₀ (mldsaSignJob x s).2
    := by
  unfold mldsaSignJob
  repeat' (with_reducible assumption)

theorem mldsaVerifyJob_onward {s₀ : State} (x : Job) {s : State} (ho : Onward s₀ s) : Onward s₀ (mldsaVerifyJob x
    s).2 := by
  unfold mldsaVerifyJob
  repeat' (with_reducible assumption)

theorem mldsaInlineJob_onward {s₀ : State} (x : Job) {s : State} (ho : Onward s₀ s) : Onward s₀ (mldsaInlineJob x
    s).2 := by
  unfold mldsaInlineJob
  repeat' (with_reducible assumption)

theorem execMlDsaKeyGeneration_onward (j : Nat) {s : State} {t : State} (ho : execMlDsaKeyGeneration j s = .next t)
    : Onward s t := by
  unfold execMlDsaKeyGeneration at ho
  injection ho with ho
  subst ho
  have ho := Onward.refl s
  repeat' (first
      | with_reducible assumption | with_reducible apply State.compute_onward
      | with_reducible apply mldsaGenJob_onward)

theorem execMlDsaSign_onward (j : Nat) {s : State} {t : State} (ho : execMlDsaSign j s = .next t) : Onward s t := by
  unfold execMlDsaSign at ho
  injection ho with ho
  subst ho
  have ho := Onward.refl s
  repeat' (first
      | with_reducible assumption | with_reducible apply State.compute_onward
      | with_reducible apply mldsaSignJob_onward)

theorem execMlDsaVerifyReferenced_onward (j : Nat) {s : State} {t : State} (ho : execMlDsaVerifyReferenced j s =
    .next t) : Onward s t := by
  unfold execMlDsaVerifyReferenced at ho
  injection ho with ho
  subst ho
  have ho := Onward.refl s
  repeat' (first
      | with_reducible assumption | with_reducible apply State.compute_onward
      | with_reducible apply mldsaVerifyJob_onward)

theorem execMlDsaVerifyInline_onward (j : Nat) {s : State} {t : State} (ho : execMlDsaVerifyInline j s = .next t) :
    Onward s t := by
  unfold execMlDsaVerifyInline at ho
  injection ho with ho
  subst ho
  have ho := Onward.refl s
  repeat' (first
      | with_reducible assumption | with_reducible apply State.compute_onward
      | with_reducible apply mldsaInlineJob_onward)

theorem slhGenJob_onward {s₀ : State} (x : Job) {s : State} (ho : Onward s₀ s) : Onward s₀ (slhGenJob x s).2 := by
  unfold slhGenJob
  repeat' (first | with_reducible assumption | with_reducible apply State.giveKey_onward)

theorem slhSignJob_onward {s₀ : State} (x : Job) {s : State} (ho : Onward s₀ s) : Onward s₀ (slhSignJob x s).2 := by
  unfold slhSignJob
  repeat' (with_reducible assumption)

theorem slhVerifyJob_onward {s₀ : State} (x : Job) {s : State} (ho : Onward s₀ s) : Onward s₀ (slhVerifyJob x s).2
    := by
  unfold slhVerifyJob
  repeat' (with_reducible assumption)

theorem slhInlineJob_onward {s₀ : State} (x : Job) {s : State} (ho : Onward s₀ s) : Onward s₀ (slhInlineJob x s).2
    := by
  unfold slhInlineJob
  repeat' (with_reducible assumption)

theorem execSlhDsaKeyGeneration_onward (j : Nat) {s : State} {t : State} (ho : execSlhDsaKeyGeneration j s = .next
    t) : Onward s t := by
  unfold execSlhDsaKeyGeneration at ho
  injection ho with ho
  subst ho
  have ho := Onward.refl s
  repeat' (first
      | with_reducible assumption | with_reducible apply State.compute_onward
      | with_reducible apply slhGenJob_onward)

theorem execSlhDsaSign_onward (j : Nat) {s : State} {t : State} (ho : execSlhDsaSign j s = .next t) : Onward s t := by
  unfold execSlhDsaSign at ho
  injection ho with ho
  subst ho
  have ho := Onward.refl s
  repeat' (first
      | with_reducible assumption | with_reducible apply State.compute_onward
      | with_reducible apply slhSignJob_onward)

theorem execSlhDsaVerifyReferenced_onward (j : Nat) {s : State} {t : State} (ho : execSlhDsaVerifyReferenced j s =
    .next t) : Onward s t := by
  unfold execSlhDsaVerifyReferenced at ho
  injection ho with ho
  subst ho
  have ho := Onward.refl s
  repeat' (first
      | with_reducible assumption | with_reducible apply State.compute_onward
      | with_reducible apply slhVerifyJob_onward)

theorem execSlhDsaVerifyInline_onward (j : Nat) {s : State} {t : State} (ho : execSlhDsaVerifyInline j s = .next t)
    : Onward s t := by
  unfold execSlhDsaVerifyInline at ho
  injection ho with ho
  subst ho
  have ho := Onward.refl s
  repeat' (first
      | with_reducible assumption | with_reducible apply State.compute_onward
      | with_reducible apply slhInlineJob_onward)

theorem State.reclaim_onward {s₀ s : State} (h : Onward s₀ s) : Onward s₀ s.reclaim := by
  unfold State.reclaim
  repeat' (first | with_reducible assumption | with_reducible apply State.dropRecords_onward | split)

theorem State.findPlace_onward {s₀ s : State} (h : Onward s₀ s) : Onward s₀ s.findPlace.2 := by
  unfold State.findPlace
  split
  · exact h
  · exact State.reclaim_onward h

theorem State.putRecord_onward {s₀ s : State} (i : Nat) (r : StfRecord) (h : Onward s₀ s) :
    Onward s₀ (s.putRecord i r) := h.upd (stf := keysRise_mapInsert _ _)

theorem State.newRecord_onward {s₀ : State} {s : State} (p : Nat) (k : KeySlot) (total : Nat) (j : Nat) (ho : Onward
    s₀ s) :
    Onward s₀ (State.newRecord s p k total j) := by
  unfold State.newRecord
  repeat' (first | with_reducible assumption | with_reducible apply State.putRecord_onward)

theorem stfGenJob_onward {s₀ : State} (j : Nat) (x : Job) {s : State} (ho : Onward s₀ s) : Onward s₀ (stfGenJob j x
    s).2 := by
  unfold stfGenJob
  repeat' (first
    | with_reducible assumption
    | (with_reducible apply State.newKey_onward)
    | (with_reducible apply State.placeKey_onward)
    | (with_reducible apply State.newRecord_onward)
    | (with_reducible apply State.findPlace_onward)
    | with_reducible apply Onward.foldl
    | refine Onward.of_snd (by assumption) ?_
    | split
    | (with_reducible refine Onward.mk_same rfl ?_
       first
       | with_reducible assumption
       | (with_reducible apply State.newKey_onward)
       | (with_reducible apply State.placeKey_onward)
       | (with_reducible apply State.newRecord_onward)
       | refine Onward.of_snd (by assumption) ?_)
    | intro _
    | extract_lets
    | dsimp (zeta := false) only
    | dsimp +zetaDelta only)

theorem stfSignJob_onward {s₀ : State} (x : Job) {s : State} (ho : Onward s₀ s) : Onward s₀ (stfSignJob x s).2 := by
  unfold stfSignJob
  repeat' (with_reducible assumption)

theorem stfVerifyJob_onward {s₀ : State} (x : Job) {s : State} (ho : Onward s₀ s) : Onward s₀ (stfVerifyJob x s).2
    := by
  unfold stfVerifyJob
  repeat' (with_reducible assumption)

theorem stfInlineJob_onward {s₀ : State} (x : Job) {s : State} (ho : Onward s₀ s) : Onward s₀ (stfInlineJob x s).2
    := by
  unfold stfInlineJob
  repeat' (first | with_reducible assumption | split)

theorem execLmsKeyGeneration_onward (j : Nat) {s : State} {t : State} (ho : execLmsKeyGeneration j s = .next t) :
    Onward s t := by
  unfold execLmsKeyGeneration at ho
  injection ho with ho
  subst ho
  have ho := Onward.refl s
  repeat' (first
    | with_reducible assumption
    | (with_reducible apply State.compute_onward)
    | (with_reducible apply stfGenJob_onward)
    | with_reducible apply Onward.foldl
    | refine Onward.of_snd (by assumption) ?_
    | split
    | (with_reducible refine Onward.mk_same rfl ?_
       first
       | with_reducible assumption
       | (with_reducible apply State.compute_onward)
       | (with_reducible apply stfGenJob_onward)
       | refine Onward.of_snd (by assumption) ?_)
    | intro _
    | extract_lets
    | dsimp (zeta := false) only
    | dsimp +zetaDelta only)

theorem execLmsSign_onward (j : Nat) {s : State} {t : State} (ho : execLmsSign j s = .next t) : Onward s t := by
  unfold execLmsSign at ho
  injection ho with ho
  subst ho
  have ho := Onward.refl s
  repeat' (first
      | with_reducible assumption | with_reducible apply State.compute_onward
      | with_reducible apply stfSignJob_onward)

theorem execLmsVerifyReferenced_onward (j : Nat) {s : State} {t : State} (ho : execLmsVerifyReferenced j s = .next
    t) : Onward s t := by
  unfold execLmsVerifyReferenced at ho
  injection ho with ho
  subst ho
  have ho := Onward.refl s
  repeat' (first
      | with_reducible assumption | with_reducible apply State.compute_onward
      | with_reducible apply stfVerifyJob_onward)

theorem execLmsVerifyInline_onward (j : Nat) {s : State} {t : State} (ho : execLmsVerifyInline j s = .next t) :
    Onward s t := by
  unfold execLmsVerifyInline at ho
  injection ho with ho
  subst ho
  have ho := Onward.refl s
  repeat' (first
      | with_reducible assumption | with_reducible apply State.compute_onward
      | with_reducible apply stfInlineJob_onward)

theorem execXmssKeyGeneration_onward (j : Nat) {s : State} {t : State} (ho : execXmssKeyGeneration j s = .next t) :
    Onward s t := by
  unfold execXmssKeyGeneration at ho
  injection ho with ho
  subst ho
  have ho := Onward.refl s
  repeat' (first
    | with_reducible assumption
    | (with_reducible apply State.compute_onward)
    | (with_reducible apply stfGenJob_onward)
    | with_reducible apply Onward.foldl
    | refine Onward.of_snd (by assumption) ?_
    | split
    | (with_reducible refine Onward.mk_same rfl ?_
       first
       | with_reducible assumption
       | (with_reducible apply State.compute_onward)
       | (with_reducible apply stfGenJob_onward)
       | refine Onward.of_snd (by assumption) ?_)
    | intro _
    | extract_lets
    | dsimp (zeta := false) only
    | dsimp +zetaDelta only)

theorem execXmssSign_onward (j : Nat) {s : State} {t : State} (ho : execXmssSign j s = .next t) : Onward s t := by
  unfold execXmssSign at ho
  injection ho with ho
  subst ho
  have ho := Onward.refl s
  repeat' (first
      | with_reducible assumption | with_reducible apply State.compute_onward
      | with_reducible apply stfSignJob_onward)

theorem execXmssVerifyReferenced_onward (j : Nat) {s : State} {t : State} (ho : execXmssVerifyReferenced j s = .next
    t) : Onward s t := by
  unfold execXmssVerifyReferenced at ho
  injection ho with ho
  subst ho
  have ho := Onward.refl s
  repeat' (first
      | with_reducible assumption | with_reducible apply State.compute_onward
      | with_reducible apply stfVerifyJob_onward)

theorem execXmssVerifyInline_onward (j : Nat) {s : State} {t : State} (ho : execXmssVerifyInline j s = .next t) :
    Onward s t := by
  unfold execXmssVerifyInline at ho
  injection ho with ho
  subst ho
  have ho := Onward.refl s
  repeat' (first
      | with_reducible assumption | with_reducible apply State.compute_onward
      | with_reducible apply stfInlineJob_onward)

theorem execTraversalBuild_onward {s t : State} (j : Nat) (ho : execTraversalBuild j s = .next t) : Onward s t := by
  unfold execTraversalBuild at ho
  injection ho with ho
  subst ho
  have h0 := Onward.refl s
  split
  · split
    · split
      · refine Onward.ite h0 ?_
        exact State.onEngine_onward (h0.upd (free := Nat.le_succ _))
      · exact h0
    · exact h0
  · exact h0

theorem State.moveRecord_onward {s₀ s t : State} {i : Nat} {r new : StfRecord} (e : s.moveRecord i r new = some t)
    (h : Onward s₀ s) : Onward s₀ t := by
  have h1 := State.findPlace_onward h
  unfold State.moveRecord at e
  split at e
  · rename_i p s1 e1
    cases e
    exact State.putRecord_onward _ _ (State.putRecord_onward _ _ (Onward.of_snd e1 h1))
  · rename_i s1 e1
    split at e
    · cases e
      exact State.eraseBlock_onward _ _ (State.putRecord_onward _ _ (Onward.of_snd e1 h1))
    · cases e

theorem State.programResv_onward {s₀ s t : State} {i : Nat} {r : StfRecord} {v : Nat}
    (e : s.programResv i r v = some t) (h : Onward s₀ s) : Onward s₀ t := by
  unfold State.programResv at e
  split at e
  · cases e
    exact State.putRecord_onward _ _ h
  · exact State.moveRecord_onward e h

theorem State.commitEnds_onward {s₀ : State} {s : State} (keyId : Bytes) (waiter : Option Nat) (ok : Bool) (ho :
    Onward s₀ s) : Onward s₀ (State.commitEnds s keyId waiter ok) := by
  unfold State.commitEnds
  repeat' (first
      | with_reducible assumption | with_reducible apply State.finish_onward
      | with_reducible apply State.onJob_onward | with_reducible apply State.onRecord_onward | split)

theorem State.commitFailed_onward {s₀ : State} {s : State} (i : Nat) (r : StfRecord) (ho : Onward s₀ s) : Onward s₀
    (State.commitFailed s i r) := by
  unfold State.commitFailed
  repeat' (first
      | with_reducible assumption | with_reducible apply State.event_onward
      | with_reducible apply State.putRecord_onward)

theorem execReservationCommitDone_onward (r : Nat) (ok : Bool) {s : State} {t : State} (ho :
    execReservationCommitDone r ok s = .next t) : Onward s t := by
  unfold execReservationCommitDone at ho
  injection ho with ho
  subst ho
  have ho := Onward.refl s
  split
  · split
    · dsimp only
      split
      · rename_i u e
        split at e
        · exact State.commitEnds_onward _ _ _ (State.programResv_onward e ho)
        · cases e
      · exact State.commitEnds_onward _ _ _ (State.commitFailed_onward _ _ ho)
    · exact ho
  · exact ho

theorem execFirstReservation_onward (r : Nat) (ok : Bool) {s : State} {t : State} (ho : execFirstReservation r ok s
    = .next t) : Onward s t := by
  unfold execFirstReservation at ho
  injection ho with ho
  subst ho
  have ho := Onward.refl s
  repeat' (first
      | with_reducible assumption | with_reducible apply State.putRecord_onward
      | with_reducible apply State.commitFailed_onward | split)

theorem hkemGenJob_onward {s₀ : State} (x : Job) {s : State} (ho : Onward s₀ s) : Onward s₀ (hkemGenJob x s).2 := by
  unfold hkemGenJob
  repeat' (first | with_reducible assumption | with_reducible apply State.giveKey_onward)

theorem hkemDecJob_onward {s₀ : State} (x : Job) {s : State} (ho : Onward s₀ s) : Onward s₀ (hkemDecJob x s).2 := by
  unfold hkemDecJob
  repeat' (first | with_reducible assumption | with_reducible apply State.giveSecret_onward)

theorem hkemEncTo_onward {s₀ : State} (pk : Bytes) (x : Job) {s : State} (ho : Onward s₀ s) : Onward s₀ (hkemEncTo
    pk x s).2 := by
  unfold hkemEncTo
  repeat' (first | with_reducible assumption | with_reducible apply State.giveSecret_onward)

theorem hkemEncRefJob_onward {s₀ : State} (x : Job) {s : State} (ho : Onward s₀ s) : Onward s₀ (hkemEncRefJob x s).2
    := by
  unfold hkemEncRefJob
  repeat' (first | with_reducible assumption | with_reducible apply hkemEncTo_onward)

theorem hkemEncInlineJob_onward {s₀ : State} (x : Job) {s : State} (ho : Onward s₀ s) : Onward s₀ (hkemEncInlineJob
    x s).2 := by
  unfold hkemEncInlineJob
  repeat' (first | with_reducible assumption | with_reducible apply hkemEncTo_onward | split)

theorem rawDecJob_onward {s₀ : State} (x : Job) {s : State} (ho : Onward s₀ s) : Onward s₀ (rawDecJob x s).2 := by
  unfold rawDecJob
  repeat' (first | with_reducible assumption)

theorem rawEncTo_onward {s₀ : State} (pk : Bytes) (x : Job) {s : State} (ho : Onward s₀ s) : Onward s₀ (rawEncTo pk
    x s).2 := by
  unfold rawEncTo
  repeat' (first | with_reducible assumption)

theorem rawEncRefJob_onward {s₀ : State} (x : Job) {s : State} (ho : Onward s₀ s) : Onward s₀ (rawEncRefJob x s).2
    := by
  unfold rawEncRefJob
  repeat' (first | with_reducible assumption | with_reducible apply rawEncTo_onward)

theorem rawEncInlineJob_onward {s₀ : State} (x : Job) {s : State} (ho : Onward s₀ s) : Onward s₀ (rawEncInlineJob x
    s).2 := by
  unfold rawEncInlineJob
  repeat' (first | with_reducible assumption | with_reducible apply rawEncTo_onward | split)

theorem execHybridKemKeyGeneration_onward (j : Nat) {s : State} {t : State} (ho : execHybridKemKeyGeneration j s =
    .next t) : Onward s t := by
  unfold execHybridKemKeyGeneration at ho
  injection ho with ho
  subst ho
  have ho := Onward.refl s
  repeat' (first
      | with_reducible assumption | with_reducible apply State.compute_onward
      | with_reducible apply hkemGenJob_onward)

theorem execHybridKemDecapsulation_onward (j : Nat) {s : State} {t : State} (ho : execHybridKemDecapsulation j s =
    .next t) : Onward s t := by
  unfold execHybridKemDecapsulation at ho
  injection ho with ho
  subst ho
  have ho := Onward.refl s
  repeat' (first
      | with_reducible assumption | with_reducible apply State.compute_onward
      | with_reducible apply hkemDecJob_onward)

theorem execHybridKemEncapsulationReferenced_onward (j : Nat) {s : State} {t : State} (ho :
    execHybridKemEncapsulationReferenced j s = .next t) : Onward s t := by
  unfold execHybridKemEncapsulationReferenced at ho
  injection ho with ho
  subst ho
  have ho := Onward.refl s
  repeat' (first
      | with_reducible assumption | with_reducible apply State.compute_onward
      | with_reducible apply hkemEncRefJob_onward)

theorem execHybridKemEncapsulationInline_onward (j : Nat) {s : State} {t : State} (ho :
    execHybridKemEncapsulationInline j s = .next t) : Onward s t := by
  unfold execHybridKemEncapsulationInline at ho
  injection ho with ho
  subst ho
  have ho := Onward.refl s
  repeat' (first
      | with_reducible assumption | with_reducible apply State.compute_onward
      | with_reducible apply hkemEncInlineJob_onward)

theorem execDecapsulationRaw_onward (j : Nat) {s : State} {t : State} (ho : execDecapsulationRaw j s = .next t) :
    Onward s t := by
  unfold execDecapsulationRaw at ho
  injection ho with ho
  subst ho
  have ho := Onward.refl s
  repeat' (first
      | with_reducible assumption | with_reducible apply State.compute_onward
      | with_reducible apply rawDecJob_onward)

theorem execEncapsulationRawReferenced_onward (j : Nat) {s : State} {t : State} (ho : execEncapsulationRawReferenced
    j s = .next t) : Onward s t := by
  unfold execEncapsulationRawReferenced at ho
  injection ho with ho
  subst ho
  have ho := Onward.refl s
  repeat' (first
      | with_reducible assumption | with_reducible apply State.compute_onward
      | with_reducible apply rawEncRefJob_onward)

theorem execEncapsulationRawInline_onward (j : Nat) {s : State} {t : State} (ho : execEncapsulationRawInline j s =
    .next t) : Onward s t := by
  unfold execEncapsulationRawInline at ho
  injection ho with ho
  subst ho
  have ho := Onward.refl s
  repeat' (first
      | with_reducible assumption | with_reducible apply State.compute_onward
      | with_reducible apply rawEncInlineJob_onward)

theorem hsigGenJob_onward {s₀ : State} (x : Job) {s : State} (ho : Onward s₀ s) : Onward s₀ (hsigGenJob x s).2 := by
  unfold hsigGenJob
  repeat' (first | with_reducible assumption | with_reducible apply State.giveKey_onward)

theorem hsigSignJob_onward {s₀ : State} (x : Job) {s : State} (ho : Onward s₀ s) : Onward s₀ (hsigSignJob x s).2 := by
  unfold hsigSignJob
  repeat' (with_reducible assumption)

theorem hsigVerifyJob_onward {s₀ : State} (x : Job) {s : State} (ho : Onward s₀ s) : Onward s₀ (hsigVerifyJob x s).2
    := by
  unfold hsigVerifyJob
  repeat' (with_reducible assumption)

theorem hsigInlineJob_onward {s₀ : State} (x : Job) {s : State} (ho : Onward s₀ s) : Onward s₀ (hsigInlineJob x s).2
    := by
  unfold hsigInlineJob
  repeat' (with_reducible assumption)

theorem execHybridSigKeyGeneration_onward (j : Nat) {s : State} {t : State} (ho : execHybridSigKeyGeneration j s =
    .next t) : Onward s t := by
  unfold execHybridSigKeyGeneration at ho
  injection ho with ho
  subst ho
  have ho := Onward.refl s
  repeat' (first
      | with_reducible assumption | with_reducible apply State.compute_onward
      | with_reducible apply hsigGenJob_onward)

theorem execHybridSign_onward (j : Nat) {s : State} {t : State} (ho : execHybridSign j s = .next t) : Onward s t := by
  unfold execHybridSign at ho
  injection ho with ho
  subst ho
  have ho := Onward.refl s
  repeat' (first
      | with_reducible assumption | with_reducible apply State.compute_onward
      | with_reducible apply hsigSignJob_onward)

theorem execHybridVerifyReferenced_onward (j : Nat) {s : State} {t : State} (ho : execHybridVerifyReferenced j s =
    .next t) : Onward s t := by
  unfold execHybridVerifyReferenced at ho
  injection ho with ho
  subst ho
  have ho := Onward.refl s
  repeat' (first
      | with_reducible assumption | with_reducible apply State.compute_onward
      | with_reducible apply hsigVerifyJob_onward)

theorem execHybridVerifyInline_onward (j : Nat) {s : State} {t : State} (ho : execHybridVerifyInline j s = .next t)
    : Onward s t := by
  unfold execHybridVerifyInline at ho
  injection ho with ho
  subst ho
  have ho := Onward.refl s
  repeat' (first
      | with_reducible assumption | with_reducible apply State.compute_onward
      | with_reducible apply hsigInlineJob_onward)

theorem execHashLend_onward (e : Nat) (h : Nat) {s : State} {t : State} (ho : execHashLend e h s = .next t) : Onward
    s t := by
  unfold execHashLend at ho
  injection ho with ho
  subst ho
  have ho := Onward.refl s
  repeat' (first
    | with_reducible assumption
    | (with_reducible apply State.jobReads_onward)
    | (with_reducible apply State.onEngine_onward)
    | (with_reducible apply State.onVce_onward)
    | with_reducible apply Onward.foldl
    | refine Onward.of_snd (by assumption) ?_
    | split
    | (with_reducible refine Onward.mk_same rfl ?_
       first
       | with_reducible assumption
       | (with_reducible apply State.jobReads_onward)
       | (with_reducible apply State.onEngine_onward)
       | (with_reducible apply State.onVce_onward)
       | refine Onward.of_snd (by assumption) ?_)
    | intro _
    | extract_lets
    | dsimp (zeta := false) only
    | dsimp +zetaDelta only)

theorem State.holdPub_onward {s₀ s : State} (i : Nat) (ho : Onward s₀ s) : Onward s₀ (s.holdPub i).2 := by
  unfold State.holdPub
  dsimp only
  have h := State.makeRoom_onward 16385 (({ s.slot i with pub := some (s.slot i).pubKey } : KeySlot).lineCount -
    (s.slot i).lines) (q := 0) ho
  split <;> rename_i e <;> rw [e] at h
  · exact State.onSlot_onward h
  · exact h

theorem State.passValue_onward {s₀ : State} {s : State} (j : Nat) (k : Nat) (x : Job) (ho : Onward s₀ s) : Onward s₀
    (State.passValue s j k x) := by
  unfold State.passValue
  repeat' (first
    | with_reducible assumption
    | (with_reducible apply State.draw_onward)
    | (with_reducible apply State.onJob_onward)
    | with_reducible apply Onward.foldl
    | refine Onward.of_snd (by assumption) ?_
    | split
    | (with_reducible refine Onward.mk_same rfl ?_
       first
       | with_reducible assumption
       | (with_reducible apply State.draw_onward)
       | (with_reducible apply State.onJob_onward)
       | refine Onward.of_snd (by assumption) ?_)
    | intro _
    | extract_lets
    | dsimp (zeta := false) only
    | dsimp +zetaDelta only)

theorem execInternalFlagSet_onward (j : Nat) (k : Nat) {s : State} {t : State} (ho : execInternalFlagSet j k s =
    .next t) : Onward s t := by
  unfold execInternalFlagSet at ho
  injection ho with ho
  subst ho
  have ho := Onward.refl s
  repeat' (first
    | with_reducible assumption
    | (with_reducible apply State.holdPub_onward)
    | (with_reducible apply State.passValue_onward)
    | (with_reducible apply State.finish_onward)
    | (with_reducible apply State.shortage_onward)
    | (with_reducible apply State.frostJob_onward)
    | (with_reducible apply State.leaveRunning_onward)
    | (with_reducible apply State.onJob_onward)
    | with_reducible apply Onward.foldl
    | refine Onward.of_snd (by assumption) ?_
    | split
    | (with_reducible refine Onward.mk_same rfl ?_
       first
       | with_reducible assumption
       | (with_reducible apply State.holdPub_onward)
       | (with_reducible apply State.passValue_onward)
       | (with_reducible apply State.finish_onward)
       | (with_reducible apply State.shortage_onward)
       | (with_reducible apply State.frostJob_onward)
       | (with_reducible apply State.leaveRunning_onward)
       | (with_reducible apply State.onJob_onward)
       | refine Onward.of_snd (by assumption) ?_)
    | intro _
    | extract_lets
    | dsimp (zeta := false) only
    | dsimp +zetaDelta only)

theorem eccGenJob_onward {s₀ : State} (x : Job) {s : State} (ho : Onward s₀ s) : Onward s₀ (eccGenJob x s).2 := by
  unfold eccGenJob
  repeat' (first | with_reducible assumption | with_reducible apply State.giveKey_onward)

theorem eccSignJob_onward {s₀ : State} (x : Job) {s : State} (ho : Onward s₀ s) : Onward s₀ (eccSignJob x s).2 := by
  unfold eccSignJob
  repeat' (with_reducible assumption)

theorem eccVerifyJob_onward {s₀ : State} (x : Job) {s : State} (ho : Onward s₀ s) : Onward s₀ (eccVerifyJob x s).2
    := by
  unfold eccVerifyJob
  repeat' (with_reducible assumption)

theorem eccInlineJob_onward {s₀ : State} (x : Job) {s : State} (ho : Onward s₀ s) : Onward s₀ (eccInlineJob x s).2
    := by
  unfold eccInlineJob
  repeat' (with_reducible assumption)

theorem agreementJob_onward {s₀ : State} (x : Job) {s : State} (ho : Onward s₀ s) : Onward s₀ (agreementJob x s).2
    := by
  unfold agreementJob
  repeat' (first | with_reducible assumption | with_reducible apply State.giveSecret_onward | split)

theorem execEccKeyGeneration_onward (j : Nat) {s : State} {t : State} (ho : execEccKeyGeneration j s = .next t) :
    Onward s t := by
  unfold execEccKeyGeneration at ho
  injection ho with ho
  subst ho
  have ho := Onward.refl s
  repeat' (first
      | with_reducible assumption | with_reducible apply State.compute_onward
      | with_reducible apply eccGenJob_onward)

theorem execEccSign_onward (j : Nat) {s : State} {t : State} (ho : execEccSign j s = .next t) : Onward s t := by
  unfold execEccSign at ho
  injection ho with ho
  subst ho
  have ho := Onward.refl s
  repeat' (first
      | with_reducible assumption | with_reducible apply State.compute_onward
      | with_reducible apply eccSignJob_onward)

theorem execEccVerifyReferenced_onward (j : Nat) {s : State} {t : State} (ho : execEccVerifyReferenced j s = .next
    t) : Onward s t := by
  unfold execEccVerifyReferenced at ho
  injection ho with ho
  subst ho
  have ho := Onward.refl s
  repeat' (first
      | with_reducible assumption | with_reducible apply State.compute_onward
      | with_reducible apply eccVerifyJob_onward)

theorem execEccVerifyInline_onward (j : Nat) {s : State} {t : State} (ho : execEccVerifyInline j s = .next t) :
    Onward s t := by
  unfold execEccVerifyInline at ho
  injection ho with ho
  subst ho
  have ho := Onward.refl s
  repeat' (first
      | with_reducible assumption | with_reducible apply State.compute_onward
      | with_reducible apply eccInlineJob_onward)

theorem execKeyAgreement_onward (j : Nat) {s : State} {t : State} (ho : execKeyAgreement j s = .next t) : Onward s t
    := by
  unfold execKeyAgreement at ho
  injection ho with ho
  subst ho
  have ho := Onward.refl s
  repeat' (first
      | with_reducible assumption | with_reducible apply State.compute_onward
      | with_reducible apply agreementJob_onward)

theorem rsaGenJob_onward {s₀ : State} (x : Job) {s : State} (ho : Onward s₀ s) : Onward s₀ (rsaGenJob x s).2 := by
  unfold rsaGenJob
  repeat' (first | with_reducible assumption | with_reducible apply State.giveKey_onward)

theorem rsaSignJob_onward {s₀ : State} (x : Job) {s : State} (ho : Onward s₀ s) : Onward s₀ (rsaSignJob x s).2 := by
  unfold rsaSignJob
  repeat' (with_reducible assumption)

theorem rsaPssJob_onward {s₀ : State} (x : Job) {s : State} (ho : Onward s₀ s) : Onward s₀ (rsaPssJob x s).2 := by
  unfold rsaPssJob
  repeat' (with_reducible assumption)

theorem rsaVerifyJob_onward {s₀ : State} (pss : Bool) (x : Job) {s : State} (ho : Onward s₀ s) : Onward s₀
    (rsaVerifyJob pss x s).2 := by
  unfold rsaVerifyJob
  repeat' (with_reducible assumption)

theorem rsaInlineJob_onward {s₀ : State} (pss : Bool) (x : Job) {s : State} (ho : Onward s₀ s) : Onward s₀
    (rsaInlineJob pss x s).2 := by
  unfold rsaInlineJob
  repeat' (with_reducible assumption)

theorem oaepJob_onward {s₀ : State} (x : Job) {s : State} (ho : Onward s₀ s) : Onward s₀ (oaepJob x s).2 := by
  unfold oaepJob
  repeat' (first | with_reducible assumption | split)

theorem execRsaKeyGeneration_onward (j : Nat) {s : State} {t : State} (ho : execRsaKeyGeneration j s = .next t) :
    Onward s t := by
  unfold execRsaKeyGeneration at ho
  injection ho with ho
  subst ho
  have ho := Onward.refl s
  repeat' (first
      | with_reducible assumption | with_reducible apply State.compute_onward
      | with_reducible apply rsaGenJob_onward)

theorem execRsaSignPkcs1V15_onward (j : Nat) {s : State} {t : State} (ho : execRsaSignPkcs1V15 j s = .next t) :
    Onward s t := by
  unfold execRsaSignPkcs1V15 at ho
  injection ho with ho
  subst ho
  have ho := Onward.refl s
  repeat' (first
      | with_reducible assumption | with_reducible apply State.compute_onward
      | with_reducible apply rsaSignJob_onward)

theorem execRsaSignPss_onward (j : Nat) {s : State} {t : State} (ho : execRsaSignPss j s = .next t) : Onward s t := by
  unfold execRsaSignPss at ho
  injection ho with ho
  subst ho
  have ho := Onward.refl s
  repeat' (first
      | with_reducible assumption | with_reducible apply State.compute_onward
      | with_reducible apply rsaPssJob_onward)

theorem execRsaVerifyV15Referenced_onward (j : Nat) {s : State} {t : State} (ho : execRsaVerifyV15Referenced j s =
    .next t) : Onward s t := by
  unfold execRsaVerifyV15Referenced at ho
  injection ho with ho
  subst ho
  have ho := Onward.refl s
  repeat' (first
      | with_reducible assumption | with_reducible apply State.compute_onward
      | with_reducible apply rsaVerifyJob_onward)

theorem execRsaVerifyPssReferenced_onward (j : Nat) {s : State} {t : State} (ho : execRsaVerifyPssReferenced j s =
    .next t) : Onward s t := by
  unfold execRsaVerifyPssReferenced at ho
  injection ho with ho
  subst ho
  have ho := Onward.refl s
  repeat' (first
      | with_reducible assumption | with_reducible apply State.compute_onward
      | with_reducible apply rsaVerifyJob_onward)

theorem execRsaVerifyV15Inline_onward (j : Nat) {s : State} {t : State} (ho : execRsaVerifyV15Inline j s = .next t)
    : Onward s t := by
  unfold execRsaVerifyV15Inline at ho
  injection ho with ho
  subst ho
  have ho := Onward.refl s
  repeat' (first
      | with_reducible assumption | with_reducible apply State.compute_onward
      | with_reducible apply rsaInlineJob_onward)

theorem execRsaVerifyPssInline_onward (j : Nat) {s : State} {t : State} (ho : execRsaVerifyPssInline j s = .next t)
    : Onward s t := by
  unfold execRsaVerifyPssInline at ho
  injection ho with ho
  subst ho
  have ho := Onward.refl s
  repeat' (first
      | with_reducible assumption | with_reducible apply State.compute_onward
      | with_reducible apply rsaInlineJob_onward)

theorem execOaepDecrypt_onward (j : Nat) {s : State} {t : State} (ho : execOaepDecrypt j s = .next t) : Onward s t
    := by
  unfold execOaepDecrypt at ho
  injection ho with ho
  subst ho
  have ho := Onward.refl s
  repeat' (first
      | with_reducible assumption | with_reducible apply State.compute_onward | with_reducible apply oaepJob_onward)

theorem aeadEncJob_onward {s₀ : State} (chacha : Bool) (x : Job) {s : State} (ho : Onward s₀ s) : Onward s₀
    (aeadEncJob chacha x s).2 := by
  unfold aeadEncJob
  repeat' (with_reducible assumption)

theorem aeadDecJob_onward {s₀ : State} (chacha : Bool) (x : Job) {s : State} (ho : Onward s₀ s) : Onward s₀
    (aeadDecJob chacha x s).2 := by
  unfold aeadDecJob
  repeat' (first | with_reducible assumption | split)

theorem gmacGenJob_onward {s₀ : State} (x : Job) {s : State} (ho : Onward s₀ s) : Onward s₀ (gmacGenJob x s).2 := by
  unfold gmacGenJob
  repeat' (with_reducible assumption)

theorem gmacVerifyJob_onward {s₀ : State} (x : Job) {s : State} (ho : Onward s₀ s) : Onward s₀ (gmacVerifyJob x s).2
    := by
  unfold gmacVerifyJob
  repeat' (with_reducible assumption)

theorem cmacGenJob_onward {s₀ : State} (x : Job) {s : State} (ho : Onward s₀ s) : Onward s₀ (cmacGenJob x s).2 := by
  unfold cmacGenJob
  repeat' (with_reducible assumption)

theorem cmacVerifyJob_onward {s₀ : State} (x : Job) {s : State} (ho : Onward s₀ s) : Onward s₀ (cmacVerifyJob x s).2
    := by
  unfold cmacVerifyJob
  repeat' (with_reducible assumption)

theorem ctrJob_onward {s₀ : State} (x : Job) {s : State} (ho : Onward s₀ s) : Onward s₀ (ctrJob x s).2 := by
  unfold ctrJob
  repeat' (with_reducible assumption)

theorem kwJob_onward {s₀ : State} (kwp : Bool) (x : Job) {s : State} (ho : Onward s₀ s) : Onward s₀ (kwJob kwp x
    s).2 := by
  unfold kwJob
  repeat' (with_reducible assumption)

theorem kwUnwrapJob_onward {s₀ : State} (kwp : Bool) (x : Job) {s : State} (ho : Onward s₀ s) : Onward s₀
    (kwUnwrapJob kwp x s).2 := by
  unfold kwUnwrapJob
  repeat' (first | with_reducible assumption | split)

theorem execGcmEncrypt_onward (j : Nat) {s : State} {t : State} (ho : execGcmEncrypt j s = .next t) : Onward s t := by
  unfold execGcmEncrypt at ho
  injection ho with ho
  subst ho
  have ho := Onward.refl s
  repeat' (first
      | with_reducible assumption | with_reducible apply State.compute_onward
      | with_reducible apply aeadEncJob_onward)

theorem execGcmDecrypt_onward (j : Nat) {s : State} {t : State} (ho : execGcmDecrypt j s = .next t) : Onward s t := by
  unfold execGcmDecrypt at ho
  injection ho with ho
  subst ho
  have ho := Onward.refl s
  repeat' (first
      | with_reducible assumption | with_reducible apply State.compute_onward
      | with_reducible apply aeadDecJob_onward)

theorem execGmacGenerate_onward (j : Nat) {s : State} {t : State} (ho : execGmacGenerate j s = .next t) : Onward s t
    := by
  unfold execGmacGenerate at ho
  injection ho with ho
  subst ho
  have ho := Onward.refl s
  repeat' (first
      | with_reducible assumption | with_reducible apply State.compute_onward
      | with_reducible apply gmacGenJob_onward)

theorem execGmacVerify_onward (j : Nat) {s : State} {t : State} (ho : execGmacVerify j s = .next t) : Onward s t := by
  unfold execGmacVerify at ho
  injection ho with ho
  subst ho
  have ho := Onward.refl s
  repeat' (first
      | with_reducible assumption | with_reducible apply State.compute_onward
      | with_reducible apply gmacVerifyJob_onward)

theorem execCmacGenerate_onward (j : Nat) {s : State} {t : State} (ho : execCmacGenerate j s = .next t) : Onward s t
    := by
  unfold execCmacGenerate at ho
  injection ho with ho
  subst ho
  have ho := Onward.refl s
  repeat' (first
      | with_reducible assumption | with_reducible apply State.compute_onward
      | with_reducible apply cmacGenJob_onward)

theorem execCmacVerify_onward (j : Nat) {s : State} {t : State} (ho : execCmacVerify j s = .next t) : Onward s t := by
  unfold execCmacVerify at ho
  injection ho with ho
  subst ho
  have ho := Onward.refl s
  repeat' (first
      | with_reducible assumption | with_reducible apply State.compute_onward
      | with_reducible apply cmacVerifyJob_onward)

theorem execCtr_onward (j : Nat) {s : State} {t : State} (ho : execCtr j s = .next t) : Onward s t := by
  unfold execCtr at ho
  injection ho with ho
  subst ho
  have ho := Onward.refl s
  repeat' (first
      | with_reducible assumption | with_reducible apply State.compute_onward | with_reducible apply ctrJob_onward)

theorem execKwWrap_onward (j : Nat) {s : State} {t : State} (ho : execKwWrap j s = .next t) : Onward s t := by
  unfold execKwWrap at ho
  injection ho with ho
  subst ho
  have ho := Onward.refl s
  repeat' (first
      | with_reducible assumption | with_reducible apply State.compute_onward | with_reducible apply kwJob_onward)

theorem execKwUnwrap_onward (j : Nat) {s : State} {t : State} (ho : execKwUnwrap j s = .next t) : Onward s t := by
  unfold execKwUnwrap at ho
  injection ho with ho
  subst ho
  have ho := Onward.refl s
  repeat' (first
      | with_reducible assumption | with_reducible apply State.compute_onward
      | with_reducible apply kwUnwrapJob_onward)

theorem execKwpWrap_onward (j : Nat) {s : State} {t : State} (ho : execKwpWrap j s = .next t) : Onward s t := by
  unfold execKwpWrap at ho
  injection ho with ho
  subst ho
  have ho := Onward.refl s
  repeat' (first
      | with_reducible assumption | with_reducible apply State.compute_onward | with_reducible apply kwJob_onward)

theorem execKwpUnwrap_onward (j : Nat) {s : State} {t : State} (ho : execKwpUnwrap j s = .next t) : Onward s t := by
  unfold execKwpUnwrap at ho
  injection ho with ho
  subst ho
  have ho := Onward.refl s
  repeat' (first
      | with_reducible assumption | with_reducible apply State.compute_onward
      | with_reducible apply kwUnwrapJob_onward)

theorem execChacha20Poly1305Encrypt_onward (j : Nat) {s : State} {t : State} (ho : execChacha20Poly1305Encrypt j s =
    .next t) : Onward s t := by
  unfold execChacha20Poly1305Encrypt at ho
  injection ho with ho
  subst ho
  have ho := Onward.refl s
  repeat' (first
      | with_reducible assumption | with_reducible apply State.compute_onward
      | with_reducible apply aeadEncJob_onward)

theorem execChacha20Poly1305Decrypt_onward (j : Nat) {s : State} {t : State} (ho : execChacha20Poly1305Decrypt j s =
    .next t) : Onward s t := by
  unfold execChacha20Poly1305Decrypt at ho
  injection ho with ho
  subst ho
  have ho := Onward.refl s
  repeat' (first
      | with_reducible assumption | with_reducible apply State.compute_onward
      | with_reducible apply aeadDecJob_onward)

theorem sha2Job_onward {s₀ : State} (x : Job) {s : State} (ho : Onward s₀ s) : Onward s₀ (sha2Job x s).2 := by
  unfold sha2Job
  repeat' (with_reducible assumption)

theorem sha3Job_onward {s₀ : State} (x : Job) {s : State} (ho : Onward s₀ s) : Onward s₀ (sha3Job x s).2 := by
  unfold sha3Job
  repeat' (with_reducible assumption)

theorem xofJob_onward {s₀ : State} (x : Job) {s : State} (ho : Onward s₀ s) : Onward s₀ (xofJob x s).2 := by
  unfold xofJob
  repeat' (with_reducible assumption)

theorem macGenJob_onward {s₀ : State} (x : Job) {s : State} (ho : Onward s₀ s) : Onward s₀ (macGenJob x s).2 := by
  unfold macGenJob
  repeat' (with_reducible assumption)

theorem macVerifyJob_onward {s₀ : State} (x : Job) {s : State} (ho : Onward s₀ s) : Onward s₀ (macVerifyJob x s).2
    := by
  unfold macVerifyJob
  repeat' (with_reducible assumption)

theorem execSha2Hash_onward (j : Nat) {s : State} {t : State} (ho : execSha2Hash j s = .next t) : Onward s t := by
  unfold execSha2Hash at ho
  injection ho with ho
  subst ho
  have ho := Onward.refl s
  repeat' (first
      | with_reducible assumption | with_reducible apply State.compute_onward | with_reducible apply sha2Job_onward)

theorem execSha3Hash_onward (j : Nat) {s : State} {t : State} (ho : execSha3Hash j s = .next t) : Onward s t := by
  unfold execSha3Hash at ho
  injection ho with ho
  subst ho
  have ho := Onward.refl s
  repeat' (first
      | with_reducible assumption | with_reducible apply State.compute_onward | with_reducible apply sha3Job_onward)

theorem execXof_onward (j : Nat) {s : State} {t : State} (ho : execXof j s = .next t) : Onward s t := by
  unfold execXof at ho
  injection ho with ho
  subst ho
  have ho := Onward.refl s
  repeat' (first
      | with_reducible assumption | with_reducible apply State.compute_onward | with_reducible apply xofJob_onward)

theorem execHmacGenerate_onward (j : Nat) {s : State} {t : State} (ho : execHmacGenerate j s = .next t) : Onward s t
    := by
  unfold execHmacGenerate at ho
  injection ho with ho
  subst ho
  have ho := Onward.refl s
  repeat' (first
      | with_reducible assumption | with_reducible apply State.compute_onward
      | with_reducible apply macGenJob_onward)

theorem execHmacVerify_onward (j : Nat) {s : State} {t : State} (ho : execHmacVerify j s = .next t) : Onward s t := by
  unfold execHmacVerify at ho
  injection ho with ho
  subst ho
  have ho := Onward.refl s
  repeat' (first
      | with_reducible assumption | with_reducible apply State.compute_onward
      | with_reducible apply macVerifyJob_onward)

theorem execKmacGenerate_onward (j : Nat) {s : State} {t : State} (ho : execKmacGenerate j s = .next t) : Onward s t
    := by
  unfold execKmacGenerate at ho
  injection ho with ho
  subst ho
  have ho := Onward.refl s
  repeat' (first
      | with_reducible assumption | with_reducible apply State.compute_onward
      | with_reducible apply macGenJob_onward)

theorem execKmacVerify_onward (j : Nat) {s : State} {t : State} (ho : execKmacVerify j s = .next t) : Onward s t := by
  unfold execKmacVerify at ho
  injection ho with ho
  subst ho
  have ho := Onward.refl s
  repeat' (first
      | with_reducible assumption | with_reducible apply State.compute_onward
      | with_reducible apply macVerifyJob_onward)

theorem kdfJob_onward {s₀ : State} (x : Job) {s : State} (ho : Onward s₀ s) : Onward s₀ (kdfJob x s).2 := by
  unfold kdfJob
  repeat' (first | with_reducible assumption | with_reducible apply State.giveSecret_onward)

theorem execHkdf_onward (j : Nat) {s : State} {t : State} (ho : execHkdf j s = .next t) : Onward s t := by
  unfold execHkdf at ho
  injection ho with ho
  subst ho
  have ho := Onward.refl s
  repeat' (first
      | with_reducible assumption | with_reducible apply State.compute_onward | with_reducible apply kdfJob_onward)

theorem execHkdfExpand_onward (j : Nat) {s : State} {t : State} (ho : execHkdfExpand j s = .next t) : Onward s t := by
  unfold execHkdfExpand at ho
  injection ho with ho
  subst ho
  have ho := Onward.refl s
  repeat' (first
      | with_reducible assumption | with_reducible apply State.compute_onward | with_reducible apply kdfJob_onward)

theorem execSp800108Counter_onward (j : Nat) {s : State} {t : State} (ho : execSp800108Counter j s = .next t) :
    Onward s t := by
  unfold execSp800108Counter at ho
  injection ho with ho
  subst ho
  have ho := Onward.refl s
  repeat' (first
      | with_reducible assumption | with_reducible apply State.compute_onward | with_reducible apply kdfJob_onward)

theorem execSp800108Feedback_onward (j : Nat) {s : State} {t : State} (ho : execSp800108Feedback j s = .next t) :
    Onward s t := by
  unfold execSp800108Feedback at ho
  injection ho with ho
  subst ho
  have ho := Onward.refl s
  repeat' (first
      | with_reducible assumption | with_reducible apply State.compute_onward | with_reducible apply kdfJob_onward)

theorem execSp800108Kmac_onward (j : Nat) {s : State} {t : State} (ho : execSp800108Kmac j s = .next t) : Onward s t
    := by
  unfold execSp800108Kmac at ho
  injection ho with ho
  subst ho
  have ho := Onward.refl s
  repeat' (first
      | with_reducible assumption | with_reducible apply State.compute_onward | with_reducible apply kdfJob_onward)

theorem execOneStepHash_onward (j : Nat) {s : State} {t : State} (ho : execOneStepHash j s = .next t) : Onward s t
    := by
  unfold execOneStepHash at ho
  injection ho with ho
  subst ho
  have ho := Onward.refl s
  repeat' (first
      | with_reducible assumption | with_reducible apply State.compute_onward | with_reducible apply kdfJob_onward)

theorem execOneStepHmac_onward (j : Nat) {s : State} {t : State} (ho : execOneStepHmac j s = .next t) : Onward s t
    := by
  unfold execOneStepHmac at ho
  injection ho with ho
  subst ho
  have ho := Onward.refl s
  repeat' (first
      | with_reducible assumption | with_reducible apply State.compute_onward | with_reducible apply kdfJob_onward)

theorem execOneStepKmac_onward (j : Nat) {s : State} {t : State} (ho : execOneStepKmac j s = .next t) : Onward s t
    := by
  unfold execOneStepKmac at ho
  injection ho with ho
  subst ho
  have ho := Onward.refl s
  repeat' (first
      | with_reducible assumption | with_reducible apply State.compute_onward | with_reducible apply kdfJob_onward)

theorem State.pin_onward {s₀ : State} {s : State} (k : Nat) (ho : Onward s₀ s) : Onward s₀ (State.pin s k) := by
  unfold State.pin
  repeat' (first | with_reducible assumption | with_reducible apply State.onSlot_onward)

theorem createJob_onward {s₀ : State} (x : Job) {s : State} (ho : Onward s₀ s) : Onward s₀ (createJob x s).2 := by
  unfold createJob
  repeat' (first
    | with_reducible assumption
    | (with_reducible apply State.onSession_onward)
    | (with_reducible apply State.pin_onward)
    | (with_reducible apply State.cacheSession_onward)
    | with_reducible apply Onward.foldl
    | refine Onward.of_snd (by assumption) ?_
    | split
    | (with_reducible refine Onward.mk_same rfl ?_
       first
       | with_reducible assumption
       | (with_reducible apply State.onSession_onward)
       | (with_reducible apply State.pin_onward)
       | (with_reducible apply State.cacheSession_onward)
       | refine Onward.of_snd (by assumption) ?_)
    | intro _
    | extract_lets
    | dsimp (zeta := false) only
    | dsimp +zetaDelta only)

theorem onSessionJob_onward {s₀ : State} (f : Nat → Job → State → Result × State) (x : Job) {s : State} (hf : ∀ a0
    a1 a2, Onward s₀ a2 → Onward s₀ (f a0 a1 a2).2) (ho : Onward s₀ s) : Onward s₀ (onSessionJob f x s).2 := by
  unfold onSessionJob
  repeat' (first | with_reducible assumption | with_reducible apply hf | split)

theorem State.dropKey_onward {s₀ : State} {s : State} (h : Nat) (ho : Onward s₀ s) : Onward s₀ (State.dropKey s h)
    := by
  unfold State.dropKey
  repeat' (first
      | with_reducible assumption | with_reducible apply State.freeSlot_onward
      | with_reducible apply State.unpin_onward | split | with_reducible refine Onward.mk_same rfl ?_)

theorem State.endSession_onward {s₀ : State} {s : State} (i : Nat) (ho : Onward s₀ s) : Onward s₀ (State.endSession
    s i) := by
  unfold State.endSession
  extract_lets x0_ s1_ s2_ s3_ x4_
  have h_s1_ : Onward s₀ s1_ := by
    dsimp (zeta := false) only [s1_]
    repeat' (first
      | with_reducible assumption
      | (with_reducible apply State.dropKey_onward)
      | (with_reducible apply State.onSession_onward)
      | with_reducible apply Onward.foldl
      | refine Onward.of_snd (by assumption) ?_
      | split
      | (with_reducible refine Onward.mk_same rfl ?_
         first
         | with_reducible assumption
         | (with_reducible apply State.dropKey_onward)
         | (with_reducible apply State.onSession_onward)
         | refine Onward.of_snd (by assumption) ?_)
      | intro _
      | extract_lets
      | dsimp (zeta := false) only
      | dsimp +zetaDelta only)
  try clear_value s1_
  have h_s2_ : Onward s₀ s2_ := by
    dsimp (zeta := false) only [s2_]
    repeat' (first
      | with_reducible assumption
      | (with_reducible apply State.dropKey_onward)
      | (with_reducible apply State.onSession_onward)
      | with_reducible apply Onward.foldl
      | refine Onward.of_snd (by assumption) ?_
      | split
      | (with_reducible refine Onward.mk_same rfl ?_
         first
         | with_reducible assumption
         | (with_reducible apply State.dropKey_onward)
         | (with_reducible apply State.onSession_onward)
         | refine Onward.of_snd (by assumption) ?_)
      | intro _
      | extract_lets
      | dsimp (zeta := false) only
      | dsimp +zetaDelta only)
  try clear_value s2_
  have h_s3_ : Onward s₀ s3_ := by
    dsimp (zeta := false) only [s3_]
    repeat' (first
      | with_reducible assumption
      | (with_reducible apply State.dropKey_onward)
      | (with_reducible apply State.onSession_onward)
      | with_reducible apply Onward.foldl
      | refine Onward.of_snd (by assumption) ?_
      | split
      | (with_reducible refine Onward.mk_same rfl ?_
         first
         | with_reducible assumption
         | (with_reducible apply State.dropKey_onward)
         | (with_reducible apply State.onSession_onward)
         | refine Onward.of_snd (by assumption) ?_)
      | intro _
      | extract_lets
      | dsimp (zeta := false) only
      | dsimp +zetaDelta only)
  try clear_value s3_
  repeat' (first
    | with_reducible assumption
    | (with_reducible apply State.dropKey_onward)
    | (with_reducible apply State.onSession_onward)
    | with_reducible apply Onward.foldl
    | refine Onward.of_snd (by assumption) ?_
    | split
    | (with_reducible refine Onward.mk_same rfl ?_
       first
       | with_reducible assumption
       | (with_reducible apply State.dropKey_onward)
       | (with_reducible apply State.onSession_onward)
       | refine Onward.of_snd (by assumption) ?_)
    | intro _
    | extract_lets
    | dsimp (zeta := false) only
    | dsimp +zetaDelta only)

theorem destroyOne_onward {s₀ : State} (i : Nat) (x : Job) {s : State} (ho : Onward s₀ s) : Onward s₀ (destroyOne i
    x s).2 := State.endSession_onward _ ho

theorem readOne_onward {s₀ : State} (i : Nat) (x : Job) {s : State} (ho : Onward s₀ s) : Onward s₀ (readOne i x s).2
    := by
  unfold readOne
  repeat' (with_reducible assumption)

theorem rekeyOne_onward {s₀ : State} (i : Nat) (x : Job) {s : State} (ho : Onward s₀ s) : Onward s₀ (rekeyOne i x
    s).2 := by
  unfold rekeyOne
  repeat' (first
    | with_reducible assumption
    | (with_reducible apply State.onSession_onward)
    | (with_reducible apply State.pin_onward)
    | with_reducible apply Onward.foldl
    | refine Onward.of_snd (by assumption) ?_
    | split
    | (with_reducible refine Onward.mk_same rfl ?_
       first
       | with_reducible assumption
       | (with_reducible apply State.onSession_onward)
       | (with_reducible apply State.pin_onward)
       | refine Onward.of_snd (by assumption) ?_)
    | intro _
    | extract_lets
    | dsimp (zeta := false) only
    | dsimp +zetaDelta only)

theorem execSessionCreate_onward (j : Nat) {s : State} {t : State} (ho : execSessionCreate j s = .next t) : Onward s
    t := by
  unfold execSessionCreate at ho
  injection ho with ho
  subst ho
  have ho := Onward.refl s
  repeat' (first
      | with_reducible assumption | with_reducible apply State.compute_onward
      | with_reducible apply createJob_onward)

theorem execSessionDestroy_onward (j : Nat) {s : State} {t : State} (ho : execSessionDestroy j s = .next t) : Onward
    s t := by
  unfold execSessionDestroy at ho
  injection ho with ho
  subst ho
  have ho := Onward.refl s
  repeat' (first
      | with_reducible assumption | with_reducible apply State.compute_onward
      | with_reducible apply onSessionJob_onward | with_reducible apply destroyOne_onward | intro _)

theorem execSessionRead_onward (j : Nat) {s : State} {t : State} (ho : execSessionRead j s = .next t) : Onward s t
    := by
  unfold execSessionRead at ho
  injection ho with ho
  subst ho
  have ho := Onward.refl s
  repeat' (first
      | with_reducible assumption | with_reducible apply State.compute_onward
      | with_reducible apply onSessionJob_onward | with_reducible apply readOne_onward | intro _)

theorem execRekey_onward (j : Nat) {s : State} {t : State} (ho : execRekey j s = .next t) : Onward s t := by
  unfold execRekey at ho
  injection ho with ho
  subst ho
  have ho := Onward.refl s
  repeat' (first
      | with_reducible assumption | with_reducible apply State.compute_onward
      | with_reducible apply onSessionJob_onward | with_reducible apply rekeyOne_onward | intro _)

theorem sendOne_onward {s₀ : State} (right : Nat) (f : Session → Bytes → Nat → Bytes) (payload : Nat) (i : Nat) (x :
    Job) {s : State} (ho : Onward s₀ s) : Onward s₀ (sendOne right f payload i x s).2 := by
  unfold sendOne
  repeat' (first
    | with_reducible assumption
    | (with_reducible apply State.onSession_onward)
    | with_reducible apply Onward.foldl
    | refine Onward.of_snd (by assumption) ?_
    | split
    | (with_reducible refine Onward.mk_same rfl ?_
       first
       | with_reducible assumption
       | (with_reducible apply State.onSession_onward)
       | refine Onward.of_snd (by assumption) ?_)
    | intro _
    | extract_lets
    | dsimp (zeta := false) only
    | dsimp +zetaDelta only)

theorem sealOne_onward {s₀ : State} (i : Nat) (x : Job) {s : State} (ho : Onward s₀ s) : Onward s₀ (sealOne i x s).2
    := by
  unfold sealOne
  repeat' (first | with_reducible assumption | with_reducible apply sendOne_onward)

theorem tagOne_onward {s₀ : State} (i : Nat) (x : Job) {s : State} (ho : Onward s₀ s) : Onward s₀ (tagOne i x s).2
    := by
  unfold tagOne
  repeat' (first | with_reducible assumption | with_reducible apply sendOne_onward)

theorem receiveOne_onward {s₀ : State} (right : Nat) (bad : Status) (f : Session → Bytes → Option Bytes) (payload :
    Nat) (c : Nat) (i : Nat) (x : Job) {s : State} (ho : Onward s₀ s) : Onward s₀ (receiveOne right bad f payload c
    i x s).2 := by
  unfold receiveOne
  repeat' (first
    | with_reducible assumption
    | (with_reducible apply State.onSession_onward)
    | with_reducible apply Onward.foldl
    | refine Onward.of_snd (by assumption) ?_
    | split
    | (with_reducible refine Onward.mk_same rfl ?_
       first
       | with_reducible assumption
       | (with_reducible apply State.onSession_onward)
       | refine Onward.of_snd (by assumption) ?_)
    | intro _
    | extract_lets
    | dsimp (zeta := false) only
    | dsimp +zetaDelta only)

theorem openOne_onward {s₀ : State} (i : Nat) (x : Job) {s : State} (ho : Onward s₀ s) : Onward s₀ (openOne i x s).2
    := by
  unfold openOne
  repeat' (first | with_reducible assumption | with_reducible apply receiveOne_onward)

theorem verifyOne_onward {s₀ : State} (i : Nat) (x : Job) {s : State} (ho : Onward s₀ s) : Onward s₀ (verifyOne i x
    s).2 := by
  unfold verifyOne
  repeat' (first | with_reducible assumption | with_reducible apply receiveOne_onward)

theorem execSeal_onward (j : Nat) {s : State} {t : State} (ho : execSeal j s = .next t) : Onward s t := by
  unfold execSeal at ho
  injection ho with ho
  subst ho
  have ho := Onward.refl s
  repeat' (first
      | with_reducible assumption | with_reducible apply State.compute_onward
      | with_reducible apply onSessionJob_onward | with_reducible apply sealOne_onward | intro _)

theorem execSessionOpen_onward (j : Nat) {s : State} {t : State} (ho : execSessionOpen j s = .next t) : Onward s t
    := by
  unfold execSessionOpen at ho
  injection ho with ho
  subst ho
  have ho := Onward.refl s
  repeat' (first
      | with_reducible assumption | with_reducible apply State.compute_onward
      | with_reducible apply onSessionJob_onward | with_reducible apply openOne_onward | intro _)

theorem execTagGenerate_onward (j : Nat) {s : State} {t : State} (ho : execTagGenerate j s = .next t) : Onward s t
    := by
  unfold execTagGenerate at ho
  injection ho with ho
  subst ho
  have ho := Onward.refl s
  repeat' (first
      | with_reducible assumption | with_reducible apply State.compute_onward
      | with_reducible apply onSessionJob_onward | with_reducible apply tagOne_onward | intro _)

theorem execTagVerify_onward (j : Nat) {s : State} {t : State} (ho : execTagVerify j s = .next t) : Onward s t := by
  unfold execTagVerify at ho
  injection ho with ho
  subst ho
  have ho := Onward.refl s
  repeat' (first
      | with_reducible assumption | with_reducible apply State.compute_onward
      | with_reducible apply onSessionJob_onward | with_reducible apply verifyOne_onward | intro _)

theorem rngJob_onward {s₀ : State} (x : Job) {s : State} (ho : Onward s₀ s) : Onward s₀ (rngJob x s).2 := by
  unfold rngJob
  repeat' (with_reducible assumption)

theorem rngPrJob_onward {s₀ : State} (x : Job) {s : State} (ho : Onward s₀ s) : Onward s₀ (rngPrJob x s).2 := by
  unfold rngPrJob
  repeat' (first | with_reducible assumption)

theorem reseedJob_onward {s₀ : State} (x : Job) {s : State} (ho : Onward s₀ s) : Onward s₀ (reseedJob x s).2 := by
  unfold reseedJob
  repeat' (first | with_reducible assumption)

theorem controlJob_onward {s₀ : State} (x : Job) {s : State} (ho : Onward s₀ s) : Onward s₀ (controlJob x s).2 := by
  unfold controlJob
  repeat' (with_reducible assumption)

theorem execRngGenerate_onward (j : Nat) {s : State} {t : State} (ho : execRngGenerate j s = .next t) : Onward s t
    := by
  unfold execRngGenerate at ho
  injection ho with ho
  subst ho
  have ho := Onward.refl s
  repeat' (first
      | with_reducible assumption | with_reducible apply State.compute_onward | with_reducible apply rngJob_onward)

theorem execRngGeneratePr_onward (j : Nat) {s : State} {t : State} (ho : execRngGeneratePr j s = .next t) : Onward s
    t := by
  unfold execRngGeneratePr at ho
  injection ho with ho
  subst ho
  have ho := Onward.refl s
  repeat' (first
      | with_reducible assumption | with_reducible apply State.compute_onward
      | with_reducible apply rngPrJob_onward)

theorem execRngReseed_onward (j : Nat) {s : State} {t : State} (ho : execRngReseed j s = .next t) : Onward s t := by
  unfold execRngReseed at ho
  injection ho with ho
  subst ho
  have ho := Onward.refl s
  repeat' (first
      | with_reducible assumption | with_reducible apply State.compute_onward
      | with_reducible apply reseedJob_onward)

theorem execNoOp_onward (j : Nat) {s : State} {t : State} (ho : execNoOp j s = .next t) : Onward s t := by
  unfold execNoOp at ho
  injection ho with ho
  subst ho
  have ho := Onward.refl s
  repeat' (first
      | with_reducible assumption | with_reducible apply State.compute_onward
      | with_reducible apply controlJob_onward)

theorem execClearFlags_onward (j : Nat) {s : State} {t : State} (ho : execClearFlags j s = .next t) : Onward s t := by
  unfold execClearFlags at ho
  injection ho with ho
  subst ho
  have ho := Onward.refl s
  repeat' (first
      | with_reducible assumption | with_reducible apply State.compute_onward
      | with_reducible apply controlJob_onward)

theorem generateJob_onward {s₀ : State} (x : Job) {s : State} (ho : Onward s₀ s) : Onward s₀ (generateJob x s).2 := by
  unfold generateJob
  repeat' (first | with_reducible assumption | with_reducible apply State.deliver_onward)

theorem importBytes_onward {s₀ : State} (b : Bytes) (x : Job) {s : State} (ho : Onward s₀ s) : Onward s₀
    (importBytes b x s).2 := by
  unfold importBytes
  repeat' (first | with_reducible assumption | with_reducible apply State.deliver_onward | split)

theorem importJob_onward {s₀ : State} (x : Job) {s : State} (ho : Onward s₀ s) : Onward s₀ (importJob x s).2 := by
  unfold importJob
  repeat' (first | with_reducible assumption | with_reducible apply importBytes_onward)

theorem unwrapJob_onward {s₀ : State} (x : Job) {s : State} (ho : Onward s₀ s) : Onward s₀ (unwrapJob x s).2 := by
  unfold unwrapJob
  repeat' (first | with_reducible assumption | with_reducible apply importBytes_onward | split)

theorem State.subjectSlot_onward {s₀ : State} {s : State} (i : Nat) (ho : Onward s₀ s) : Onward s₀
    (State.subjectSlot s i).2 := by
  unfold State.subjectSlot
  repeat' (first
    | with_reducible assumption
    | (with_reducible apply State.readSlot_onward)
    | with_reducible apply Onward.foldl
    | refine Onward.of_snd (by assumption) ?_
    | split
    | (with_reducible refine Onward.mk_same rfl ?_
       first
       | with_reducible assumption
       | (with_reducible apply State.readSlot_onward)
       | refine Onward.of_snd (by assumption) ?_)
    | intro _
    | extract_lets
    | dsimp (zeta := false) only
    | dsimp +zetaDelta only)

theorem State.subjectBlob_onward {s₀ : State} {s : State} (n : Nat) (b : Bytes) (ho : Onward s₀ s) : Onward s₀
    (State.subjectBlob s n b).2 := by
  unfold State.subjectBlob
  repeat' (first
    | with_reducible assumption
    | (with_reducible apply State.loadBlob_onward)
    | (with_reducible apply State.subjectSlot_onward)
    | with_reducible apply Onward.foldl
    | refine Onward.of_snd (by assumption) ?_
    | split
    | (with_reducible refine Onward.mk_same rfl ?_
       first
       | with_reducible assumption
       | (with_reducible apply State.loadBlob_onward)
       | (with_reducible apply State.subjectSlot_onward)
       | refine Onward.of_snd (by assumption) ?_)
    | intro _
    | extract_lets
    | dsimp (zeta := false) only
    | dsimp +zetaDelta only)

theorem State.subjectWindow_onward {s₀ : State} {s : State} (n : Nat) (a : Except HCause Bytes) (ho : Onward s₀ s) :
    Onward s₀ (State.subjectWindow s n a).2 := by
  unfold State.subjectWindow
  repeat' (first
    | with_reducible assumption
    | (with_reducible apply State.subjectBlob_onward)
    | with_reducible apply Onward.foldl
    | refine Onward.of_snd (by assumption) ?_
    | split
    | (with_reducible refine Onward.mk_same rfl ?_
       first
       | with_reducible assumption
       | (with_reducible apply State.subjectBlob_onward)
       | refine Onward.of_snd (by assumption) ?_)
    | intro _
    | extract_lets
    | dsimp (zeta := false) only
    | dsimp +zetaDelta only)

theorem State.subjectOf_onward {s₀ : State} {s : State} (x : Job) (ho : Onward s₀ s) : Onward s₀ (State.subjectOf s
    x).2 := by
  unfold State.subjectOf
  repeat' (first
    | with_reducible assumption
    | (with_reducible apply State.subjectSlot_onward)
    | (with_reducible apply State.subjectWindow_onward)
    | (with_reducible apply State.subjectBlob_onward)
    | with_reducible apply Onward.foldl
    | refine Onward.of_snd (by assumption) ?_
    | split
    | (with_reducible refine Onward.mk_same rfl ?_
       first
       | with_reducible assumption
       | (with_reducible apply State.subjectSlot_onward)
       | (with_reducible apply State.subjectWindow_onward)
       | (with_reducible apply State.subjectBlob_onward)
       | refine Onward.of_snd (by assumption) ?_)
    | intro _
    | extract_lets
    | dsimp (zeta := false) only
    | dsimp +zetaDelta only)

theorem State.readOwn_onward {s₀ : State} {s : State} (x : Job) (ho : Onward s₀ s) : Onward s₀ (State.readOwn s x)
    := by
  unfold State.readOwn
  repeat' (first
    | with_reducible assumption
    | (with_reducible apply State.readSlot_onward)
    | with_reducible apply Onward.foldl
    | refine Onward.of_snd (by assumption) ?_
    | split
    | (with_reducible refine Onward.mk_same rfl ?_
       first
       | with_reducible assumption
       | (with_reducible apply State.readSlot_onward)
       | refine Onward.of_snd (by assumption) ?_)
    | intro _
    | extract_lets
    | dsimp (zeta := false) only
    | dsimp +zetaDelta only)

theorem wrapJob_onward {s₀ : State} (x : Job) {s : State} (ho : Onward s₀ s) : Onward s₀ (wrapJob x s).2 := by
  unfold wrapJob
  repeat' (first
    | with_reducible assumption
    | (with_reducible apply State.subjectOf_onward)
    | (with_reducible apply State.readOwn_onward)
    | with_reducible apply Onward.foldl
    | refine Onward.of_snd (by assumption) ?_
    | split
    | (with_reducible refine Onward.mk_same rfl ?_
       first
       | with_reducible assumption
       | (with_reducible apply State.subjectOf_onward)
       | (with_reducible apply State.readOwn_onward)
       | refine Onward.of_snd (by assumption) ?_)
    | intro _
    | extract_lets
    | dsimp (zeta := false) only
    | dsimp +zetaDelta only)

theorem deriveJob_onward {s₀ : State} (x : Job) {s : State} (ho : Onward s₀ s) : Onward s₀ (deriveJob x s).2 := by
  unfold deriveJob
  extract_lets s0_ x1_ x2_ x3_ x4_
  have h_s0_ : Onward s₀ s0_ := by
    dsimp (zeta := false) only [s0_]
    repeat' (first
      | with_reducible assumption
      | (with_reducible apply State.readOwn_onward)
      | (with_reducible apply State.deliver_onward)
      | with_reducible apply Onward.foldl
      | refine Onward.of_snd (by assumption) ?_
      | split
      | (with_reducible refine Onward.mk_same rfl ?_
         first
         | with_reducible assumption
         | (with_reducible apply State.readOwn_onward)
         | (with_reducible apply State.deliver_onward)
         | refine Onward.of_snd (by assumption) ?_)
      | intro _
      | extract_lets
      | dsimp (zeta := false) only
      | dsimp +zetaDelta only)
  try clear_value s0_
  repeat' (first
    | with_reducible assumption
    | (with_reducible apply State.readOwn_onward)
    | (with_reducible apply State.deliver_onward)
    | with_reducible apply Onward.foldl
    | refine Onward.of_snd (by assumption) ?_
    | split
    | (with_reducible refine Onward.mk_same rfl ?_
       first
       | with_reducible assumption
       | (with_reducible apply State.readOwn_onward)
       | (with_reducible apply State.deliver_onward)
       | refine Onward.of_snd (by assumption) ?_)
    | intro _
    | extract_lets
    | dsimp (zeta := false) only
    | dsimp +zetaDelta only)

theorem State.relocate_onward {s₀ s t : State} {keyId : Bytes} {gen : Nat} (e : s.relocate keyId gen = some t)
    (h : Onward s₀ s) : Onward s₀ t := by
  unfold State.relocate at e
  split at e
  · cases e
    exact h
  · exact State.moveRecord_onward e h

theorem State.relocateFailed_onward {s₀ s : State} (k : KeySlot) (h : Onward s₀ s) : Onward s₀ (s.relocateFailed k)
    := by
  unfold State.relocateFailed
  exact State.event_onward _ _ _ _ _ _ h

theorem State.freeOlder_onward {s₀ s : State} (n g : Nat) (keyId : Bytes) (h : Onward s₀ s) :
    Onward s₀ (s.freeOlder n g keyId) := State.freeSlots_onward _ h

theorem rewrapJob_onward {s₀ : State} (ok : Bool) (x : Job) {s : State} (ho : Onward s₀ s) : Onward s₀ (rewrapJob ok
    x s).2 := by
  unfold rewrapJob
  extract_lets s0_
  have h_s0_ : Onward s₀ s0_ := by
    dsimp (zeta := false) only [s0_]
    repeat' (first
      | with_reducible assumption
      | (with_reducible apply State.readOwn_onward)
      | (refine State.relocate_onward (by assumption) ?_)
      | (with_reducible apply State.relocateFailed_onward)
      | (with_reducible apply State.freeOlder_onward)
      | with_reducible apply Onward.foldl
      | refine Onward.of_snd (by assumption) ?_
      | split
      | (with_reducible refine Onward.mk_same rfl ?_
         first
         | with_reducible assumption
         | (with_reducible apply State.readOwn_onward)
         | (refine State.relocate_onward (by assumption) ?_)
         | (with_reducible apply State.relocateFailed_onward)
         | (with_reducible apply State.freeOlder_onward)
         | refine Onward.of_snd (by assumption) ?_)
      | intro _
      | extract_lets
      | dsimp (zeta := false) only
      | dsimp +zetaDelta only)
  try clear_value s0_
  repeat' (first
    | with_reducible assumption
    | (with_reducible apply State.readOwn_onward)
    | (refine State.relocate_onward (by assumption) ?_)
    | (with_reducible apply State.relocateFailed_onward)
    | (with_reducible apply State.freeOlder_onward)
    | with_reducible apply Onward.foldl
    | refine Onward.of_snd (by assumption) ?_
    | split
    | (with_reducible refine Onward.mk_same rfl ?_
       first
       | with_reducible assumption
       | (with_reducible apply State.readOwn_onward)
       | (refine State.relocate_onward (by assumption) ?_)
       | (with_reducible apply State.relocateFailed_onward)
       | (with_reducible apply State.freeOlder_onward)
       | refine Onward.of_snd (by assumption) ?_)
    | intro _
    | extract_lets
    | dsimp (zeta := false) only
    | dsimp +zetaDelta only)

theorem State.evictSlot_onward {s₀ : State} {s : State} (i : Nat) (ho : Onward s₀ s) : Onward s₀ (State.evictSlot s
    i).2 := by
  unfold State.evictSlot
  repeat' (first | with_reducible assumption | with_reducible apply State.freeSlot_onward | split)

theorem evictJob_onward {s₀ : State} (x : Job) {s : State} (ho : Onward s₀ s) : Onward s₀ (evictJob x s).2 := by
  unfold evictJob
  repeat' (first | with_reducible assumption | with_reducible apply State.evictSlot_onward | split)

theorem State.destroyBlob_onward {s₀ : State} {s : State} (x : Job) (ho : Onward s₀ s) : Onward s₀
    (State.destroyBlob s x).2 := by
  unfold State.destroyBlob
  repeat' (first
    | with_reducible assumption
    | (with_reducible apply State.onRecord_onward)
    | (with_reducible apply State.freeSlots_onward)
    | with_reducible apply Onward.foldl
    | refine Onward.of_snd (by assumption) ?_
    | split
    | (with_reducible refine Onward.mk_same rfl ?_
       first
       | with_reducible assumption
       | (with_reducible apply State.onRecord_onward)
       | (with_reducible apply State.freeSlots_onward)
       | refine Onward.of_snd (by assumption) ?_)
    | intro _
    | extract_lets
    | dsimp (zeta := false) only
    | dsimp +zetaDelta only)

theorem destroyJob_onward {s₀ : State} (x : Job) {s : State} (ho : Onward s₀ s) : Onward s₀ (destroyJob x s).2 := by
  unfold destroyJob
  repeat' (first
    | with_reducible assumption
    | (with_reducible apply State.evictSlot_onward)
    | (with_reducible apply State.destroyBlob_onward)
    | with_reducible apply Onward.foldl
    | refine Onward.of_snd (by assumption) ?_
    | split
    | (with_reducible refine Onward.mk_same rfl ?_
       first
       | with_reducible assumption
       | (with_reducible apply State.evictSlot_onward)
       | (with_reducible apply State.destroyBlob_onward)
       | refine Onward.of_snd (by assumption) ?_)
    | intro _
    | extract_lets
    | dsimp (zeta := false) only
    | dsimp +zetaDelta only)

theorem loadJob_onward {s₀ : State} (x : Job) {s : State} (ho : Onward s₀ s) : Onward s₀ (loadJob x s).2 := by
  unfold loadJob
  repeat' (first | with_reducible assumption | with_reducible apply State.onSlot_onward | split)

theorem storeJob_onward {s₀ : State} (x : Job) {s : State} (ho : Onward s₀ s) : Onward s₀ (storeJob x s).2 := by
  unfold storeJob
  repeat' (first
    | with_reducible assumption
    | (with_reducible apply State.accessFault_onward)
    | (with_reducible apply State.cmcWrite_onward)
    | with_reducible apply Onward.foldl
    | refine Onward.of_snd (by assumption) ?_
    | split
    | (with_reducible refine Onward.mk_same rfl ?_
       first
       | with_reducible assumption
       | (with_reducible apply State.accessFault_onward)
       | (with_reducible apply State.cmcWrite_onward)
       | refine Onward.of_snd (by assumption) ?_)
    | intro _
    | extract_lets
    | dsimp (zeta := false) only
    | dsimp +zetaDelta only)

theorem State.loadFound_onward {s₀ : State} {s : State} (n : Nat) (i : Nat) (a : Except HCause Bytes) (ho : Onward
    s₀ s) : Onward s₀ (State.loadFound s n i a).2 := by
  unfold State.loadFound
  repeat' (first | with_reducible assumption | with_reducible apply State.loadBlob_onward | split)

theorem State.loadOffset_onward {s₀ s : State} (n off i : Nat) (h : Onward s₀ s) :
    Onward s₀ (s.loadOffset n off i).2 :=
  State.loadFound_onward n i _ (State.noteRead_onward _ _ (State.openGroups_onward _ _ h))

theorem afterLoad_onward {s₀ : State} (p : KeyRes Nat × State) (k : Nat → State → Result × State)
    (hk : ∀ i s, Onward s₀ s → Onward s₀ (k i s).2) (h : Onward s₀ p.2) : Onward s₀ (afterLoad p k).2 := by
  unfold afterLoad
  split
  · exact h
  · exact hk _ _ h

theorem State.loadOffsets_onward {s₀ s : State} (n : Nat) (l : List Nat) (i : Nat) (o : Bytes) (h : Onward s₀ s) :
    Onward s₀ (s.loadOffsets n l i o).2 := by
  induction l generalizing s i o with
  | nil => exact h
  | cons off l ih => exact afterLoad_onward _ _ (fun k s h => ih _ _ h) (State.loadOffset_onward n off i h)

theorem loadListJob_onward {s₀ : State} (x : Job) {s : State} (ho : Onward s₀ s) : Onward s₀ (loadListJob x s).2 := by
  unfold loadListJob
  repeat' (first | with_reducible assumption | with_reducible apply State.loadOffsets_onward)

theorem State.listResumes_onward {s₀ : State} {s : State} (j : Nat) (ho : Onward s₀ s) : Onward s₀
    (State.listResumes s j) := by
  unfold State.listResumes
  repeat' (first
    | with_reducible assumption
    | (with_reducible apply State.putJob_onward)
    | with_reducible apply Onward.foldl
    | refine Onward.of_snd (by assumption) ?_
    | split
    | (with_reducible refine Onward.mk_same rfl ?_
       first
       | with_reducible assumption
       | (with_reducible apply State.putJob_onward)
       | refine Onward.of_snd (by assumption) ?_)
    | intro _
    | extract_lets
    | dsimp (zeta := false) only
    | dsimp +zetaDelta only)

theorem execGenerate_onward (j : Nat) {s : State} {t : State} (ho : execGenerate j s = .next t) : Onward s t := by
  unfold execGenerate at ho
  injection ho with ho
  subst ho
  have ho := Onward.refl s
  repeat' (first
      | with_reducible assumption | with_reducible apply State.compute_onward
      | with_reducible apply generateJob_onward)

theorem execImportKey_onward (j : Nat) {s : State} {t : State} (ho : execImportKey j s = .next t) : Onward s t := by
  unfold execImportKey at ho
  injection ho with ho
  subst ho
  have ho := Onward.refl s
  repeat' (first
      | with_reducible assumption | with_reducible apply State.compute_onward
      | with_reducible apply importJob_onward)

theorem execWrap_onward (j : Nat) {s : State} {t : State} (ho : execWrap j s = .next t) : Onward s t := by
  unfold execWrap at ho
  injection ho with ho
  subst ho
  have ho := Onward.refl s
  repeat' (first
      | with_reducible assumption | with_reducible apply State.compute_onward | with_reducible apply wrapJob_onward)

theorem execUnwrap_onward (j : Nat) {s : State} {t : State} (ho : execUnwrap j s = .next t) : Onward s t := by
  unfold execUnwrap at ho
  injection ho with ho
  subst ho
  have ho := Onward.refl s
  repeat' (first
      | with_reducible assumption | with_reducible apply State.compute_onward
      | with_reducible apply unwrapJob_onward)

theorem execDeriveKey_onward (j : Nat) {s : State} {t : State} (ho : execDeriveKey j s = .next t) : Onward s t := by
  unfold execDeriveKey at ho
  injection ho with ho
  subst ho
  have ho := Onward.refl s
  repeat' (first
      | with_reducible assumption | with_reducible apply State.compute_onward
      | with_reducible apply deriveJob_onward)

theorem execRewrap_onward (j : Nat) (ok : Bool) {s : State} {t : State} (ho : execRewrap j ok s = .next t) : Onward
    s t := by
  unfold execRewrap at ho
  injection ho with ho
  subst ho
  have ho := Onward.refl s
  repeat' (first
      | with_reducible assumption | with_reducible apply State.compute_onward
      | with_reducible apply rewrapJob_onward)

theorem execDestroy_onward (j : Nat) {s : State} {t : State} (ho : execDestroy j s = .next t) : Onward s t := by
  unfold execDestroy at ho
  injection ho with ho
  subst ho
  have ho := Onward.refl s
  repeat' (first
      | with_reducible assumption | with_reducible apply State.compute_onward
      | with_reducible apply destroyJob_onward | split)

theorem execLoad_onward (j : Nat) {s : State} {t : State} (ho : execLoad j s = .next t) : Onward s t := by
  unfold execLoad at ho
  injection ho with ho
  subst ho
  have ho := Onward.refl s
  repeat' (first
      | with_reducible assumption | with_reducible apply State.compute_onward | with_reducible apply loadJob_onward)

theorem execEvict_onward (j : Nat) {s : State} {t : State} (ho : execEvict j s = .next t) : Onward s t := by
  unfold execEvict at ho
  injection ho with ho
  subst ho
  have ho := Onward.refl s
  repeat' (first
      | with_reducible assumption | with_reducible apply State.compute_onward
      | with_reducible apply evictJob_onward)

theorem execBlobStore_onward (j : Nat) {s : State} {t : State} (ho : execBlobStore j s = .next t) : Onward s t := by
  unfold execBlobStore at ho
  injection ho with ho
  subst ho
  have ho := Onward.refl s
  repeat' (first
      | with_reducible assumption | with_reducible apply State.compute_onward | with_reducible apply storeJob_onward
      | split)

theorem execLoadList_onward (j : Nat) {s : State} {t : State} (ho : execLoadList j s = .next t) : Onward s t := by
  unfold execLoadList at ho
  injection ho with ho
  subst ho
  have ho := Onward.refl s
  extract_lets s0_
  have h_s0_ : Onward s s0_ := by
    dsimp (zeta := false) only [s0_]
    repeat' (first
      | with_reducible assumption
      | (with_reducible apply State.listResumes_onward)
      | (with_reducible apply State.awaitHarvest_onward)
      | (with_reducible apply State.compute_onward)
      | (with_reducible apply loadListJob_onward)
      | with_reducible apply Onward.foldl
      | refine Onward.of_snd (by assumption) ?_
      | split
      | (with_reducible refine Onward.mk_same rfl ?_
         first
         | with_reducible assumption
         | (with_reducible apply State.listResumes_onward)
         | (with_reducible apply State.awaitHarvest_onward)
         | (with_reducible apply State.compute_onward)
         | (with_reducible apply loadListJob_onward)
         | refine Onward.of_snd (by assumption) ?_)
      | intro _
      | extract_lets
      | dsimp (zeta := false) only
      | dsimp +zetaDelta only)
  try clear_value s0_
  repeat' (first
    | with_reducible assumption
    | (with_reducible apply State.listResumes_onward)
    | (with_reducible apply State.awaitHarvest_onward)
    | (with_reducible apply State.compute_onward)
    | (with_reducible apply loadListJob_onward)
    | with_reducible apply Onward.foldl
    | refine Onward.of_snd (by assumption) ?_
    | split
    | (with_reducible refine Onward.mk_same rfl ?_
       first
       | with_reducible assumption
       | (with_reducible apply State.listResumes_onward)
       | (with_reducible apply State.awaitHarvest_onward)
       | (with_reducible apply State.compute_onward)
       | (with_reducible apply loadListJob_onward)
       | refine Onward.of_snd (by assumption) ?_)
    | intro _
    | extract_lets
    | dsimp (zeta := false) only
    | dsimp +zetaDelta only)

theorem readingJob_onward {s₀ : State} (x : Job) {s : State} (ho : Onward s₀ s) : Onward s₀ (readingJob x s).2 := by
  unfold readingJob
  repeat' (with_reducible assumption)

theorem State.total_onward {s₀ s : State} (n : Nat) (h : Onward s₀ s) : Onward s₀ (s.total n).2 := by
  unfold State.total
  split
  · exact h
  · exact h.upd (free := Nat.le_succ _)

theorem State.takeCounter_onward {s₀ s t : State} {n : Nat} (e : s.takeCounter = some (n, t))
    (h : Onward s₀ s) : Onward s₀ t := by
  unfold State.takeCounter at e
  dsimp only at e
  split at e
  · cases e
  · cases e
    exact h.same rfl

theorem State.statementOf_onward {s₀ s : State} (x : Job) (l : List Reading) (k : KeySlot) (t : Bytes) (c : Int)
    (n : Nat) (h : Onward s₀ s) : Onward s₀ (s.statementOf x l k t c n).2 :=
  State.total_onward _ (State.total_onward _ (State.total_onward _ h))

theorem statementJob_onward {s₀ s : State} (x : Job) (h : Onward s₀ s) : Onward s₀ (statementJob x s).2 := by
  unfold statementJob
  extract_lets k l
  split
  · exact h
  · split
    · exact h
    · exact State.statementOf_onward _ _ _ _ _ _ (State.takeCounter_onward ‹_› h)

theorem State.lastCounter_onward {s₀ s : State} (h : Onward s₀ s) : Onward s₀ s.lastCounter.2 := by
  unfold State.lastCounter
  split
  · exact h
  · exact h.upd (free := Nat.le_succ _)

theorem identifyJob_onward {s₀ : State} (x : Job) {s : State} (ho : Onward s₀ s) : Onward s₀ (identifyJob x s).2 := by
  unfold identifyJob
  repeat' (first | with_reducible assumption | with_reducible apply State.lastCounter_onward)

theorem logReadJob_onward {s₀ : State} (x : Job) {s : State} (ho : Onward s₀ s) : Onward s₀ (logReadJob x s).2 := by
  unfold logReadJob
  repeat' (with_reducible assumption)

theorem execReadingVerify_onward (j : Nat) {s : State} {t : State} (ho : execReadingVerify j s = .next t) : Onward s
    t := by
  unfold execReadingVerify at ho
  injection ho with ho
  subst ho
  have ho := Onward.refl s
  repeat' (first
      | with_reducible assumption | with_reducible apply State.compute_onward
      | with_reducible apply readingJob_onward)

theorem execStatement_onward (j : Nat) {s : State} {t : State} (ho : execStatement j s = .next t) : Onward s t := by
  unfold execStatement at ho
  injection ho with ho
  subst ho
  have ho := Onward.refl s
  repeat' (first
      | with_reducible assumption | with_reducible apply State.compute_onward
      | with_reducible apply statementJob_onward | intro _)

theorem execIdentify_onward (j : Nat) {s : State} {t : State} (ho : execIdentify j s = .next t) : Onward s t := by
  unfold execIdentify at ho
  injection ho with ho
  subst ho
  have ho := Onward.refl s
  repeat' (first
      | with_reducible assumption | with_reducible apply State.compute_onward
      | with_reducible apply identifyJob_onward)

theorem execLogRead_onward (j : Nat) {s : State} {t : State} (ho : execLogRead j s = .next t) : Onward s t := by
  unfold execLogRead at ho
  injection ho with ho
  subst ho
  have ho := Onward.refl s
  repeat' (first
      | with_reducible assumption | with_reducible apply State.compute_onward
      | with_reducible apply logReadJob_onward)

theorem execStatementCounterCommit_onward (ok : Bool) {s : State} {t : State} (ho : execStatementCounterCommit ok s
    = .next t) : Onward s t := by
  unfold execStatementCounterCommit at ho
  injection ho with ho
  subst ho
  have ho := Onward.refl s
  repeat' (first | with_reducible assumption | split | with_reducible refine Onward.mk_same rfl ?_)

theorem State.kernelFault_onward {s₀ : State} {s : State} (e : Nat) (v : Vce) (cause : Nat) (index : Nat) (ho :
    Onward s₀ s) : Onward s₀ (State.kernelFault s e v cause index) := by
  unfold State.kernelFault
  repeat' (first
      | with_reducible assumption | with_reducible apply State.instrFault_onward
      | with_reducible apply State.onVce_onward)

theorem State.runTo_onward {s₀ : State} {s : State} (e : Nat) (v : Vce) (ho : Onward s₀ s) : Onward s₀ (State.runTo
    s e v) := by
  unfold State.runTo
  repeat' (first
    | with_reducible assumption
    | (with_reducible apply State.engineFault_onward)
    | (with_reducible apply State.onVce_onward)
    | with_reducible apply Onward.foldl
    | refine Onward.of_snd (by assumption) ?_
    | split
    | (with_reducible refine Onward.mk_same rfl ?_
       first
       | with_reducible assumption
       | (with_reducible apply State.engineFault_onward)
       | (with_reducible apply State.onVce_onward)
       | refine Onward.of_snd (by assumption) ?_)
    | intro _
    | extract_lets
    | dsimp (zeta := false) only
    | dsimp +zetaDelta only)

theorem State.fetchWord_onward {s₀ : State} {s : State} (e : Nat) (word : Lane → Bool) (imm : Option Lane) (act :
    State → Nat → Job → Vce → State) (hact : ∀ a0 a1 a2 a3, Onward s₀ a0 → Onward s₀ (act a0 a1 a2 a3)) (ho : Onward
    s₀ s) : Onward s₀ (State.fetchWord s e word imm act) := by
  unfold State.fetchWord
  repeat' (first
    | with_reducible assumption
    | (with_reducible apply State.kernelFault_onward)
    | (with_reducible apply hact)
    | with_reducible apply Onward.foldl
    | refine Onward.of_snd (by assumption) ?_
    | split
    | (with_reducible refine Onward.mk_same rfl ?_
       first
       | with_reducible assumption
       | (with_reducible apply State.kernelFault_onward)
       | (with_reducible apply hact)
       | refine Onward.of_snd (by assumption) ?_)
    | intro _
    | extract_lets
    | dsimp (zeta := false) only
    | dsimp +zetaDelta only)

theorem State.fetch_onward {s₀ : State} {s : State} (e : Nat) (op : Nat) (f : VFields) (long : Bool) (act : State →
    Nat → Job → Vce → State) (hact : ∀ a0 a1 a2 a3, Onward s₀ a0 → Onward s₀ (act a0 a1 a2 a3)) (ho : Onward s₀ s) :
    Onward s₀ (State.fetch s e op f long act) := by
  unfold State.fetch
  repeat' (first
    | with_reducible assumption
    | (with_reducible apply State.fetchWord_onward)
    | (with_reducible apply hact)
    | with_reducible apply Onward.foldl
    | refine Onward.of_snd (by assumption) ?_
    | split
    | (with_reducible refine Onward.mk_same rfl ?_
       first
       | with_reducible assumption
       | (with_reducible apply State.fetchWord_onward)
       | (with_reducible apply hact)
       | refine Onward.of_snd (by assumption) ?_)
    | intro _
    | extract_lets
    | dsimp (zeta := false) only
    | dsimp +zetaDelta only)

theorem State.vector_onward {s₀ : State} {s : State} (e : Nat) (op : Nat) (f : VFields) (long : Bool) (fault : Vce →
    VFields → Option Nat) (eff : Vce → VFields → Vce) (ho : Onward s₀ s) : Onward s₀ (State.vector s e op f long
    fault eff) := by
  unfold State.vector
  repeat' (first
    | with_reducible assumption
    | (with_reducible apply State.fetch_onward)
    | (with_reducible apply State.kernelFault_onward)
    | (with_reducible apply State.runTo_onward)
    | with_reducible apply Onward.foldl
    | refine Onward.of_snd (by assumption) ?_
    | split
    | (with_reducible refine Onward.mk_same rfl ?_
       first
       | with_reducible assumption
       | (with_reducible apply State.fetch_onward)
       | (with_reducible apply State.kernelFault_onward)
       | (with_reducible apply State.runTo_onward)
       | refine Onward.of_snd (by assumption) ?_)
    | intro _
    | extract_lets
    | dsimp (zeta := false) only
    | dsimp +zetaDelta only)

theorem execVsetl_onward (e : Nat) (f : VFields) {s : State} {t : State} (ho : execVsetl e f s = .next t) : Onward s
    t := by
  unfold execVsetl at ho
  injection ho with ho
  subst ho
  have ho := Onward.refl s
  repeat' (first
    | with_reducible assumption
    | (with_reducible apply State.vector_onward)
    | with_reducible apply Onward.foldl
    | refine Onward.of_snd (by assumption) ?_
    | split
    | (with_reducible refine Onward.mk_same rfl ?_
       first
       | with_reducible assumption
       | (with_reducible apply State.vector_onward)
       | refine Onward.of_snd (by assumption) ?_)
    | intro _
    | extract_lets
    | dsimp (zeta := false) only
    | dsimp +zetaDelta only)

theorem execVcfg_onward (e : Nat) (f : VFields) {s : State} {t : State} (ho : execVcfg e f s = .next t) : Onward s t
    := by
  unfold execVcfg at ho
  injection ho with ho
  subst ho
  have ho := Onward.refl s
  repeat' (first
    | with_reducible assumption
    | (with_reducible apply State.vector_onward)
    | with_reducible apply Onward.foldl
    | refine Onward.of_snd (by assumption) ?_
    | split
    | (with_reducible refine Onward.mk_same rfl ?_
       first
       | with_reducible assumption
       | (with_reducible apply State.vector_onward)
       | refine Onward.of_snd (by assumption) ?_)
    | intro _
    | extract_lets
    | dsimp (zeta := false) only
    | dsimp +zetaDelta only)

theorem execVsetq_onward (e : Nat) (f : VFields) {s : State} {t : State} (ho : execVsetq e f s = .next t) : Onward s
    t := by
  unfold execVsetq at ho
  injection ho with ho
  subst ho
  have ho := Onward.refl s
  repeat' (first
    | with_reducible assumption
    | (with_reducible apply State.vector_onward)
    | with_reducible apply Onward.foldl
    | refine Onward.of_snd (by assumption) ?_
    | split
    | (with_reducible refine Onward.mk_same rfl ?_
       first
       | with_reducible assumption
       | (with_reducible apply State.vector_onward)
       | refine Onward.of_snd (by assumption) ?_)
    | intro _
    | extract_lets
    | dsimp (zeta := false) only
    | dsimp +zetaDelta only)

theorem execSop_onward (e : Nat) (f : VFields) {s : State} {t : State} (ho : execSop e f s = .next t) : Onward s t
    := by
  unfold execSop at ho
  injection ho with ho
  subst ho
  have ho := Onward.refl s
  repeat' (first
    | with_reducible assumption
    | (with_reducible apply State.vector_onward)
    | with_reducible apply Onward.foldl
    | refine Onward.of_snd (by assumption) ?_
    | split
    | (with_reducible refine Onward.mk_same rfl ?_
       first
       | with_reducible assumption
       | (with_reducible apply State.vector_onward)
       | refine Onward.of_snd (by assumption) ?_)
    | intro _
    | extract_lets
    | dsimp (zeta := false) only
    | dsimp +zetaDelta only)

theorem execSmovv_onward (e : Nat) (f : VFields) {s : State} {t : State} (ho : execSmovv e f s = .next t) : Onward s
    t := by
  unfold execSmovv at ho
  injection ho with ho
  subst ho
  have ho := Onward.refl s
  repeat' (first
    | with_reducible assumption
    | (with_reducible apply State.vector_onward)
    | with_reducible apply Onward.foldl
    | refine Onward.of_snd (by assumption) ?_
    | split
    | (with_reducible refine Onward.mk_same rfl ?_
       first
       | with_reducible assumption
       | (with_reducible apply State.vector_onward)
       | refine Onward.of_snd (by assumption) ?_)
    | intro _
    | extract_lets
    | dsimp (zeta := false) only
    | dsimp +zetaDelta only)

theorem execSmpop_onward (e : Nat) (f : VFields) {s : State} {t : State} (ho : execSmpop e f s = .next t) : Onward s
    t := by
  unfold execSmpop at ho
  injection ho with ho
  subst ho
  have ho := Onward.refl s
  repeat' (first
    | with_reducible assumption
    | (with_reducible apply State.vector_onward)
    | with_reducible apply Onward.foldl
    | refine Onward.of_snd (by assumption) ?_
    | split
    | (with_reducible refine Onward.mk_same rfl ?_
       first
       | with_reducible assumption
       | (with_reducible apply State.vector_onward)
       | refine Onward.of_snd (by assumption) ?_)
    | intro _
    | extract_lets
    | dsimp (zeta := false) only
    | dsimp +zetaDelta only)

theorem execMop_onward (e : Nat) (f : VFields) {s : State} {t : State} (ho : execMop e f s = .next t) : Onward s t
    := by
  unfold execMop at ho
  injection ho with ho
  subst ho
  have ho := Onward.refl s
  repeat' (first
    | with_reducible assumption
    | (with_reducible apply State.vector_onward)
    | with_reducible apply Onward.foldl
    | refine Onward.of_snd (by assumption) ?_
    | split
    | (with_reducible refine Onward.mk_same rfl ?_
       first
       | with_reducible assumption
       | (with_reducible apply State.vector_onward)
       | refine Onward.of_snd (by assumption) ?_)
    | intro _
    | extract_lets
    | dsimp (zeta := false) only
    | dsimp +zetaDelta only)

theorem execVadd_onward (e : Nat) (f : VFields) {s : State} {t : State} (ho : execVadd e f s = .next t) : Onward s t
    := by
  unfold execVadd at ho
  injection ho with ho
  subst ho
  have ho := Onward.refl s
  repeat' (first
    | with_reducible assumption
    | (with_reducible apply State.vector_onward)
    | with_reducible apply Onward.foldl
    | refine Onward.of_snd (by assumption) ?_
    | split
    | (with_reducible refine Onward.mk_same rfl ?_
       first
       | with_reducible assumption
       | (with_reducible apply State.vector_onward)
       | refine Onward.of_snd (by assumption) ?_)
    | intro _
    | extract_lets
    | dsimp (zeta := false) only
    | dsimp +zetaDelta only)

theorem execVsub_onward (e : Nat) (f : VFields) {s : State} {t : State} (ho : execVsub e f s = .next t) : Onward s t
    := by
  unfold execVsub at ho
  injection ho with ho
  subst ho
  have ho := Onward.refl s
  repeat' (first
    | with_reducible assumption
    | (with_reducible apply State.vector_onward)
    | with_reducible apply Onward.foldl
    | refine Onward.of_snd (by assumption) ?_
    | split
    | (with_reducible refine Onward.mk_same rfl ?_
       first
       | with_reducible assumption
       | (with_reducible apply State.vector_onward)
       | refine Onward.of_snd (by assumption) ?_)
    | intro _
    | extract_lets
    | dsimp (zeta := false) only
    | dsimp +zetaDelta only)

theorem execVaddm_onward (e : Nat) (f : VFields) {s : State} {t : State} (ho : execVaddm e f s = .next t) : Onward s
    t := by
  unfold execVaddm at ho
  injection ho with ho
  subst ho
  have ho := Onward.refl s
  repeat' (first
    | with_reducible assumption
    | (with_reducible apply State.vector_onward)
    | with_reducible apply Onward.foldl
    | refine Onward.of_snd (by assumption) ?_
    | split
    | (with_reducible refine Onward.mk_same rfl ?_
       first
       | with_reducible assumption
       | (with_reducible apply State.vector_onward)
       | refine Onward.of_snd (by assumption) ?_)
    | intro _
    | extract_lets
    | dsimp (zeta := false) only
    | dsimp +zetaDelta only)

theorem execVsubm_onward (e : Nat) (f : VFields) {s : State} {t : State} (ho : execVsubm e f s = .next t) : Onward s
    t := by
  unfold execVsubm at ho
  injection ho with ho
  subst ho
  have ho := Onward.refl s
  repeat' (first
    | with_reducible assumption
    | (with_reducible apply State.vector_onward)
    | with_reducible apply Onward.foldl
    | refine Onward.of_snd (by assumption) ?_
    | split
    | (with_reducible refine Onward.mk_same rfl ?_
       first
       | with_reducible assumption
       | (with_reducible apply State.vector_onward)
       | refine Onward.of_snd (by assumption) ?_)
    | intro _
    | extract_lets
    | dsimp (zeta := false) only
    | dsimp +zetaDelta only)

theorem execVmul_onward (e : Nat) (f : VFields) {s : State} {t : State} (ho : execVmul e f s = .next t) : Onward s t
    := by
  unfold execVmul at ho
  injection ho with ho
  subst ho
  have ho := Onward.refl s
  repeat' (first
    | with_reducible assumption
    | (with_reducible apply State.vector_onward)
    | with_reducible apply Onward.foldl
    | refine Onward.of_snd (by assumption) ?_
    | split
    | (with_reducible refine Onward.mk_same rfl ?_
       first
       | with_reducible assumption
       | (with_reducible apply State.vector_onward)
       | refine Onward.of_snd (by assumption) ?_)
    | intro _
    | extract_lets
    | dsimp (zeta := false) only
    | dsimp +zetaDelta only)

theorem execVmulw_onward (e : Nat) (f : VFields) {s : State} {t : State} (ho : execVmulw e f s = .next t) : Onward s
    t := by
  unfold execVmulw at ho
  injection ho with ho
  subst ho
  have ho := Onward.refl s
  repeat' (first
    | with_reducible assumption
    | (with_reducible apply State.vector_onward)
    | with_reducible apply Onward.foldl
    | refine Onward.of_snd (by assumption) ?_
    | split
    | (with_reducible refine Onward.mk_same rfl ?_
       first
       | with_reducible assumption
       | (with_reducible apply State.vector_onward)
       | refine Onward.of_snd (by assumption) ?_)
    | intro _
    | extract_lets
    | dsimp (zeta := false) only
    | dsimp +zetaDelta only)

theorem execVmacw_onward (e : Nat) (f : VFields) {s : State} {t : State} (ho : execVmacw e f s = .next t) : Onward s
    t := by
  unfold execVmacw at ho
  injection ho with ho
  subst ho
  have ho := Onward.refl s
  repeat' (first
    | with_reducible assumption
    | (with_reducible apply State.vector_onward)
    | with_reducible apply Onward.foldl
    | refine Onward.of_snd (by assumption) ?_
    | split
    | (with_reducible refine Onward.mk_same rfl ?_
       first
       | with_reducible assumption
       | (with_reducible apply State.vector_onward)
       | refine Onward.of_snd (by assumption) ?_)
    | intro _
    | extract_lets
    | dsimp (zeta := false) only
    | dsimp +zetaDelta only)

theorem execVdot_onward (e : Nat) (f : VFields) {s : State} {t : State} (ho : execVdot e f s = .next t) : Onward s t
    := by
  unfold execVdot at ho
  injection ho with ho
  subst ho
  have ho := Onward.refl s
  repeat' (first
    | with_reducible assumption
    | (with_reducible apply State.vector_onward)
    | with_reducible apply Onward.foldl
    | refine Onward.of_snd (by assumption) ?_
    | split
    | (with_reducible refine Onward.mk_same rfl ?_
       first
       | with_reducible assumption
       | (with_reducible apply State.vector_onward)
       | refine Onward.of_snd (by assumption) ?_)
    | intro _
    | extract_lets
    | dsimp (zeta := false) only
    | dsimp +zetaDelta only)

theorem execVmont_onward (e : Nat) (f : VFields) {s : State} {t : State} (ho : execVmont e f s = .next t) : Onward s
    t := by
  unfold execVmont at ho
  injection ho with ho
  subst ho
  have ho := Onward.refl s
  repeat' (first
    | with_reducible assumption
    | (with_reducible apply State.vector_onward)
    | with_reducible apply Onward.foldl
    | refine Onward.of_snd (by assumption) ?_
    | split
    | (with_reducible refine Onward.mk_same rfl ?_
       first
       | with_reducible assumption
       | (with_reducible apply State.vector_onward)
       | refine Onward.of_snd (by assumption) ?_)
    | intro _
    | extract_lets
    | dsimp (zeta := false) only
    | dsimp +zetaDelta only)

theorem execVmulm_onward (e : Nat) (f : VFields) {s : State} {t : State} (ho : execVmulm e f s = .next t) : Onward s
    t := by
  unfold execVmulm at ho
  injection ho with ho
  subst ho
  have ho := Onward.refl s
  repeat' (first
    | with_reducible assumption
    | (with_reducible apply State.vector_onward)
    | with_reducible apply Onward.foldl
    | refine Onward.of_snd (by assumption) ?_
    | split
    | (with_reducible refine Onward.mk_same rfl ?_
       first
       | with_reducible assumption
       | (with_reducible apply State.vector_onward)
       | refine Onward.of_snd (by assumption) ?_)
    | intro _
    | extract_lets
    | dsimp (zeta := false) only
    | dsimp +zetaDelta only)

theorem execVmodr_onward (e : Nat) (f : VFields) {s : State} {t : State} (ho : execVmodr e f s = .next t) : Onward s
    t := by
  unfold execVmodr at ho
  injection ho with ho
  subst ho
  have ho := Onward.refl s
  repeat' (first
    | with_reducible assumption
    | (with_reducible apply State.vector_onward)
    | with_reducible apply Onward.foldl
    | refine Onward.of_snd (by assumption) ?_
    | split
    | (with_reducible refine Onward.mk_same rfl ?_
       first
       | with_reducible assumption
       | (with_reducible apply State.vector_onward)
       | refine Onward.of_snd (by assumption) ?_)
    | intro _
    | extract_lets
    | dsimp (zeta := false) only
    | dsimp +zetaDelta only)

theorem execVcsub_onward (e : Nat) (f : VFields) {s : State} {t : State} (ho : execVcsub e f s = .next t) : Onward s
    t := by
  unfold execVcsub at ho
  injection ho with ho
  subst ho
  have ho := Onward.refl s
  repeat' (first
    | with_reducible assumption
    | (with_reducible apply State.vector_onward)
    | with_reducible apply Onward.foldl
    | refine Onward.of_snd (by assumption) ?_
    | split
    | (with_reducible refine Onward.mk_same rfl ?_
       first
       | with_reducible assumption
       | (with_reducible apply State.vector_onward)
       | refine Onward.of_snd (by assumption) ?_)
    | intro _
    | extract_lets
    | dsimp (zeta := false) only
    | dsimp +zetaDelta only)

theorem execVand_onward (e : Nat) (f : VFields) {s : State} {t : State} (ho : execVand e f s = .next t) : Onward s t
    := by
  unfold execVand at ho
  injection ho with ho
  subst ho
  have ho := Onward.refl s
  repeat' (first
    | with_reducible assumption
    | (with_reducible apply State.vector_onward)
    | with_reducible apply Onward.foldl
    | refine Onward.of_snd (by assumption) ?_
    | split
    | (with_reducible refine Onward.mk_same rfl ?_
       first
       | with_reducible assumption
       | (with_reducible apply State.vector_onward)
       | refine Onward.of_snd (by assumption) ?_)
    | intro _
    | extract_lets
    | dsimp (zeta := false) only
    | dsimp +zetaDelta only)

theorem execVor_onward (e : Nat) (f : VFields) {s : State} {t : State} (ho : execVor e f s = .next t) : Onward s t
    := by
  unfold execVor at ho
  injection ho with ho
  subst ho
  have ho := Onward.refl s
  repeat' (first
    | with_reducible assumption
    | (with_reducible apply State.vector_onward)
    | with_reducible apply Onward.foldl
    | refine Onward.of_snd (by assumption) ?_
    | split
    | (with_reducible refine Onward.mk_same rfl ?_
       first
       | with_reducible assumption
       | (with_reducible apply State.vector_onward)
       | refine Onward.of_snd (by assumption) ?_)
    | intro _
    | extract_lets
    | dsimp (zeta := false) only
    | dsimp +zetaDelta only)

theorem execVxor_onward (e : Nat) (f : VFields) {s : State} {t : State} (ho : execVxor e f s = .next t) : Onward s t
    := by
  unfold execVxor at ho
  injection ho with ho
  subst ho
  have ho := Onward.refl s
  repeat' (first
    | with_reducible assumption
    | (with_reducible apply State.vector_onward)
    | with_reducible apply Onward.foldl
    | refine Onward.of_snd (by assumption) ?_
    | split
    | (with_reducible refine Onward.mk_same rfl ?_
       first
       | with_reducible assumption
       | (with_reducible apply State.vector_onward)
       | refine Onward.of_snd (by assumption) ?_)
    | intro _
    | extract_lets
    | dsimp (zeta := false) only
    | dsimp +zetaDelta only)

theorem execVshl_onward (e : Nat) (f : VFields) {s : State} {t : State} (ho : execVshl e f s = .next t) : Onward s t
    := by
  unfold execVshl at ho
  injection ho with ho
  subst ho
  have ho := Onward.refl s
  repeat' (first
    | with_reducible assumption
    | (with_reducible apply State.vector_onward)
    | with_reducible apply Onward.foldl
    | refine Onward.of_snd (by assumption) ?_
    | split
    | (with_reducible refine Onward.mk_same rfl ?_
       first
       | with_reducible assumption
       | (with_reducible apply State.vector_onward)
       | refine Onward.of_snd (by assumption) ?_)
    | intro _
    | extract_lets
    | dsimp (zeta := false) only
    | dsimp +zetaDelta only)

theorem execVshr_onward (e : Nat) (f : VFields) {s : State} {t : State} (ho : execVshr e f s = .next t) : Onward s t
    := by
  unfold execVshr at ho
  injection ho with ho
  subst ho
  have ho := Onward.refl s
  repeat' (first
    | with_reducible assumption
    | (with_reducible apply State.vector_onward)
    | with_reducible apply Onward.foldl
    | refine Onward.of_snd (by assumption) ?_
    | split
    | (with_reducible refine Onward.mk_same rfl ?_
       first
       | with_reducible assumption
       | (with_reducible apply State.vector_onward)
       | refine Onward.of_snd (by assumption) ?_)
    | intro _
    | extract_lets
    | dsimp (zeta := false) only
    | dsimp +zetaDelta only)

theorem execVrotl_onward (e : Nat) (f : VFields) {s : State} {t : State} (ho : execVrotl e f s = .next t) : Onward s
    t := by
  unfold execVrotl at ho
  injection ho with ho
  subst ho
  have ho := Onward.refl s
  repeat' (first
    | with_reducible assumption
    | (with_reducible apply State.vector_onward)
    | with_reducible apply Onward.foldl
    | refine Onward.of_snd (by assumption) ?_
    | split
    | (with_reducible refine Onward.mk_same rfl ?_
       first
       | with_reducible assumption
       | (with_reducible apply State.vector_onward)
       | refine Onward.of_snd (by assumption) ?_)
    | intro _
    | extract_lets
    | dsimp (zeta := false) only
    | dsimp +zetaDelta only)

theorem execVmov_onward (e : Nat) (f : VFields) {s : State} {t : State} (ho : execVmov e f s = .next t) : Onward s t
    := by
  unfold execVmov at ho
  injection ho with ho
  subst ho
  have ho := Onward.refl s
  repeat' (first
    | with_reducible assumption
    | (with_reducible apply State.vector_onward)
    | with_reducible apply Onward.foldl
    | refine Onward.of_snd (by assumption) ?_
    | split
    | (with_reducible refine Onward.mk_same rfl ?_
       first
       | with_reducible assumption
       | (with_reducible apply State.vector_onward)
       | refine Onward.of_snd (by assumption) ?_)
    | intro _
    | extract_lets
    | dsimp (zeta := false) only
    | dsimp +zetaDelta only)

theorem execVbfly_onward (e : Nat) (f : VFields) {s : State} {t : State} (ho : execVbfly e f s = .next t) : Onward s
    t := by
  unfold execVbfly at ho
  injection ho with ho
  subst ho
  have ho := Onward.refl s
  repeat' (first
    | with_reducible assumption
    | (with_reducible apply State.vector_onward)
    | with_reducible apply Onward.foldl
    | refine Onward.of_snd (by assumption) ?_
    | split
    | (with_reducible refine Onward.mk_same rfl ?_
       first
       | with_reducible assumption
       | (with_reducible apply State.vector_onward)
       | refine Onward.of_snd (by assumption) ?_)
    | intro _
    | extract_lets
    | dsimp (zeta := false) only
    | dsimp +zetaDelta only)

theorem execVexch_onward (e : Nat) (f : VFields) {s : State} {t : State} (ho : execVexch e f s = .next t) : Onward s
    t := by
  unfold execVexch at ho
  injection ho with ho
  subst ho
  have ho := Onward.refl s
  repeat' (first
    | with_reducible assumption
    | (with_reducible apply State.vector_onward)
    | with_reducible apply Onward.foldl
    | refine Onward.of_snd (by assumption) ?_
    | split
    | (with_reducible refine Onward.mk_same rfl ?_
       first
       | with_reducible assumption
       | (with_reducible apply State.vector_onward)
       | refine Onward.of_snd (by assumption) ?_)
    | intro _
    | extract_lets
    | dsimp (zeta := false) only
    | dsimp +zetaDelta only)

theorem execVperm_onward (e : Nat) (f : VFields) {s : State} {t : State} (ho : execVperm e f s = .next t) : Onward s
    t := by
  unfold execVperm at ho
  injection ho with ho
  subst ho
  have ho := Onward.refl s
  repeat' (first
    | with_reducible assumption
    | (with_reducible apply State.vector_onward)
    | with_reducible apply Onward.foldl
    | refine Onward.of_snd (by assumption) ?_
    | split
    | (with_reducible refine Onward.mk_same rfl ?_
       first
       | with_reducible assumption
       | (with_reducible apply State.vector_onward)
       | refine Onward.of_snd (by assumption) ?_)
    | intro _
    | extract_lets
    | dsimp (zeta := false) only
    | dsimp +zetaDelta only)

theorem execVcvt_onward (e : Nat) (f : VFields) {s : State} {t : State} (ho : execVcvt e f s = .next t) : Onward s t
    := by
  unfold execVcvt at ho
  injection ho with ho
  subst ho
  have ho := Onward.refl s
  repeat' (first
    | with_reducible assumption
    | (with_reducible apply State.vector_onward)
    | with_reducible apply Onward.foldl
    | refine Onward.of_snd (by assumption) ?_
    | split
    | (with_reducible refine Onward.mk_same rfl ?_
       first
       | with_reducible assumption
       | (with_reducible apply State.vector_onward)
       | refine Onward.of_snd (by assumption) ?_)
    | intro _
    | extract_lets
    | dsimp (zeta := false) only
    | dsimp +zetaDelta only)

theorem execVbitpk_onward (e : Nat) (f : VFields) {s : State} {t : State} (ho : execVbitpk e f s = .next t) : Onward
    s t := by
  unfold execVbitpk at ho
  injection ho with ho
  subst ho
  have ho := Onward.refl s
  repeat' (first
    | with_reducible assumption
    | (with_reducible apply State.vector_onward)
    | with_reducible apply Onward.foldl
    | refine Onward.of_snd (by assumption) ?_
    | split
    | (with_reducible refine Onward.mk_same rfl ?_
       first
       | with_reducible assumption
       | (with_reducible apply State.vector_onward)
       | refine Onward.of_snd (by assumption) ?_)
    | intro _
    | extract_lets
    | dsimp (zeta := false) only
    | dsimp +zetaDelta only)

theorem execVbitup_onward (e : Nat) (f : VFields) {s : State} {t : State} (ho : execVbitup e f s = .next t) : Onward
    s t := by
  unfold execVbitup at ho
  injection ho with ho
  subst ho
  have ho := Onward.refl s
  repeat' (first
    | with_reducible assumption
    | (with_reducible apply State.vector_onward)
    | with_reducible apply Onward.foldl
    | refine Onward.of_snd (by assumption) ?_
    | split
    | (with_reducible refine Onward.mk_same rfl ?_
       first
       | with_reducible assumption
       | (with_reducible apply State.vector_onward)
       | refine Onward.of_snd (by assumption) ?_)
    | intro _
    | extract_lets
    | dsimp (zeta := false) only
    | dsimp +zetaDelta only)

theorem execVcomp_onward (e : Nat) (f : VFields) {s : State} {t : State} (ho : execVcomp e f s = .next t) : Onward s
    t := by
  unfold execVcomp at ho
  injection ho with ho
  subst ho
  have ho := Onward.refl s
  repeat' (first
    | with_reducible assumption
    | (with_reducible apply State.vector_onward)
    | with_reducible apply Onward.foldl
    | refine Onward.of_snd (by assumption) ?_
    | split
    | (with_reducible refine Onward.mk_same rfl ?_
       first
       | with_reducible assumption
       | (with_reducible apply State.vector_onward)
       | refine Onward.of_snd (by assumption) ?_)
    | intro _
    | extract_lets
    | dsimp (zeta := false) only
    | dsimp +zetaDelta only)

theorem execVcmp_onward (e : Nat) (f : VFields) {s : State} {t : State} (ho : execVcmp e f s = .next t) : Onward s t
    := by
  unfold execVcmp at ho
  injection ho with ho
  subst ho
  have ho := Onward.refl s
  repeat' (first
    | with_reducible assumption
    | (with_reducible apply State.vector_onward)
    | with_reducible apply Onward.foldl
    | refine Onward.of_snd (by assumption) ?_
    | split
    | (with_reducible refine Onward.mk_same rfl ?_
       first
       | with_reducible assumption
       | (with_reducible apply State.vector_onward)
       | refine Onward.of_snd (by assumption) ?_)
    | intro _
    | extract_lets
    | dsimp (zeta := false) only
    | dsimp +zetaDelta only)

theorem execVsel_onward (e : Nat) (f : VFields) {s : State} {t : State} (ho : execVsel e f s = .next t) : Onward s t
    := by
  unfold execVsel at ho
  injection ho with ho
  subst ho
  have ho := Onward.refl s
  repeat' (first
    | with_reducible assumption
    | (with_reducible apply State.vector_onward)
    | with_reducible apply Onward.foldl
    | refine Onward.of_snd (by assumption) ?_
    | split
    | (with_reducible refine Onward.mk_same rfl ?_
       first
       | with_reducible assumption
       | (with_reducible apply State.vector_onward)
       | refine Onward.of_snd (by assumption) ?_)
    | intro _
    | extract_lets
    | dsimp (zeta := false) only
    | dsimp +zetaDelta only)

theorem execVkinit_onward (e : Nat) (f : VFields) {s : State} {t : State} (ho : execVkinit e f s = .next t) : Onward
    s t := by
  unfold execVkinit at ho
  injection ho with ho
  subst ho
  have ho := Onward.refl s
  repeat' (first
    | with_reducible assumption
    | (with_reducible apply State.vector_onward)
    | with_reducible apply Onward.foldl
    | refine Onward.of_snd (by assumption) ?_
    | split
    | (with_reducible refine Onward.mk_same rfl ?_
       first
       | with_reducible assumption
       | (with_reducible apply State.vector_onward)
       | refine Onward.of_snd (by assumption) ?_)
    | intro _
    | extract_lets
    | dsimp (zeta := false) only
    | dsimp +zetaDelta only)

theorem execVkabs_onward (e : Nat) (f : VFields) {s : State} {t : State} (ho : execVkabs e f s = .next t) : Onward s
    t := by
  unfold execVkabs at ho
  injection ho with ho
  subst ho
  have ho := Onward.refl s
  repeat' (first
    | with_reducible assumption
    | (with_reducible apply State.vector_onward)
    | with_reducible apply Onward.foldl
    | refine Onward.of_snd (by assumption) ?_
    | split
    | (with_reducible refine Onward.mk_same rfl ?_
       first
       | with_reducible assumption
       | (with_reducible apply State.vector_onward)
       | refine Onward.of_snd (by assumption) ?_)
    | intro _
    | extract_lets
    | dsimp (zeta := false) only
    | dsimp +zetaDelta only)

theorem execVksqz_onward (e : Nat) (f : VFields) {s : State} {t : State} (ho : execVksqz e f s = .next t) : Onward s
    t := by
  unfold execVksqz at ho
  injection ho with ho
  subst ho
  have ho := Onward.refl s
  repeat' (first
    | with_reducible assumption
    | (with_reducible apply State.vector_onward)
    | with_reducible apply Onward.foldl
    | refine Onward.of_snd (by assumption) ?_
    | split
    | (with_reducible refine Onward.mk_same rfl ?_
       first
       | with_reducible assumption
       | (with_reducible apply State.vector_onward)
       | refine Onward.of_snd (by assumption) ?_)
    | intro _
    | extract_lets
    | dsimp (zeta := false) only
    | dsimp +zetaDelta only)

theorem execVsampu_onward (e : Nat) (f : VFields) {s : State} {t : State} (ho : execVsampu e f s = .next t) : Onward
    s t := by
  unfold execVsampu at ho
  injection ho with ho
  subst ho
  have ho := Onward.refl s
  repeat' (first
    | with_reducible assumption
    | (with_reducible apply State.vector_onward)
    | with_reducible apply Onward.foldl
    | refine Onward.of_snd (by assumption) ?_
    | split
    | (with_reducible refine Onward.mk_same rfl ?_
       first
       | with_reducible assumption
       | (with_reducible apply State.vector_onward)
       | refine Onward.of_snd (by assumption) ?_)
    | intro _
    | extract_lets
    | dsimp (zeta := false) only
    | dsimp +zetaDelta only)

theorem execVsampb_onward (e : Nat) (f : VFields) {s : State} {t : State} (ho : execVsampb e f s = .next t) : Onward
    s t := by
  unfold execVsampb at ho
  injection ho with ho
  subst ho
  have ho := Onward.refl s
  repeat' (first
    | with_reducible assumption
    | (with_reducible apply State.vector_onward)
    | with_reducible apply Onward.foldl
    | refine Onward.of_snd (by assumption) ?_
    | split
    | (with_reducible refine Onward.mk_same rfl ?_
       first
       | with_reducible assumption
       | (with_reducible apply State.vector_onward)
       | refine Onward.of_snd (by assumption) ?_)
    | intro _
    | extract_lets
    | dsimp (zeta := false) only
    | dsimp +zetaDelta only)

theorem execVsampball_onward (e : Nat) (f : VFields) {s : State} {t : State} (ho : execVsampball e f s = .next t) :
    Onward s t := by
  unfold execVsampball at ho
  injection ho with ho
  subst ho
  have ho := Onward.refl s
  repeat' (first
    | with_reducible assumption
    | (with_reducible apply State.vector_onward)
    | with_reducible apply Onward.foldl
    | refine Onward.of_snd (by assumption) ?_
    | split
    | (with_reducible refine Onward.mk_same rfl ?_
       first
       | with_reducible assumption
       | (with_reducible apply State.vector_onward)
       | refine Onward.of_snd (by assumption) ?_)
    | intro _
    | extract_lets
    | dsimp (zeta := false) only
    | dsimp +zetaDelta only)

theorem execVcbd_onward (e : Nat) (f : VFields) {s : State} {t : State} (ho : execVcbd e f s = .next t) : Onward s t
    := by
  unfold execVcbd at ho
  injection ho with ho
  subst ho
  have ho := Onward.refl s
  repeat' (first
    | with_reducible assumption
    | (with_reducible apply State.vector_onward)
    | with_reducible apply Onward.foldl
    | refine Onward.of_snd (by assumption) ?_
    | split
    | (with_reducible refine Onward.mk_same rfl ?_
       first
       | with_reducible assumption
       | (with_reducible apply State.vector_onward)
       | refine Onward.of_snd (by assumption) ?_)
    | intro _
    | extract_lets
    | dsimp (zeta := false) only
    | dsimp +zetaDelta only)

theorem execVref_onward (e : Nat) (f : VFields) {s : State} {t : State} (ho : execVref e f s = .next t) : Onward s t
    := by
  unfold execVref at ho
  injection ho with ho
  subst ho
  have ho := Onward.refl s
  repeat' (first
    | with_reducible assumption
    | (with_reducible apply State.vector_onward)
    | with_reducible apply Onward.foldl
    | refine Onward.of_snd (by assumption) ?_
    | split
    | (with_reducible refine Onward.mk_same rfl ?_
       first
       | with_reducible assumption
       | (with_reducible apply State.vector_onward)
       | refine Onward.of_snd (by assumption) ?_)
    | intro _
    | extract_lets
    | dsimp (zeta := false) only
    | dsimp +zetaDelta only)

theorem execVsand_onward (e : Nat) (f : VFields) {s : State} {t : State} (ho : execVsand e f s = .next t) : Onward s
    t := by
  unfold execVsand at ho
  injection ho with ho
  subst ho
  have ho := Onward.refl s
  repeat' (first
    | with_reducible assumption
    | (with_reducible apply State.vector_onward)
    | with_reducible apply Onward.foldl
    | refine Onward.of_snd (by assumption) ?_
    | split
    | (with_reducible refine Onward.mk_same rfl ?_
       first
       | with_reducible assumption
       | (with_reducible apply State.vector_onward)
       | refine Onward.of_snd (by assumption) ?_)
    | intro _
    | extract_lets
    | dsimp (zeta := false) only
    | dsimp +zetaDelta only)

theorem execVa2b_onward (e : Nat) (f : VFields) {s : State} {t : State} (ho : execVa2b e f s = .next t) : Onward s t
    := by
  unfold execVa2b at ho
  injection ho with ho
  subst ho
  have ho := Onward.refl s
  repeat' (first
    | with_reducible assumption
    | (with_reducible apply State.vector_onward)
    | with_reducible apply Onward.foldl
    | refine Onward.of_snd (by assumption) ?_
    | split
    | (with_reducible refine Onward.mk_same rfl ?_
       first
       | with_reducible assumption
       | (with_reducible apply State.vector_onward)
       | refine Onward.of_snd (by assumption) ?_)
    | intro _
    | extract_lets
    | dsimp (zeta := false) only
    | dsimp +zetaDelta only)

theorem execVb2a_onward (e : Nat) (f : VFields) {s : State} {t : State} (ho : execVb2a e f s = .next t) : Onward s t
    := by
  unfold execVb2a at ho
  injection ho with ho
  subst ho
  have ho := Onward.refl s
  repeat' (first
    | with_reducible assumption
    | (with_reducible apply State.vector_onward)
    | with_reducible apply Onward.foldl
    | refine Onward.of_snd (by assumption) ?_
    | split
    | (with_reducible refine Onward.mk_same rfl ?_
       first
       | with_reducible assumption
       | (with_reducible apply State.vector_onward)
       | refine Onward.of_snd (by assumption) ?_)
    | intro _
    | extract_lets
    | dsimp (zeta := false) only
    | dsimp +zetaDelta only)

theorem execVszero_onward (e : Nat) (f : VFields) {s : State} {t : State} (ho : execVszero e f s = .next t) : Onward
    s t := by
  unfold execVszero at ho
  injection ho with ho
  subst ho
  have ho := Onward.refl s
  repeat' (first
    | with_reducible assumption
    | (with_reducible apply State.vector_onward)
    | with_reducible apply Onward.foldl
    | refine Onward.of_snd (by assumption) ?_
    | split
    | (with_reducible refine Onward.mk_same rfl ?_
       first
       | with_reducible assumption
       | (with_reducible apply State.vector_onward)
       | refine Onward.of_snd (by assumption) ?_)
    | intro _
    | extract_lets
    | dsimp (zeta := false) only
    | dsimp +zetaDelta only)

theorem execVunsh_onward (e : Nat) (f : VFields) {s : State} {t : State} (ho : execVunsh e f s = .next t) : Onward s
    t := by
  unfold execVunsh at ho
  injection ho with ho
  subst ho
  have ho := Onward.refl s
  repeat' (first
    | with_reducible assumption
    | (with_reducible apply State.vector_onward)
    | with_reducible apply Onward.foldl
    | refine Onward.of_snd (by assumption) ?_
    | split
    | (with_reducible refine Onward.mk_same rfl ?_
       first
       | with_reducible assumption
       | (with_reducible apply State.vector_onward)
       | refine Onward.of_snd (by assumption) ?_)
    | intro _
    | extract_lets
    | dsimp (zeta := false) only
    | dsimp +zetaDelta only)

theorem execVst_onward (e : Nat) (f : VFields) {s : State} {t : State} (ho : execVst e f s = .next t) : Onward s t
    := by
  unfold execVst at ho
  injection ho with ho
  subst ho
  have ho := Onward.refl s
  repeat' (first
    | with_reducible assumption
    | (with_reducible apply State.vector_onward)
    | with_reducible apply Onward.foldl
    | refine Onward.of_snd (by assumption) ?_
    | split
    | (with_reducible refine Onward.mk_same rfl ?_
       first
       | with_reducible assumption
       | (with_reducible apply State.vector_onward)
       | refine Onward.of_snd (by assumption) ?_)
    | intro _
    | extract_lets
    | dsimp (zeta := false) only
    | dsimp +zetaDelta only)

theorem execVrel_onward (e : Nat) (f : VFields) {s : State} {t : State} (ho : execVrel e f s = .next t) : Onward s t
    := by
  unfold execVrel at ho
  injection ho with ho
  subst ho
  have ho := Onward.refl s
  repeat' (first
    | with_reducible assumption
    | (with_reducible apply State.vector_onward)
    | with_reducible apply Onward.foldl
    | refine Onward.of_snd (by assumption) ?_
    | split
    | (with_reducible refine Onward.mk_same rfl ?_
       first
       | with_reducible assumption
       | (with_reducible apply State.vector_onward)
       | refine Onward.of_snd (by assumption) ?_)
    | intro _
    | extract_lets
    | dsimp (zeta := false) only
    | dsimp +zetaDelta only)

theorem execVld_onward (e : Nat) (f : VFields) {s : State} {t : State} (ho : execVld e f s = .next t) : Onward s t
    := by
  unfold execVld at ho
  injection ho with ho
  subst ho
  have ho := Onward.refl s
  repeat' (first
    | with_reducible assumption
    | (with_reducible apply State.onVce_onward)
    | (with_reducible apply State.vector_onward)
    | with_reducible apply Onward.foldl
    | refine Onward.of_snd (by assumption) ?_
    | split
    | (with_reducible refine Onward.mk_same rfl ?_
       first
       | with_reducible assumption
       | (with_reducible apply State.onVce_onward)
       | (with_reducible apply State.vector_onward)
       | refine Onward.of_snd (by assumption) ?_)
    | intro _
    | extract_lets
    | dsimp (zeta := false) only
    | dsimp +zetaDelta only)

theorem State.streamOut_onward {s₀ : State} {s : State} (e : Nat) (j : Nat) (x : Job) (ho : Onward s₀ s) : Onward s₀
    (State.streamOut s e j x) := by
  unfold State.streamOut
  repeat' (first
      | with_reducible assumption | with_reducible apply State.onJob_onward
      | with_reducible apply State.writeOut_onward)

theorem execVout_onward (e : Nat) (f : VFields) {s : State} {t : State} (ho : execVout e f s = .next t) : Onward s t
    := by
  unfold execVout at ho
  injection ho with ho
  subst ho
  have ho := Onward.refl s
  repeat' (first
    | with_reducible assumption
    | (with_reducible apply State.fetch_onward)
    | (with_reducible apply State.kernelFault_onward)
    | (with_reducible apply State.streamOut_onward)
    | (with_reducible apply State.onVce_onward)
    | with_reducible apply Onward.foldl
    | refine Onward.of_snd (by assumption) ?_
    | split
    | (with_reducible refine Onward.mk_same rfl ?_
       first
       | with_reducible assumption
       | (with_reducible apply State.fetch_onward)
       | (with_reducible apply State.kernelFault_onward)
       | (with_reducible apply State.streamOut_onward)
       | (with_reducible apply State.onVce_onward)
       | refine Onward.of_snd (by assumption) ?_)
    | intro _
    | extract_lets
    | dsimp (zeta := false) only
    | dsimp +zetaDelta only)

theorem State.openElems_onward {s₀ s : State} (n : Nat) (v : Vce) (f : VFields) (to_ : Nat) (ho : Onward s₀ s) :
    Onward s₀ (s.openElems n v f to_).1 := by
  unfold State.openElems
  generalize v.gsPart f to_ = l
  have h : ∀ (r : State × Nat), Onward s₀ r.1 → Onward s₀ (l.foldl (fun (r : State × Nat) (i : Nat) =>
      let w := v.elem 2 f.vs1.toNat i
      let a := (s.window n).1 + 8 * w
      if r.2 ≤ i ∨ w ≥ s.windowWords n then r
      else if r.1.groupsWait a 8 then (r.1, i)
      else (r.1.openGroups a 8, r.2)) r).1 := by
    induction l with
    | nil => exact fun _ hr => hr
    | cons i l ih =>
      intro r hr
      refine ih _ ?_
      dsimp only
      split
      · exact hr
      split
      · exact hr
      · exact State.openGroups_onward _ _ hr
  exact h (s, to_) ho

theorem State.noteElem_onward {s₀ : State} {s : State} (x : Job) (v : Vce) (f : VFields) (to_ : Nat) (ho : Onward s₀
    s) : Onward s₀ (State.noteElem s x v f to_) := by
  unfold State.noteElem
  repeat' (first
    | with_reducible assumption
    | (with_reducible apply State.noteRead_onward)
    | with_reducible apply Onward.foldl
    | refine Onward.of_snd (by assumption) ?_
    | split
    | (with_reducible refine Onward.mk_same rfl ?_
       first
       | with_reducible assumption
       | (with_reducible apply State.noteRead_onward)
       | refine Onward.of_snd (by assumption) ?_)
    | intro _
    | extract_lets
    | dsimp (zeta := false) only
    | dsimp +zetaDelta only)

theorem State.gather_onward {s₀ s : State} (e op : Nat) (f : VFields) (fault : Vce → VFields → Option Nat)
    (act : State → Nat → Job → Vce → Nat → State) (hact : ∀ a b c d i, Onward s₀ a → Onward s₀ (act a b c d i))
    (ho : Onward s₀ s) : Onward s₀ (s.gather e op f fault act) := by
  unfold State.gather
  refine State.fetch_onward _ _ _ _ _ (fun u j x v hu => ?_) ho
  split
  · exact State.kernelFault_onward _ _ _ _ hu
  · have h1 := State.openElems_onward x.slice v f (if u.stopAsked e x then min v.vl (v.gsAt + 1) else v.vl) hu
    revert h1
    generalize u.openElems x.slice v f _ = p
    obtain ⟨s1, k⟩ := p
    intro h1
    dsimp only at h1 ⊢
    split
    · exact State.onVce_onward hu
    · exact hact _ _ _ _ _ (State.noteElem_onward _ _ _ _ h1)

theorem execVgather_onward (e : Nat) (f : VFields) {s : State} {t : State} (ho : execVgather e f s = .next t) :
    Onward s t := by
  unfold execVgather at ho
  injection ho with ho
  subst ho
  have ho := Onward.refl s
  repeat' (first
    | with_reducible assumption
    | (with_reducible apply State.gather_onward)
    | (with_reducible apply State.onVce_onward)
    | (with_reducible apply State.kernelFault_onward)
    | with_reducible apply Onward.foldl
    | refine Onward.of_snd (by assumption) ?_
    | split
    | (with_reducible refine Onward.mk_same rfl ?_
       first
       | with_reducible assumption
       | (with_reducible apply State.gather_onward)
       | (with_reducible apply State.onVce_onward)
       | (with_reducible apply State.kernelFault_onward)
       | refine Onward.of_snd (by assumption) ?_)
    | intro _
    | extract_lets
    | dsimp (zeta := false) only
    | dsimp +zetaDelta only)

theorem State.scatter_onward {s₀ : State} {s : State} (j : Nat) (n : Nat) (ws : List (Nat × Nat)) (ho : Onward s₀ s)
    : Onward s₀ (State.scatter s j n ws) := by
  unfold State.scatter
  repeat' (first
    | with_reducible assumption
    | (with_reducible apply State.onJob_onward)
    | with_reducible apply Onward.foldl
    | refine Onward.of_snd (by assumption) ?_
    | split
    | (with_reducible refine Onward.mk_same rfl ?_
       first
       | with_reducible assumption
       | (with_reducible apply State.onJob_onward)
       | refine Onward.of_snd (by assumption) ?_)
    | intro _
    | extract_lets
    | dsimp (zeta := false) only
    | dsimp +zetaDelta only)

theorem execVscatter_onward (e : Nat) (f : VFields) {s : State} {t : State} (ho : execVscatter e f s = .next t) :
    Onward s t := by
  unfold execVscatter at ho
  injection ho with ho
  subst ho
  have ho := Onward.refl s
  repeat' (first
    | with_reducible assumption
    | (with_reducible apply State.gather_onward)
    | (with_reducible apply State.scatter_onward)
    | (with_reducible apply State.onVce_onward)
    | (with_reducible apply State.kernelFault_onward)
    | with_reducible apply Onward.foldl
    | refine Onward.of_snd (by assumption) ?_
    | split
    | (with_reducible refine Onward.mk_same rfl ?_
       first
       | with_reducible assumption
       | (with_reducible apply State.gather_onward)
       | (with_reducible apply State.scatter_onward)
       | (with_reducible apply State.onVce_onward)
       | (with_reducible apply State.kernelFault_onward)
       | refine Onward.of_snd (by assumption) ?_)
    | intro _
    | extract_lets
    | dsimp (zeta := false) only
    | dsimp +zetaDelta only)

theorem execBr_onward (e : Nat) (f : VFields) {s : State} {t : State} (ho : execBr e f s = .next t) : Onward s t := by
  unfold execBr at ho
  injection ho with ho
  subst ho
  have ho := Onward.refl s
  repeat' (first
    | with_reducible assumption
    | (with_reducible apply State.vector_onward)
    | with_reducible apply Onward.foldl
    | refine Onward.of_snd (by assumption) ?_
    | split
    | (with_reducible refine Onward.mk_same rfl ?_
       first
       | with_reducible assumption
       | (with_reducible apply State.vector_onward)
       | refine Onward.of_snd (by assumption) ?_)
    | intro _
    | extract_lets
    | dsimp (zeta := false) only
    | dsimp +zetaDelta only)

theorem execCall_onward (e : Nat) (f : VFields) {s : State} {t : State} (ho : execCall e f s = .next t) : Onward s t
    := by
  unfold execCall at ho
  injection ho with ho
  subst ho
  have ho := Onward.refl s
  repeat' (first
    | with_reducible assumption
    | (with_reducible apply State.vector_onward)
    | with_reducible apply Onward.foldl
    | refine Onward.of_snd (by assumption) ?_
    | split
    | (with_reducible refine Onward.mk_same rfl ?_
       first
       | with_reducible assumption
       | (with_reducible apply State.vector_onward)
       | refine Onward.of_snd (by assumption) ?_)
    | intro _
    | extract_lets
    | dsimp (zeta := false) only
    | dsimp +zetaDelta only)

theorem execRet_onward (e : Nat) (f : VFields) {s : State} {t : State} (ho : execRet e f s = .next t) : Onward s t
    := by
  unfold execRet at ho
  injection ho with ho
  subst ho
  have ho := Onward.refl s
  repeat' (first
    | with_reducible assumption
    | (with_reducible apply State.vector_onward)
    | with_reducible apply Onward.foldl
    | refine Onward.of_snd (by assumption) ?_
    | split
    | (with_reducible refine Onward.mk_same rfl ?_
       first
       | with_reducible assumption
       | (with_reducible apply State.vector_onward)
       | refine Onward.of_snd (by assumption) ?_)
    | intro _
    | extract_lets
    | dsimp (zeta := false) only
    | dsimp +zetaDelta only)

theorem State.kernelGives_onward {s₀ : State} {s : State} (x : Job) (v : Vce) (r : Result) (ho : Onward s₀ s) :
    Onward s₀ (State.kernelGives s x v r).2 := by
  unfold State.kernelGives
  repeat' (first
    | with_reducible assumption
    | (with_reducible apply State.giveKey_onward)
    | (with_reducible apply State.giveSecret_onward)
    | with_reducible apply Onward.foldl
    | refine Onward.of_snd (by assumption) ?_
    | split
    | (with_reducible refine Onward.mk_same rfl ?_
       first
       | with_reducible assumption
       | (with_reducible apply State.giveKey_onward)
       | (with_reducible apply State.giveSecret_onward)
       | refine Onward.of_snd (by assumption) ?_)
    | intro _
    | extract_lets
    | dsimp (zeta := false) only
    | dsimp +zetaDelta only)

theorem State.kernelEnds_onward {s₀ : State} {s : State} (e : Nat) (j : Nat) (x : Job) (v : Vce) (r : Result) (ho :
    Onward s₀ s) : Onward s₀ (State.kernelEnds s e j x v r) := by
  unfold State.kernelEnds
  repeat' (first
    | with_reducible assumption
    | (with_reducible apply State.kernelGives_onward)
    | (with_reducible apply State.onVce_onward)
    | (with_reducible apply State.produce_onward)
    | with_reducible apply Onward.foldl
    | refine Onward.of_snd (by assumption) ?_
    | split
    | (with_reducible refine Onward.mk_same rfl ?_
       first
       | with_reducible assumption
       | (with_reducible apply State.kernelGives_onward)
       | (with_reducible apply State.onVce_onward)
       | (with_reducible apply State.produce_onward)
       | refine Onward.of_snd (by assumption) ?_)
    | intro _
    | extract_lets
    | dsimp (zeta := false) only
    | dsimp +zetaDelta only)

theorem execVend_onward (e : Nat) (f : VFields) {s : State} {t : State} (ho : execVend e f s = .next t) : Onward s t
    := by
  unfold execVend at ho
  injection ho with ho
  subst ho
  have ho := Onward.refl s
  repeat' (first
    | with_reducible assumption
    | (with_reducible apply State.fetch_onward)
    | (with_reducible apply State.kernelFault_onward)
    | (with_reducible apply State.kernelEnds_onward)
    | with_reducible apply Onward.foldl
    | refine Onward.of_snd (by assumption) ?_
    | split
    | (with_reducible refine Onward.mk_same rfl ?_
       first
       | with_reducible assumption
       | (with_reducible apply State.fetch_onward)
       | (with_reducible apply State.kernelFault_onward)
       | (with_reducible apply State.kernelEnds_onward)
       | refine Onward.of_snd (by assumption) ?_)
    | intro _
    | extract_lets
    | dsimp (zeta := false) only
    | dsimp +zetaDelta only)

theorem execCustomerOpcode_onward (e : Nat) (opc : Nat) {s : State} {t : State} (ho : execCustomerOpcode e opc s =
    .next t) : Onward s t := by
  unfold execCustomerOpcode at ho
  injection ho with ho
  subst ho
  have ho := Onward.refl s
  repeat' (first
    | with_reducible assumption
    | (with_reducible apply State.fetchWord_onward)
    | (with_reducible apply State.machineCheck_onward)
    | (with_reducible apply State.onVce_onward)
    | (with_reducible apply State.kernelFault_onward)
    | with_reducible apply Onward.foldl
    | refine Onward.of_snd (by assumption) ?_
    | split
    | (with_reducible refine Onward.mk_same rfl ?_
       first
       | with_reducible assumption
       | (with_reducible apply State.fetchWord_onward)
       | (with_reducible apply State.machineCheck_onward)
       | (with_reducible apply State.onVce_onward)
       | (with_reducible apply State.kernelFault_onward)
       | refine Onward.of_snd (by assumption) ?_)
    | intro _
    | extract_lets
    | dsimp (zeta := false) only
    | dsimp +zetaDelta only)

theorem execKernelCall_onward (j : Nat) {s : State} {t : State} (ho : execKernelCall j s = .next t) : Onward s t := by
  unfold execKernelCall at ho
  injection ho with ho
  subst ho
  have ho := Onward.refl s
  repeat' (first | with_reducible assumption | with_reducible apply State.onVce_onward | split)

theorem State.microEnd_onward {s₀ : State} {s : State} (e : Nat) (a : MRes) (ho : Onward s₀ s) : Onward s₀
    (State.microEnd s e a) := by
  unfold State.microEnd
  repeat' (first
    | with_reducible assumption
    | (with_reducible apply State.runTo_onward)
    | (with_reducible apply State.onVce_onward)
    | (with_reducible apply State.kernelFault_onward)
    | (with_reducible apply State.machineCheck_onward)
    | with_reducible apply Onward.foldl
    | refine Onward.of_snd (by assumption) ?_
    | split
    | (with_reducible refine Onward.mk_same rfl ?_
       first
       | with_reducible assumption
       | (with_reducible apply State.runTo_onward)
       | (with_reducible apply State.onVce_onward)
       | (with_reducible apply State.kernelFault_onward)
       | (with_reducible apply State.machineCheck_onward)
       | refine Onward.of_snd (by assumption) ?_)
    | intro _
    | extract_lets
    | dsimp (zeta := false) only
    | dsimp +zetaDelta only)

theorem State.fetchMicro_onward {s₀ : State} {s : State} (e : Nat) (major : Nat) (w : BitVec 30) (act : Nat → Job →
    Vce → State) (hact : ∀ a0 a1 a2, Onward s₀ (act a0 a1 a2)) (ho : Onward s₀ s) : Onward s₀ (State.fetchMicro s e
    major w act) := by
  unfold State.fetchMicro
  repeat' (first
    | with_reducible assumption
    | (with_reducible apply State.machineCheck_onward)
    | (with_reducible apply hact)
    | with_reducible apply Onward.foldl
    | refine Onward.of_snd (by assumption) ?_
    | split
    | (with_reducible refine Onward.mk_same rfl ?_
       first
       | with_reducible assumption
       | (with_reducible apply State.machineCheck_onward)
       | (with_reducible apply hact)
       | refine Onward.of_snd (by assumption) ?_)
    | intro _
    | extract_lets
    | dsimp (zeta := false) only
    | dsimp +zetaDelta only)

theorem State.micro_onward {s₀ : State} {s : State} (e : Nat) (major : Nat) (w : BitVec 30) (f : Vce → MRes) (ho :
    Onward s₀ s) : Onward s₀ (State.micro s e major w f) := by
  unfold State.micro
  repeat' (first
    | with_reducible assumption
    | (with_reducible apply State.fetchMicro_onward)
    | (with_reducible apply State.microEnd_onward)
    | with_reducible apply Onward.foldl
    | refine Onward.of_snd (by assumption) ?_
    | split
    | (with_reducible refine Onward.mk_same rfl ?_
       first
       | with_reducible assumption
       | (with_reducible apply State.fetchMicro_onward)
       | (with_reducible apply State.microEnd_onward)
       | refine Onward.of_snd (by assumption) ?_)
    | intro _
    | extract_lets
    | dsimp (zeta := false) only
    | dsimp +zetaDelta only)

theorem State.microSafe_onward {s₀ : State} {s : State} (e : Nat) (major : Nat) (w : BitVec 30) (f : Vce → MRes) (ho
    : Onward s₀ s) : Onward s₀ (State.microSafe s e major w f) := by
  unfold State.microSafe
  repeat' (first
    | with_reducible assumption
    | (with_reducible apply State.fetchMicro_onward)
    | (with_reducible apply State.kernelFault_onward)
    | (with_reducible apply State.safePoint_onward)
    | (with_reducible apply State.onVce_onward)
    | (with_reducible apply State.microEnd_onward)
    | with_reducible apply Onward.foldl
    | refine Onward.of_snd (by assumption) ?_
    | split
    | (with_reducible refine Onward.mk_same rfl ?_
       first
       | with_reducible assumption
       | (with_reducible apply State.fetchMicro_onward)
       | (with_reducible apply State.kernelFault_onward)
       | (with_reducible apply State.safePoint_onward)
       | (with_reducible apply State.onVce_onward)
       | (with_reducible apply State.microEnd_onward)
       | refine Onward.of_snd (by assumption) ?_)
    | intro _
    | extract_lets
    | dsimp (zeta := false) only
    | dsimp +zetaDelta only)

theorem execNop_onward (e : Nat) (w : BitVec 30) {s : State} {t : State} (ho : execNop e w s = .next t) : Onward s t
    := by
  unfold execNop at ho
  injection ho with ho
  subst ho
  have ho := Onward.refl s
  repeat' (first
    | with_reducible assumption
    | (with_reducible apply State.micro_onward)
    | with_reducible apply Onward.foldl
    | refine Onward.of_snd (by assumption) ?_
    | split
    | (with_reducible refine Onward.mk_same rfl ?_
       first
       | with_reducible assumption
       | (with_reducible apply State.micro_onward)
       | refine Onward.of_snd (by assumption) ?_)
    | intro _
    | extract_lets
    | dsimp (zeta := false) only
    | dsimp +zetaDelta only)

theorem execAlu_onward (e : Nat) (w : BitVec 30) {s : State} {t : State} (ho : execAlu e w s = .next t) : Onward s t
    := by
  unfold execAlu at ho
  injection ho with ho
  subst ho
  have ho := Onward.refl s
  repeat' (first
    | with_reducible assumption
    | (with_reducible apply State.micro_onward)
    | with_reducible apply Onward.foldl
    | refine Onward.of_snd (by assumption) ?_
    | split
    | (with_reducible refine Onward.mk_same rfl ?_
       first
       | with_reducible assumption
       | (with_reducible apply State.micro_onward)
       | refine Onward.of_snd (by assumption) ?_)
    | intro _
    | extract_lets
    | dsimp (zeta := false) only
    | dsimp +zetaDelta only)

theorem execAlui_onward (e : Nat) (w : BitVec 30) {s : State} {t : State} (ho : execAlui e w s = .next t) : Onward s
    t := by
  unfold execAlui at ho
  injection ho with ho
  subst ho
  have ho := Onward.refl s
  repeat' (first
    | with_reducible assumption
    | (with_reducible apply State.micro_onward)
    | with_reducible apply Onward.foldl
    | refine Onward.of_snd (by assumption) ?_
    | split
    | (with_reducible refine Onward.mk_same rfl ?_
       first
       | with_reducible assumption
       | (with_reducible apply State.micro_onward)
       | refine Onward.of_snd (by assumption) ?_)
    | intro _
    | extract_lets
    | dsimp (zeta := false) only
    | dsimp +zetaDelta only)

theorem execLdi_onward (e : Nat) (w : BitVec 30) {s : State} {t : State} (ho : execLdi e w s = .next t) : Onward s t
    := by
  unfold execLdi at ho
  injection ho with ho
  subst ho
  have ho := Onward.refl s
  repeat' (first
    | with_reducible assumption
    | (with_reducible apply State.micro_onward)
    | with_reducible apply Onward.foldl
    | refine Onward.of_snd (by assumption) ?_
    | split
    | (with_reducible refine Onward.mk_same rfl ?_
       first
       | with_reducible assumption
       | (with_reducible apply State.micro_onward)
       | refine Onward.of_snd (by assumption) ?_)
    | intro _
    | extract_lets
    | dsimp (zeta := false) only
    | dsimp +zetaDelta only)

theorem execFld_onward (e : Nat) (w : BitVec 30) {s : State} {t : State} (ho : execFld e w s = .next t) : Onward s t
    := by
  unfold execFld at ho
  injection ho with ho
  subst ho
  have ho := Onward.refl s
  repeat' (first
    | with_reducible assumption
    | (with_reducible apply State.micro_onward)
    | with_reducible apply Onward.foldl
    | refine Onward.of_snd (by assumption) ?_
    | split
    | (with_reducible refine Onward.mk_same rfl ?_
       first
       | with_reducible assumption
       | (with_reducible apply State.micro_onward)
       | refine Onward.of_snd (by assumption) ?_)
    | intro _
    | extract_lets
    | dsimp (zeta := false) only
    | dsimp +zetaDelta only)

theorem execSrd_onward (e : Nat) (w : BitVec 30) {s : State} {t : State} (ho : execSrd e w s = .next t) : Onward s t
    := by
  unfold execSrd at ho
  injection ho with ho
  subst ho
  have ho := Onward.refl s
  repeat' (first
    | with_reducible assumption
    | (with_reducible apply State.micro_onward)
    | with_reducible apply Onward.foldl
    | refine Onward.of_snd (by assumption) ?_
    | split
    | (with_reducible refine Onward.mk_same rfl ?_
       first
       | with_reducible assumption
       | (with_reducible apply State.micro_onward)
       | refine Onward.of_snd (by assumption) ?_)
    | intro _
    | extract_lets
    | dsimp (zeta := false) only
    | dsimp +zetaDelta only)

theorem execSwr_onward (e : Nat) (w : BitVec 30) {s : State} {t : State} (ho : execSwr e w s = .next t) : Onward s t
    := by
  unfold execSwr at ho
  injection ho with ho
  subst ho
  have ho := Onward.refl s
  repeat' (first
    | with_reducible assumption
    | (with_reducible apply State.micro_onward)
    | with_reducible apply Onward.foldl
    | refine Onward.of_snd (by assumption) ?_
    | split
    | (with_reducible refine Onward.mk_same rfl ?_
       first
       | with_reducible assumption
       | (with_reducible apply State.micro_onward)
       | refine Onward.of_snd (by assumption) ?_)
    | intro _
    | extract_lets
    | dsimp (zeta := false) only
    | dsimp +zetaDelta only)

theorem execMicroBr_onward (e : Nat) (w : BitVec 30) {s : State} {t : State} (ho : execMicroBr e w s = .next t) :
    Onward s t := by
  unfold execMicroBr at ho
  injection ho with ho
  subst ho
  have ho := Onward.refl s
  repeat' (first
    | with_reducible assumption
    | (with_reducible apply State.micro_onward)
    | with_reducible apply Onward.foldl
    | refine Onward.of_snd (by assumption) ?_
    | split
    | (with_reducible refine Onward.mk_same rfl ?_
       first
       | with_reducible assumption
       | (with_reducible apply State.micro_onward)
       | refine Onward.of_snd (by assumption) ?_)
    | intro _
    | extract_lets
    | dsimp (zeta := false) only
    | dsimp +zetaDelta only)

theorem execMicroCall_onward (e : Nat) (w : BitVec 30) {s : State} {t : State} (ho : execMicroCall e w s = .next t)
    : Onward s t := by
  unfold execMicroCall at ho
  injection ho with ho
  subst ho
  have ho := Onward.refl s
  repeat' (first
    | with_reducible assumption
    | (with_reducible apply State.micro_onward)
    | with_reducible apply Onward.foldl
    | refine Onward.of_snd (by assumption) ?_
    | split
    | (with_reducible refine Onward.mk_same rfl ?_
       first
       | with_reducible assumption
       | (with_reducible apply State.micro_onward)
       | refine Onward.of_snd (by assumption) ?_)
    | intro _
    | extract_lets
    | dsimp (zeta := false) only
    | dsimp +zetaDelta only)

theorem execMicroRet_onward (e : Nat) (w : BitVec 30) {s : State} {t : State} (ho : execMicroRet e w s = .next t) :
    Onward s t := by
  unfold execMicroRet at ho
  injection ho with ho
  subst ho
  have ho := Onward.refl s
  repeat' (first
    | with_reducible assumption
    | (with_reducible apply State.micro_onward)
    | with_reducible apply Onward.foldl
    | refine Onward.of_snd (by assumption) ?_
    | split
    | (with_reducible refine Onward.mk_same rfl ?_
       first
       | with_reducible assumption
       | (with_reducible apply State.micro_onward)
       | refine Onward.of_snd (by assumption) ?_)
    | intro _
    | extract_lets
    | dsimp (zeta := false) only
    | dsimp +zetaDelta only)

theorem execKjmp_onward (e : Nat) (w : BitVec 30) {s : State} {t : State} (ho : execKjmp e w s = .next t) : Onward s
    t := by
  unfold execKjmp at ho
  injection ho with ho
  subst ho
  have ho := Onward.refl s
  repeat' (first
    | with_reducible assumption
    | (with_reducible apply State.micro_onward)
    | with_reducible apply Onward.foldl
    | refine Onward.of_snd (by assumption) ?_
    | split
    | (with_reducible refine Onward.mk_same rfl ?_
       first
       | with_reducible assumption
       | (with_reducible apply State.micro_onward)
       | refine Onward.of_snd (by assumption) ?_)
    | intro _
    | extract_lets
    | dsimp (zeta := false) only
    | dsimp +zetaDelta only)

theorem execKpush_onward (e : Nat) (w : BitVec 30) {s : State} {t : State} (ho : execKpush e w s = .next t) : Onward
    s t := by
  unfold execKpush at ho
  injection ho with ho
  subst ho
  have ho := Onward.refl s
  repeat' (first
    | with_reducible assumption
    | (with_reducible apply State.micro_onward)
    | with_reducible apply Onward.foldl
    | refine Onward.of_snd (by assumption) ?_
    | split
    | (with_reducible refine Onward.mk_same rfl ?_
       first
       | with_reducible assumption
       | (with_reducible apply State.micro_onward)
       | refine Onward.of_snd (by assumption) ?_)
    | intro _
    | extract_lets
    | dsimp (zeta := false) only
    | dsimp +zetaDelta only)

theorem execKpop_onward (e : Nat) (w : BitVec 30) {s : State} {t : State} (ho : execKpop e w s = .next t) : Onward s
    t := by
  unfold execKpop at ho
  injection ho with ho
  subst ho
  have ho := Onward.refl s
  repeat' (first
    | with_reducible assumption
    | (with_reducible apply State.micro_onward)
    | with_reducible apply Onward.foldl
    | refine Onward.of_snd (by assumption) ?_
    | split
    | (with_reducible refine Onward.mk_same rfl ?_
       first
       | with_reducible assumption
       | (with_reducible apply State.micro_onward)
       | refine Onward.of_snd (by assumption) ?_)
    | intro _
    | extract_lets
    | dsimp (zeta := false) only
    | dsimp +zetaDelta only)

theorem execVissue_onward (e : Nat) (w : BitVec 30) {s : State} {t : State} (ho : execVissue e w s = .next t) :
    Onward s t := by
  unfold execVissue at ho
  injection ho with ho
  subst ho
  have ho := Onward.refl s
  repeat' (first
    | with_reducible assumption
    | (with_reducible apply State.micro_onward)
    | with_reducible apply Onward.foldl
    | refine Onward.of_snd (by assumption) ?_
    | split
    | (with_reducible refine Onward.mk_same rfl ?_
       first
       | with_reducible assumption
       | (with_reducible apply State.micro_onward)
       | refine Onward.of_snd (by assumption) ?_)
    | intro _
    | extract_lets
    | dsimp (zeta := false) only
    | dsimp +zetaDelta only)

theorem execVwait_onward (e : Nat) (w : BitVec 30) {s : State} {t : State} (ho : execVwait e w s = .next t) : Onward
    s t := by
  unfold execVwait at ho
  injection ho with ho
  subst ho
  have ho := Onward.refl s
  repeat' (first
    | with_reducible assumption
    | (with_reducible apply State.micro_onward)
    | with_reducible apply Onward.foldl
    | refine Onward.of_snd (by assumption) ?_
    | split
    | (with_reducible refine Onward.mk_same rfl ?_
       first
       | with_reducible assumption
       | (with_reducible apply State.micro_onward)
       | refine Onward.of_snd (by assumption) ?_)
    | intro _
    | extract_lets
    | dsimp (zeta := false) only
    | dsimp +zetaDelta only)

theorem execRowmv_onward (e : Nat) (w : BitVec 30) {s : State} {t : State} (ho : execRowmv e w s = .next t) : Onward
    s t := by
  unfold execRowmv at ho
  injection ho with ho
  subst ho
  have ho := Onward.refl s
  repeat' (first
    | with_reducible assumption
    | (with_reducible apply State.micro_onward)
    | with_reducible apply Onward.foldl
    | refine Onward.of_snd (by assumption) ?_
    | split
    | (with_reducible refine Onward.mk_same rfl ?_
       first
       | with_reducible assumption
       | (with_reducible apply State.micro_onward)
       | refine Onward.of_snd (by assumption) ?_)
    | intro _
    | extract_lets
    | dsimp (zeta := false) only
    | dsimp +zetaDelta only)

theorem execChk_onward (e : Nat) (w : BitVec 30) {s : State} {t : State} (ho : execChk e w s = .next t) : Onward s t
    := by
  unfold execChk at ho
  injection ho with ho
  subst ho
  have ho := Onward.refl s
  repeat' (first
    | with_reducible assumption
    | (with_reducible apply State.micro_onward)
    | with_reducible apply Onward.foldl
    | refine Onward.of_snd (by assumption) ?_
    | split
    | (with_reducible refine Onward.mk_same rfl ?_
       first
       | with_reducible assumption
       | (with_reducible apply State.micro_onward)
       | refine Onward.of_snd (by assumption) ?_)
    | intro _
    | extract_lets
    | dsimp (zeta := false) only
    | dsimp +zetaDelta only)

theorem execMicroFault_onward (e : Nat) (w : BitVec 30) {s : State} {t : State} (ho : execMicroFault e w s = .next
    t) : Onward s t := by
  unfold execMicroFault at ho
  injection ho with ho
  subst ho
  have ho := Onward.refl s
  repeat' (first
    | with_reducible assumption
    | (with_reducible apply State.micro_onward)
    | with_reducible apply Onward.foldl
    | refine Onward.of_snd (by assumption) ?_
    | split
    | (with_reducible refine Onward.mk_same rfl ?_
       first
       | with_reducible assumption
       | (with_reducible apply State.micro_onward)
       | refine Onward.of_snd (by assumption) ?_)
    | intro _
    | extract_lets
    | dsimp (zeta := false) only
    | dsimp +zetaDelta only)

theorem execImmf_onward (e : Nat) (w : BitVec 30) {s : State} {t : State} (ho : execImmf e w s = .next t) : Onward s
    t := by
  unfold execImmf at ho
  injection ho with ho
  subst ho
  have ho := Onward.refl s
  repeat' (first
    | with_reducible assumption
    | (with_reducible apply State.micro_onward)
    | with_reducible apply Onward.foldl
    | refine Onward.of_snd (by assumption) ?_
    | split
    | (with_reducible refine Onward.mk_same rfl ?_
       first
       | with_reducible assumption
       | (with_reducible apply State.micro_onward)
       | refine Onward.of_snd (by assumption) ?_)
    | intro _
    | extract_lets
    | dsimp (zeta := false) only
    | dsimp +zetaDelta only)

theorem execMicroNext_onward (e : Nat) (w : BitVec 30) {s : State} {t : State} (ho : execMicroNext e w s = .next t)
    : Onward s t := by
  unfold execMicroNext at ho
  injection ho with ho
  subst ho
  have ho := Onward.refl s
  repeat' (first
    | with_reducible assumption
    | (with_reducible apply State.microSafe_onward)
    | with_reducible apply Onward.foldl
    | refine Onward.of_snd (by assumption) ?_
    | split
    | (with_reducible refine Onward.mk_same rfl ?_
       first
       | with_reducible assumption
       | (with_reducible apply State.microSafe_onward)
       | refine Onward.of_snd (by assumption) ?_)
    | intro _
    | extract_lets
    | dsimp (zeta := false) only
    | dsimp +zetaDelta only)

theorem execPoll_onward (e : Nat) (w : BitVec 30) {s : State} {t : State} (ho : execPoll e w s = .next t) : Onward s
    t := by
  unfold execPoll at ho
  injection ho with ho
  subst ho
  have ho := Onward.refl s
  repeat' (first
    | with_reducible assumption
    | (with_reducible apply State.microSafe_onward)
    | with_reducible apply Onward.foldl
    | refine Onward.of_snd (by assumption) ?_
    | split
    | (with_reducible refine Onward.mk_same rfl ?_
       first
       | with_reducible assumption
       | (with_reducible apply State.microSafe_onward)
       | refine Onward.of_snd (by assumption) ?_)
    | intro _
    | extract_lets
    | dsimp (zeta := false) only
    | dsimp +zetaDelta only)

theorem execKcore_onward (e : Nat) (w : BitVec 30) {s : State} {t : State} (ho : execKcore e w s = .next t) : Onward
    s t := by
  unfold execKcore at ho
  injection ho with ho
  subst ho
  have ho := Onward.refl s
  repeat' (first
    | with_reducible assumption
    | (with_reducible apply State.micro_onward)
    | with_reducible apply Onward.foldl
    | refine Onward.of_snd (by assumption) ?_
    | split
    | (with_reducible refine Onward.mk_same rfl ?_
       first
       | with_reducible assumption
       | (with_reducible apply State.micro_onward)
       | refine Onward.of_snd (by assumption) ?_)
    | intro _
    | extract_lets
    | dsimp (zeta := false) only
    | dsimp +zetaDelta only)

theorem execShmap_onward (e : Nat) (w : BitVec 30) {s : State} {t : State} (ho : execShmap e w s = .next t) : Onward
    s t := by
  unfold execShmap at ho
  injection ho with ho
  subst ho
  have ho := Onward.refl s
  repeat' (first
    | with_reducible assumption
    | (with_reducible apply State.micro_onward)
    | with_reducible apply Onward.foldl
    | refine Onward.of_snd (by assumption) ?_
    | split
    | (with_reducible refine Onward.mk_same rfl ?_
       first
       | with_reducible assumption
       | (with_reducible apply State.micro_onward)
       | refine Onward.of_snd (by assumption) ?_)
    | intro _
    | extract_lets
    | dsimp (zeta := false) only
    | dsimp +zetaDelta only)

theorem execModw_onward (e : Nat) (w : BitVec 30) {s : State} {t : State} (ho : execModw e w s = .next t) : Onward s
    t := by
  unfold execModw at ho
  injection ho with ho
  subst ho
  have ho := Onward.refl s
  repeat' (first
    | with_reducible assumption
    | (with_reducible apply State.micro_onward)
    | with_reducible apply Onward.foldl
    | refine Onward.of_snd (by assumption) ?_
    | split
    | (with_reducible refine Onward.mk_same rfl ?_
       first
       | with_reducible assumption
       | (with_reducible apply State.micro_onward)
       | refine Onward.of_snd (by assumption) ?_)
    | intro _
    | extract_lets
    | dsimp (zeta := false) only
    | dsimp +zetaDelta only)

theorem execOstr_onward (e : Nat) (w : BitVec 30) {s : State} {t : State} (ho : execOstr e w s = .next t) : Onward s
    t := by
  unfold execOstr at ho
  injection ho with ho
  subst ho
  have ho := Onward.refl s
  repeat' (first
    | with_reducible assumption
    | (with_reducible apply State.fetchMicro_onward)
    | (with_reducible apply State.streamOut_onward)
    | (with_reducible apply State.onVce_onward)
    | (with_reducible apply State.microEnd_onward)
    | with_reducible apply Onward.foldl
    | refine Onward.of_snd (by assumption) ?_
    | split
    | (with_reducible refine Onward.mk_same rfl ?_
       first
       | with_reducible assumption
       | (with_reducible apply State.fetchMicro_onward)
       | (with_reducible apply State.streamOut_onward)
       | (with_reducible apply State.onVce_onward)
       | (with_reducible apply State.microEnd_onward)
       | refine Onward.of_snd (by assumption) ?_)
    | intro _
    | extract_lets
    | dsimp (zeta := false) only
    | dsimp +zetaDelta only)

theorem State.portElem_onward {s₀ s : State} (j : Nat) (x : Job) (v : Vce) (i : Nat) (ho : Onward s₀ s) :
    Onward s₀ (s.portElem j x v i).1 := by
  unfold State.portElem
  extract_lets +onlyGivenNames f idx c
  split
  · exact ho
  split
  · have h1 : Onward s₀ (if c = 2 then s.noteRead ((s.window x.slice).1 + 8 * idx) 8 else s) :=
      Onward.ite (State.noteRead_onward _ _ ho) ho
    dsimp only
    split <;> exact h1
  split
  · exact ho
  · exact State.scatter_onward _ _ _ ho

theorem execPort_onward {s t : State} (e : Nat) (w : BitVec 30) (elem : Nat) (ho : execPort e w elem s = .next t) :
    Onward s t := by
  unfold execPort at ho
  injection ho with ho
  subst ho
  have h0 := Onward.refl s
  refine State.fetchMicro_onward _ _ _ _ (fun j x v => ?_) h0
  extract_lets +onlyGivenNames f
  split
  · exact State.runTo_onward _ _ h0
  split
  · exact State.microEnd_onward _ _ h0
  extract_lets +onlyGivenNames i a u
  split
  · exact State.microEnd_onward _ _ h0
  have h1 : Onward s (if i < s.windowWords x.slice then s.openGroups a 8 else s) :=
    Onward.ite (State.openGroups_onward _ _ h0) h0
  revert h1
  generalize (if i < s.windowWords x.slice then s.openGroups a 8 else s) = s1
  intro h1
  dsimp only
  have h2 := State.portElem_onward j x u elem h1
  revert h2
  generalize s1.portElem j x u elem = p
  obtain ⟨s2, v2, o⟩ := p
  intro h2
  rcases o with _ | ⟨c, i2⟩
  · exact State.runTo_onward _ _ h2
  · exact State.kernelFault_onward _ _ _ _ h2

theorem execJend_onward (e : Nat) (w : BitVec 30) {s : State} {t : State} (ho : execJend e w s = .next t) : Onward s
    t := by
  unfold execJend at ho
  injection ho with ho
  subst ho
  have ho := Onward.refl s
  repeat' (first
    | with_reducible assumption
    | (with_reducible apply State.fetchMicro_onward)
    | (with_reducible apply State.microEnd_onward)
    | (with_reducible apply State.kernelEnds_onward)
    | with_reducible apply Onward.foldl
    | refine Onward.of_snd (by assumption) ?_
    | split
    | (with_reducible refine Onward.mk_same rfl ?_
       first
       | with_reducible assumption
       | (with_reducible apply State.fetchMicro_onward)
       | (with_reducible apply State.microEnd_onward)
       | (with_reducible apply State.kernelEnds_onward)
       | refine Onward.of_snd (by assumption) ?_)
    | intro _
    | extract_lets
    | dsimp (zeta := false) only
    | dsimp +zetaDelta only)

theorem execDbgStep_onward {s : State} {t : State} (ho : execDbgStep s = .next t) : Onward s t := by
  unfold execDbgStep at ho
  injection ho with ho
  subst ho
  have ho := Onward.refl s
  repeat' (first
    | with_reducible assumption
    | (refine State.dbgAction_onward (by assumption) ?_)
    | (with_reducible apply State.onVce_onward)
    | (with_reducible apply State.machineCheck_onward)
    | (with_reducible apply State.recordAction_onward)
    | with_reducible apply Onward.foldl
    | refine Onward.of_snd (by assumption) ?_
    | split
    | (with_reducible refine Onward.mk_same rfl ?_
       first
       | with_reducible assumption
       | (refine State.dbgAction_onward (by assumption) ?_)
       | (with_reducible apply State.onVce_onward)
       | (with_reducible apply State.machineCheck_onward)
       | (with_reducible apply State.recordAction_onward)
       | refine Onward.of_snd (by assumption) ?_)
    | intro _
    | extract_lets
    | dsimp (zeta := false) only
    | dsimp +zetaDelta only)

end Sys2Proof.Machine
end

