-- ==== Sys2Proof/Laws/OnwardStart.lean ====
section
/-! SUPPORT. Starts, power and ports.
Each lemma: the operation goes onward (`Onward`). -/

namespace Sys2Proof.Machine

set_option linter.all false
-- In order, so that a build of the package as one text needs few threads.
set_option Elab.async false

theorem State.restoreTime_onward {s₀ s : State} (h : Onward s₀ s) : Onward s₀ s.restoreTime := by
  have e : s.restoredTim.elapsed = s.tim.elapsed ∧ s.restoredTim.frac = 0 := by
    unfold State.restoredTim
    split <;> exact ⟨rfl, rfl⟩
  refine h.upd (elapsed := Nat.le_of_eq e.1.symm) (frac := fun _ => ?_)
  show s.restoredTim.frac < _
  rw [e.2]
  exact Nat.two_pow_pos _

theorem State.applyPower_onward {s₀ : State} {s : State} (d : StartData) (ho : Onward s₀ s) : Onward s₀
    (State.applyPower s d) := by
  unfold State.applyPower
  extract_lets s0_ x1_
  have h_s0_ : Onward s₀ s0_ := by
    dsimp (zeta := false) only [s0_]
    repeat' (first | with_reducible assumption | with_reducible apply State.restoreTime_onward)
  try clear_value s0_
  repeat' (first | with_reducible assumption | with_reducible refine Onward.mk_same rfl ?_)

theorem State.determineState_onward {s₀ : State} {s : State} (ho : Onward s₀ s) : Onward s₀ (State.determineState s)
    := by
  unfold State.determineState
  extract_lets x0_ s1_
  have h_s1_ : Onward s₀ s1_ := by
    dsimp (zeta := false) only [s1_]
    repeat' (first | with_reducible assumption | with_reducible refine Onward.mk_same rfl ?_)
  try clear_value s1_
  repeat' (first
      | with_reducible assumption | with_reducible apply State.eraseRoots_onward
      | with_reducible apply State.event_onward | split)

theorem State.eraseForState_onward {s₀ s : State} (ho : Onward s₀ s) : Onward s₀ s.eraseForState := by
  unfold State.eraseForState
  have h0 := State.eraseUnref_onward ho
  generalize s.eraseUnref = u at h0 ⊢
  have h1 : Onward s₀ (({ u with
      kmg := { u.kmg with epochs := [] }
      nvm := { u.nvm with images := [], gen := 0 } }).eraseBlocks 0
        (if u.nvm.images = [] then [] else List.range 64)) :=
    State.eraseBlocks_onward _ _ (h0.upd (epochs := fun _ => rfl))
  exact Onward.ite h1 ((State.erasePackages_onward _ h1).same rfl)

theorem State.checkAon_onward {s₀ s : State} (h : Onward s₀ s) : Onward s₀ s.checkAon := by
  unfold State.checkAon
  split
  · exact h
  · exact h.upd (counter := fun _ => Nat.two_pow_pos _)
      (engines := fun g => by dsimp only; exact keysRise_mapAll _ _ g)

theorem State.actOnLatch_onward {s₀ : State} {s : State} (ho : Onward s₀ s) : Onward s₀ (State.actOnLatch s) := by
  unfold State.actOnLatch
  repeat' (first
      | with_reducible assumption | with_reducible apply State.eraseRoots_onward
      | with_reducible apply State.event_onward | split | with_reducible refine Onward.mk_same rfl ?_)

theorem State.copyEntry_onward {s₀ : State} {s : State} (time : Nat) (mon : Nat) (word : Nat) (ho : Onward s₀ s) :
    Onward s₀ (State.copyEntry s time mon word) := by
  unfold State.copyEntry
  repeat' (first | with_reducible assumption | with_reducible apply State.intake_onward)

theorem State.copyEntries_onward {s₀ : State} {s : State} (ho : Onward s₀ s) : Onward s₀ (State.copyEntries s) := by
  unfold State.copyEntries
  extract_lets s0_ s1_
  have h_s0_ : Onward s₀ s0_ := by
    dsimp (zeta := false) only [s0_]
    repeat' (first
      | with_reducible assumption
      | (with_reducible apply State.copyEntry_onward)
      | (with_reducible apply State.flushRing_onward)
      | with_reducible apply Onward.foldl
      | refine Onward.of_snd (by assumption) ?_
      | split
      | (with_reducible refine Onward.mk_same rfl ?_
         first
         | with_reducible assumption
         | (with_reducible apply State.copyEntry_onward)
         | (with_reducible apply State.flushRing_onward)
         | refine Onward.of_snd (by assumption) ?_)
      | intro _
      | extract_lets
      | dsimp (zeta := false) only
      | dsimp +zetaDelta only)
  try clear_value s0_
  have h_s1_ : Onward s₀ s1_ := by
    dsimp (zeta := false) only [s1_]
    repeat' (first
      | with_reducible assumption
      | (with_reducible apply State.copyEntry_onward)
      | (with_reducible apply State.flushRing_onward)
      | with_reducible apply Onward.foldl
      | refine Onward.of_snd (by assumption) ?_
      | split
      | (with_reducible refine Onward.mk_same rfl ?_
         first
         | with_reducible assumption
         | (with_reducible apply State.copyEntry_onward)
         | (with_reducible apply State.flushRing_onward)
         | refine Onward.of_snd (by assumption) ?_)
      | intro _
      | extract_lets
      | dsimp (zeta := false) only
      | dsimp +zetaDelta only)
  try clear_value s1_
  repeat' (first
    | with_reducible assumption
    | (with_reducible apply State.copyEntry_onward)
    | (with_reducible apply State.flushRing_onward)
    | with_reducible apply Onward.foldl
    | refine Onward.of_snd (by assumption) ?_
    | split
    | (with_reducible refine Onward.mk_same rfl ?_
       first
       | with_reducible assumption
       | (with_reducible apply State.copyEntry_onward)
       | (with_reducible apply State.flushRing_onward)
       | refine Onward.of_snd (by assumption) ?_)
    | intro _
    | extract_lets
    | dsimp (zeta := false) only
    | dsimp +zetaDelta only)

theorem State.copyStore_onward {s₀ : State} {s : State} (ho : Onward s₀ s) : Onward s₀ (State.copyStore s) := by
  unfold State.copyStore
  extract_lets x0_ x1_ s2_ x3_ x4_
  have h_s2_ : Onward s₀ s2_ := by
    dsimp (zeta := false) only [s2_]
    repeat' (first
      | with_reducible assumption
      | (with_reducible apply State.copyEntries_onward)
      | with_reducible apply Onward.foldl
      | refine Onward.of_snd (by assumption) ?_
      | split
      | (with_reducible refine Onward.mk_same rfl ?_
         first
         | with_reducible assumption
         | (with_reducible apply State.copyEntries_onward)
         | refine Onward.of_snd (by assumption) ?_)
      | intro _
      | extract_lets
      | dsimp (zeta := false) only
      | dsimp +zetaDelta only)
  try clear_value s2_
  repeat' (first
    | with_reducible assumption
    | (with_reducible apply State.copyEntries_onward)
    | with_reducible apply Onward.foldl
    | refine Onward.of_snd (by assumption) ?_
    | split
    | (with_reducible refine Onward.mk_same rfl ?_
       first
       | with_reducible assumption
       | (with_reducible apply State.copyEntries_onward)
       | refine Onward.of_snd (by assumption) ?_)
    | intro _
    | extract_lets
    | dsimp (zeta := false) only
    | dsimp +zetaDelta only)

theorem State.raiseAtStart_onward {s₀ : State} {s : State} (m : Nat) (ho : Onward s₀ s) : Onward s₀
    (State.raiseAtStart s m) := by
  unfold State.raiseAtStart
  extract_lets s0_ x1_
  have h_s0_ : Onward s₀ s0_ := by
    dsimp (zeta := false) only [s0_]
    repeat' (first
      | with_reducible assumption
      | (with_reducible apply State.trip_onward)
      | (with_reducible apply State.actOnLatch_onward)
      | with_reducible apply Onward.foldl
      | refine Onward.of_snd (by assumption) ?_
      | split
      | (with_reducible refine Onward.mk_same rfl ?_
         first
         | with_reducible assumption
         | (with_reducible apply State.trip_onward)
         | (with_reducible apply State.actOnLatch_onward)
         | refine Onward.of_snd (by assumption) ?_)
      | intro _
      | extract_lets
      | dsimp (zeta := false) only
      | dsimp +zetaDelta only)
  try clear_value s0_
  repeat' (first
    | with_reducible assumption
    | (with_reducible apply State.trip_onward)
    | (with_reducible apply State.actOnLatch_onward)
    | with_reducible apply Onward.foldl
    | refine Onward.of_snd (by assumption) ?_
    | split
    | (with_reducible refine Onward.mk_same rfl ?_
       first
       | with_reducible assumption
       | (with_reducible apply State.trip_onward)
       | (with_reducible apply State.actOnLatch_onward)
       | refine Onward.of_snd (by assumption) ?_)
    | intro _
    | extract_lets
    | dsimp (zeta := false) only
    | dsimp +zetaDelta only)

theorem State.loadSetting_onward {s₀ : State} (img : Option Image) {s : State} (r : Reg) (ho : Onward s₀ s) : Onward
    s₀ (State.loadSetting img s r) := by
  unfold State.loadSetting
  repeat' (first
      | with_reducible assumption | with_reducible apply State.event_onward
      | with_reducible apply State.setReg_onward | split)

theorem State.loadAon_onward {s₀ : State} {s : State} (ho : Onward s₀ s) : Onward s₀ (State.loadAon s) := by
  unfold State.loadAon
  extract_lets x0_ s1_ x2_ s3_ s4_ s5_ x6_
  have h_s1_ : Onward s₀ s1_ := by
    dsimp (zeta := false) only [s1_]
    repeat' (first
        | with_reducible assumption | with_reducible apply State.loadSetting_onward
        | with_reducible apply Onward.foldl | intro _)
  try clear_value s1_
  have h_s3_ : Onward s₀ s3_ := by
    dsimp (zeta := false) only [s3_]
    repeat' (first | with_reducible assumption | with_reducible refine Onward.mk_same rfl ?_)
  try clear_value s3_
  have h_s4_ : Onward s₀ s4_ := by
    dsimp (zeta := false) only [s4_]
    repeat' (first | with_reducible assumption | with_reducible apply State.raiseAtStart_onward | split)
  try clear_value s4_
  have h_s5_ : Onward s₀ s5_ := by
    dsimp (zeta := false) only [s5_]
    repeat' (first | with_reducible assumption | with_reducible apply State.raiseAtStart_onward | split)
  try clear_value s5_
  repeat' (first | with_reducible assumption | with_reducible refine Onward.mk_same rfl ?_)

theorem State.loadSettings_onward {s₀ : State} {s : State} (newPower : Bool) (ho : Onward s₀ s) : Onward s₀
    (State.loadSettings s newPower) := by
  unfold State.loadSettings
  extract_lets x0_ x1_ s2_ x3_ x4_ s5_
  have h_s2_ : Onward s₀ s2_ := by
    dsimp (zeta := false) only [s2_]
    repeat' (first
        | with_reducible assumption | with_reducible apply State.loadSetting_onward
        | with_reducible apply Onward.foldl)
  try clear_value s2_
  have h_s5_ : Onward s₀ s5_ := by
    dsimp (zeta := false) only [s5_]
    repeat' (first | with_reducible assumption | with_reducible refine Onward.mk_same rfl ?_)
  try clear_value s5_
  repeat' (first | with_reducible assumption | with_reducible apply State.event_onward)

theorem State.loadPackages_onward {s₀ : State} {s : State} (ho : Onward s₀ s) : Onward s₀ (State.loadPackages s) := by
  unfold State.loadPackages
  extract_lets s0_ s1_
  have h_s0_ : Onward s₀ s0_ := by
    dsimp (zeta := false) only [s0_]
    repeat' (first
        | with_reducible assumption | with_reducible apply State.loadPackage_onward
        | with_reducible apply Onward.foldl | split | intro _)
  try clear_value s0_
  have h_s1_ : Onward s₀ s1_ := by
    dsimp (zeta := false) only [s1_]
    repeat' (first
        | with_reducible assumption | with_reducible apply State.event_onward | with_reducible apply Onward.foldl
        | intro _)
  try clear_value s1_
  repeat' (first | with_reducible assumption | with_reducible apply State.openPartition_onward)

theorem State.katFails_onward {s₀ s : State} (h : Onward s₀ s) : Onward s₀ s.katFails :=
  State.entropyGone_onward (State.event_onward _ _ _ _ _ _ ((State.event_onward _ _ _ _ _ _ h).same rfl))

theorem State.startRng_onward {s₀ s : State} (d : StartData) (ho : Onward s₀ s) : Onward s₀ (s.startRng d) := by
  unfold State.startRng
  have h1 : Onward s₀ { s with rng := { on := true, onAt := s.el, srcs := [(0, { st := .selected })] } } :=
    ho.upd (pool := fun _ => Nat.zero_le _)
  revert h1
  generalize ({ s with rng := { on := true, onAt := s.el, srcs := [(0, { st := .selected })] } } : State) = s1
  intro h1
  have h2 : Onward s₀ (if d.katFail then s1.katFails else d.startup.foldl (fun (s : State) (c : Nat) =>
      if s.rng.noSource then s else s.sourceFails s.rng.sel c true) s1) :=
    Onward.ite (State.katFails_onward h1)
      (Onward.foldl (fun u c hu => Onward.ite hu (State.sourceFails_onward _ _ _ hu)) h1)
  revert h2
  dsimp only
  generalize (if d.katFail then s1.katFails else d.startup.foldl (fun (s : State) (c : Nat) =>
      if s.rng.noSource then s else s.sourceFails s.rng.sel c true) s1) = s2
  intro h2
  refine Onward.ite h2 (State.seed_onward _ _ (State.newBlock_onward (State.harvest_onward _ ?_)))
  have h3 : Onward s₀ (if s2.rng.switching then s2.event 5 (srcNs s2.rng.sel) 1 else s2) :=
    Onward.ite (State.event_onward _ _ _ _ _ _ h2) h2
  revert h3
  generalize (if s2.rng.switching then s2.event 5 (srcNs s2.rng.sel) 1 else s2) = s3
  intro h3
  exact (State.tallied_onward s3.rng.sel 0 h3).same rfl

theorem State.train_onward {s₀ : State} {s : State} (d : StartData) (ho : Onward s₀ s) : Onward s₀ (State.train s d)
    := by
  unfold State.train
  extract_lets x0_ x1_ x2_ x3_ x4_ x5_ s6_
  have h_s6_ : Onward s₀ s6_ := by
    dsimp (zeta := false) only [s6_]
    repeat' (first | with_reducible assumption | with_reducible refine Onward.mk_same rfl ?_)
  try clear_value s6_
  repeat' (first | with_reducible assumption | with_reducible apply State.event_onward | split)

theorem State.eraseRecord_onward {s₀ s : State} (i : Nat) (r : StfRecord) (h : Onward s₀ s) :
    Onward s₀ (s.eraseRecord i r) := by
  have h1 : Onward s₀ { s with kmg := { s.kmg with stf := mapErase s.kmg.stf i } } := h.upd (stf :=
      keysRise_mapErase _)
  unfold State.eraseRecord
  extract_lets
  split
  · exact State.event_onward _ _ _ _ _ _ h1
  · exact h1

theorem State.scanRecord_onward {s₀ : State} (all : Bool) {s : State} (i : Nat) (ho : Onward s₀ s) : Onward s₀
    (State.scanRecord all s i) := by
  unfold State.scanRecord
  repeat' (first
      | with_reducible assumption | with_reducible apply State.eraseRecord_onward
      | with_reducible apply State.onRecord_onward | split)

theorem State.scanRecords_onward {s₀ : State} {s : State} (all : Bool) (ho : Onward s₀ s) : Onward s₀
    (State.scanRecords s all) := by
  unfold State.scanRecords
  extract_lets old s1 s2
  have h1 : Onward s₀ s1 := Onward.foldl (fun s i h => State.scanRecord_onward all i h) ho
  clear_value s1
  have h2 : Onward s₀ s2 := Onward.foldl (fun s i h => State.scanRecord_onward false i h) h1
  clear_value s2
  exact State.eraseBlocks_onward _ _ h2

theorem State.autoActivate_onward {s₀ : State} {s : State} (ho : Onward s₀ s) : Onward s₀ (State.autoActivate s) := by
  unfold State.autoActivate
  repeat' (first
      | with_reducible assumption | with_reducible apply State.activate_onward | with_reducible apply Onward.foldl
      | split | intro _)

theorem State.becomeReady_onward {s₀ : State} {s : State} (ho : Onward s₀ s) : Onward s₀ (State.becomeReady s) := by
  unfold State.becomeReady
  extract_lets x0_ x1_ x2_ s3_
  have h_s3_ : Onward s₀ s3_ := by
    dsimp (zeta := false) only [s3_]
    repeat' (first | with_reducible assumption | with_reducible refine Onward.mk_same rfl ?_)
  try clear_value s3_
  repeat' (first | with_reducible assumption | with_reducible apply State.event_onward)

theorem State.resumeSeq_onward {s₀ : State} {s : State} (ho : Onward s₀ s) : Onward s₀ (State.resumeSeq s) := by
  unfold State.resumeSeq
  repeat' (first | with_reducible assumption | with_reducible refine Onward.mk_same rfl ?_)

theorem State.scanJournal_onward {s₀ : State} {s : State} (ho : Onward s₀ s) : Onward s₀ (State.scanJournal s) := by
  unfold State.scanJournal
  extract_lets x0_ x1_ s2_
  have h_s2_ : Onward s₀ s2_ := by
    dsimp (zeta := false) only [s2_]
    repeat' (first | with_reducible assumption | with_reducible refine Onward.mk_same rfl ?_)
  try clear_value s2_
  repeat' (first | with_reducible assumption | with_reducible apply State.event_onward | split)

theorem State.startKeys_onward {s₀ s : State} (first : Bool) (ho : Onward s₀ s) : Onward s₀ (s.startKeys first) := by
  unfold State.startKeys
  extract_lets +onlyGivenNames fresh r1 s1 c2 k2 l2 s2 s3 s4
  have h1 : Onward s₀ s1 := by
    refine Onward.ite (State.newRoot_onward _ (State.newBlock_onward (s := { s with rng := { s.rng with blocks :=
        s.rng.blocks + 1 } }) (ho.same rfl))) ho
  clear_value s1
  have h2 : Onward s₀ s2 := Onward.ite ((State.openCmc_onward h1).same rfl) h1
  clear_value s2
  have h3 : Onward s₀ s3 := State.scanRecords_onward _ h2
  clear_value s3
  have h4 : Onward s₀ s4 := Onward.ite (State.event_onward _ _ _ _ _ _ h3) h3
  clear_value s4
  exact State.startCounter_onward (State.statementKey_onward h4)

theorem State.startWorking_onward {s₀ : State} {s : State} (d : StartData) (newPower : Bool) (first : Bool) (ho :
    Onward s₀ s) : Onward s₀ (State.startWorking s d newPower first) := by
  unfold State.startWorking
  extract_lets s0_ s1_ s2_
  have h_s0_ : Onward s₀ s0_ := by
    dsimp (zeta := false) only [s0_]
    repeat' (first
        | with_reducible assumption | with_reducible apply State.loadPackages_onward
        | with_reducible apply State.activatePackages_onward | with_reducible apply State.carryOutSeparation_onward
        | with_reducible apply State.repairAll_onward)
  try clear_value s0_
  have h_s1_ : Onward s₀ s1_ := by
    dsimp (zeta := false) only [s1_]
    repeat' (first
        | with_reducible assumption | with_reducible apply State.loadSettings_onward
        | with_reducible apply State.train_onward | with_reducible apply State.startRng_onward)
  try clear_value s1_
  have h_s2_ : Onward s₀ s2_ := by
    dsimp (zeta := false) only [s2_]
    repeat' (first
        | with_reducible assumption | with_reducible apply State.advance_onward
        | with_reducible apply State.startKeys_onward)
  try clear_value s2_
  repeat' (first
      | with_reducible assumption | with_reducible apply State.becomeReady_onward
      | with_reducible apply State.autoActivate_onward | with_reducible apply State.startRound_onward | split)

theorem State.startEnded_onward {s₀ : State} {s : State} (d : StartData) (newPower : Bool) (first : Bool) (ho :
    Onward s₀ s) : Onward s₀ (State.startEnded s d newPower first) := by
  unfold State.startEnded
  extract_lets s0_ s1_ s2_ x3_ s4_
  have h_s0_ : Onward s₀ s0_ := by
    dsimp (zeta := false) only [s0_]
    repeat' (first
      | with_reducible assumption
      | (with_reducible apply State.carryOutSeparation_onward)
      | (with_reducible apply State.startRng_onward)
      | (with_reducible apply State.loadPackages_onward)
      | (with_reducible apply State.activatePackages_onward)
      | (with_reducible apply State.scanRecords_onward)
      | (with_reducible apply State.loadSettings_onward)
      | (with_reducible apply State.event_onward)
      | (with_reducible apply State.becomeReady_onward)
      | (with_reducible apply State.advance_onward)
      | with_reducible apply Onward.foldl
      | refine Onward.of_snd (by assumption) ?_
      | split
      | (with_reducible refine Onward.mk_same rfl ?_
         first
         | with_reducible assumption
         | (with_reducible apply State.carryOutSeparation_onward)
         | (with_reducible apply State.startRng_onward)
         | (with_reducible apply State.loadPackages_onward)
         | (with_reducible apply State.activatePackages_onward)
         | (with_reducible apply State.scanRecords_onward)
         | (with_reducible apply State.loadSettings_onward)
         | (with_reducible apply State.event_onward)
         | (with_reducible apply State.becomeReady_onward)
         | (with_reducible apply State.advance_onward)
         | refine Onward.of_snd (by assumption) ?_)
      | intro _
      | extract_lets
      | dsimp (zeta := false) only
      | dsimp +zetaDelta only)
  try clear_value s0_
  have h_s1_ : Onward s₀ s1_ := by
    dsimp (zeta := false) only [s1_]
    repeat' (first
      | with_reducible assumption
      | (with_reducible apply State.carryOutSeparation_onward)
      | (with_reducible apply State.startRng_onward)
      | (with_reducible apply State.loadPackages_onward)
      | (with_reducible apply State.activatePackages_onward)
      | (with_reducible apply State.scanRecords_onward)
      | (with_reducible apply State.loadSettings_onward)
      | (with_reducible apply State.event_onward)
      | (with_reducible apply State.becomeReady_onward)
      | (with_reducible apply State.advance_onward)
      | with_reducible apply Onward.foldl
      | refine Onward.of_snd (by assumption) ?_
      | split
      | (with_reducible refine Onward.mk_same rfl ?_
         first
         | with_reducible assumption
         | (with_reducible apply State.carryOutSeparation_onward)
         | (with_reducible apply State.startRng_onward)
         | (with_reducible apply State.loadPackages_onward)
         | (with_reducible apply State.activatePackages_onward)
         | (with_reducible apply State.scanRecords_onward)
         | (with_reducible apply State.loadSettings_onward)
         | (with_reducible apply State.event_onward)
         | (with_reducible apply State.becomeReady_onward)
         | (with_reducible apply State.advance_onward)
         | refine Onward.of_snd (by assumption) ?_)
      | intro _
      | extract_lets
      | dsimp (zeta := false) only
      | dsimp +zetaDelta only)
  try clear_value s1_
  have h_s2_ : Onward s₀ s2_ := by
    dsimp (zeta := false) only [s2_]
    repeat' (first
      | with_reducible assumption
      | (with_reducible apply State.carryOutSeparation_onward)
      | (with_reducible apply State.startRng_onward)
      | (with_reducible apply State.loadPackages_onward)
      | (with_reducible apply State.activatePackages_onward)
      | (with_reducible apply State.scanRecords_onward)
      | (with_reducible apply State.loadSettings_onward)
      | (with_reducible apply State.event_onward)
      | (with_reducible apply State.becomeReady_onward)
      | (with_reducible apply State.advance_onward)
      | with_reducible apply Onward.foldl
      | refine Onward.of_snd (by assumption) ?_
      | split
      | (with_reducible refine Onward.mk_same rfl ?_
         first
         | with_reducible assumption
         | (with_reducible apply State.carryOutSeparation_onward)
         | (with_reducible apply State.startRng_onward)
         | (with_reducible apply State.loadPackages_onward)
         | (with_reducible apply State.activatePackages_onward)
         | (with_reducible apply State.scanRecords_onward)
         | (with_reducible apply State.loadSettings_onward)
         | (with_reducible apply State.event_onward)
         | (with_reducible apply State.becomeReady_onward)
         | (with_reducible apply State.advance_onward)
         | refine Onward.of_snd (by assumption) ?_)
      | intro _
      | extract_lets
      | dsimp (zeta := false) only
      | dsimp +zetaDelta only)
  try clear_value s2_
  have h_s4_ : Onward s₀ s4_ := by
    dsimp (zeta := false) only [s4_]
    repeat' (first
      | with_reducible assumption
      | (with_reducible apply State.carryOutSeparation_onward)
      | (with_reducible apply State.startRng_onward)
      | (with_reducible apply State.loadPackages_onward)
      | (with_reducible apply State.activatePackages_onward)
      | (with_reducible apply State.scanRecords_onward)
      | (with_reducible apply State.loadSettings_onward)
      | (with_reducible apply State.event_onward)
      | (with_reducible apply State.becomeReady_onward)
      | (with_reducible apply State.advance_onward)
      | with_reducible apply Onward.foldl
      | refine Onward.of_snd (by assumption) ?_
      | split
      | (with_reducible refine Onward.mk_same rfl ?_
         first
         | with_reducible assumption
         | (with_reducible apply State.carryOutSeparation_onward)
         | (with_reducible apply State.startRng_onward)
         | (with_reducible apply State.loadPackages_onward)
         | (with_reducible apply State.activatePackages_onward)
         | (with_reducible apply State.scanRecords_onward)
         | (with_reducible apply State.loadSettings_onward)
         | (with_reducible apply State.event_onward)
         | (with_reducible apply State.becomeReady_onward)
         | (with_reducible apply State.advance_onward)
         | refine Onward.of_snd (by assumption) ?_)
      | intro _
      | extract_lets
      | dsimp (zeta := false) only
      | dsimp +zetaDelta only)
  try clear_value s4_
  repeat' (first
    | with_reducible assumption
    | (with_reducible apply State.carryOutSeparation_onward)
    | (with_reducible apply State.startRng_onward)
    | (with_reducible apply State.loadPackages_onward)
    | (with_reducible apply State.activatePackages_onward)
    | (with_reducible apply State.scanRecords_onward)
    | (with_reducible apply State.loadSettings_onward)
    | (with_reducible apply State.event_onward)
    | (with_reducible apply State.becomeReady_onward)
    | (with_reducible apply State.advance_onward)
    | with_reducible apply Onward.foldl
    | refine Onward.of_snd (by assumption) ?_
    | split
    | (with_reducible refine Onward.mk_same rfl ?_
       first
       | with_reducible assumption
       | (with_reducible apply State.carryOutSeparation_onward)
       | (with_reducible apply State.startRng_onward)
       | (with_reducible apply State.loadPackages_onward)
       | (with_reducible apply State.activatePackages_onward)
       | (with_reducible apply State.scanRecords_onward)
       | (with_reducible apply State.loadSettings_onward)
       | (with_reducible apply State.event_onward)
       | (with_reducible apply State.becomeReady_onward)
       | (with_reducible apply State.advance_onward)
       | refine Onward.of_snd (by assumption) ?_)
    | intro _
    | extract_lets
    | dsimp (zeta := false) only
    | dsimp +zetaDelta only)

theorem State.start_onward {s₀ : State} {s : State} (d : StartData) (ho : Onward s₀ s) : Onward s₀ (State.start s d)
    := by
  unfold State.start
  extract_lets x0_ s1_ x2_ x3_ x4_ x5_ s6_ s7_ s8_ s9_ x10_ s11_
  have h_s1_ : Onward s₀ s1_ := by
    dsimp (zeta := false) only [s1_]
    repeat' (first
      | with_reducible assumption
      | (with_reducible apply State.loadMap_onward)
      | (with_reducible apply State.applyPower_onward)
      | (with_reducible apply State.checkAon_onward)
      | (with_reducible apply State.determineState_onward)
      | (with_reducible apply State.resumeSeq_onward)
      | (with_reducible apply State.losePower_onward)
      | (with_reducible apply State.eraseRoots_onward)
      | (with_reducible apply State.scanJournal_onward)
      | (with_reducible apply State.actOnLatch_onward)
      | (with_reducible apply State.copyEntries_onward)
      | (with_reducible apply State.copyStore_onward)
      | (with_reducible apply State.nextBoot_onward)
      | (with_reducible apply State.loadAon_onward)
      | (with_reducible apply State.eraseForState_onward)
      | (with_reducible apply State.startEnded_onward)
      | (with_reducible apply State.startWorking_onward)
      | with_reducible apply Onward.foldl
      | refine Onward.of_snd (by assumption) ?_
      | split
      | (with_reducible refine Onward.mk_same rfl ?_
         first
         | with_reducible assumption
         | (with_reducible apply State.loadMap_onward)
         | (with_reducible apply State.applyPower_onward)
         | (with_reducible apply State.checkAon_onward)
         | (with_reducible apply State.determineState_onward)
         | (with_reducible apply State.resumeSeq_onward)
         | (with_reducible apply State.losePower_onward)
         | (with_reducible apply State.eraseRoots_onward)
         | (with_reducible apply State.scanJournal_onward)
         | (with_reducible apply State.actOnLatch_onward)
         | (with_reducible apply State.copyEntries_onward)
         | (with_reducible apply State.copyStore_onward)
         | (with_reducible apply State.nextBoot_onward)
         | (with_reducible apply State.loadAon_onward)
         | (with_reducible apply State.eraseForState_onward)
         | (with_reducible apply State.startEnded_onward)
         | (with_reducible apply State.startWorking_onward)
         | refine Onward.of_snd (by assumption) ?_)
      | intro _
      | extract_lets
      | dsimp (zeta := false) only
      | dsimp +zetaDelta only)
  try clear_value s1_
  have h_s6_ : Onward s₀ s6_ := by
    dsimp (zeta := false) only [s6_]
    repeat' (first
      | with_reducible assumption
      | (with_reducible apply State.loadMap_onward)
      | (with_reducible apply State.applyPower_onward)
      | (with_reducible apply State.checkAon_onward)
      | (with_reducible apply State.determineState_onward)
      | (with_reducible apply State.resumeSeq_onward)
      | (with_reducible apply State.losePower_onward)
      | (with_reducible apply State.eraseRoots_onward)
      | (with_reducible apply State.scanJournal_onward)
      | (with_reducible apply State.actOnLatch_onward)
      | (with_reducible apply State.copyEntries_onward)
      | (with_reducible apply State.copyStore_onward)
      | (with_reducible apply State.nextBoot_onward)
      | (with_reducible apply State.loadAon_onward)
      | (with_reducible apply State.eraseForState_onward)
      | (with_reducible apply State.startEnded_onward)
      | (with_reducible apply State.startWorking_onward)
      | with_reducible apply Onward.foldl
      | refine Onward.of_snd (by assumption) ?_
      | split
      | (with_reducible refine Onward.mk_same rfl ?_
         first
         | with_reducible assumption
         | (with_reducible apply State.loadMap_onward)
         | (with_reducible apply State.applyPower_onward)
         | (with_reducible apply State.checkAon_onward)
         | (with_reducible apply State.determineState_onward)
         | (with_reducible apply State.resumeSeq_onward)
         | (with_reducible apply State.losePower_onward)
         | (with_reducible apply State.eraseRoots_onward)
         | (with_reducible apply State.scanJournal_onward)
         | (with_reducible apply State.actOnLatch_onward)
         | (with_reducible apply State.copyEntries_onward)
         | (with_reducible apply State.copyStore_onward)
         | (with_reducible apply State.nextBoot_onward)
         | (with_reducible apply State.loadAon_onward)
         | (with_reducible apply State.eraseForState_onward)
         | (with_reducible apply State.startEnded_onward)
         | (with_reducible apply State.startWorking_onward)
         | refine Onward.of_snd (by assumption) ?_)
      | intro _
      | extract_lets
      | dsimp (zeta := false) only
      | dsimp +zetaDelta only)
  try clear_value s6_
  have h_s7_ : Onward s₀ s7_ := by
    dsimp (zeta := false) only [s7_]
    repeat' (first
      | with_reducible assumption
      | (with_reducible apply State.loadMap_onward)
      | (with_reducible apply State.applyPower_onward)
      | (with_reducible apply State.checkAon_onward)
      | (with_reducible apply State.determineState_onward)
      | (with_reducible apply State.resumeSeq_onward)
      | (with_reducible apply State.losePower_onward)
      | (with_reducible apply State.eraseRoots_onward)
      | (with_reducible apply State.scanJournal_onward)
      | (with_reducible apply State.actOnLatch_onward)
      | (with_reducible apply State.copyEntries_onward)
      | (with_reducible apply State.copyStore_onward)
      | (with_reducible apply State.nextBoot_onward)
      | (with_reducible apply State.loadAon_onward)
      | (with_reducible apply State.eraseForState_onward)
      | (with_reducible apply State.startEnded_onward)
      | (with_reducible apply State.startWorking_onward)
      | with_reducible apply Onward.foldl
      | refine Onward.of_snd (by assumption) ?_
      | split
      | (with_reducible refine Onward.mk_same rfl ?_
         first
         | with_reducible assumption
         | (with_reducible apply State.loadMap_onward)
         | (with_reducible apply State.applyPower_onward)
         | (with_reducible apply State.checkAon_onward)
         | (with_reducible apply State.determineState_onward)
         | (with_reducible apply State.resumeSeq_onward)
         | (with_reducible apply State.losePower_onward)
         | (with_reducible apply State.eraseRoots_onward)
         | (with_reducible apply State.scanJournal_onward)
         | (with_reducible apply State.actOnLatch_onward)
         | (with_reducible apply State.copyEntries_onward)
         | (with_reducible apply State.copyStore_onward)
         | (with_reducible apply State.nextBoot_onward)
         | (with_reducible apply State.loadAon_onward)
         | (with_reducible apply State.eraseForState_onward)
         | (with_reducible apply State.startEnded_onward)
         | (with_reducible apply State.startWorking_onward)
         | refine Onward.of_snd (by assumption) ?_)
      | intro _
      | extract_lets
      | dsimp (zeta := false) only
      | dsimp +zetaDelta only)
  try clear_value s7_
  have h_s8_ : Onward s₀ s8_ := by
    dsimp (zeta := false) only [s8_]
    repeat' (first
      | with_reducible assumption
      | (with_reducible apply State.loadMap_onward)
      | (with_reducible apply State.applyPower_onward)
      | (with_reducible apply State.checkAon_onward)
      | (with_reducible apply State.determineState_onward)
      | (with_reducible apply State.resumeSeq_onward)
      | (with_reducible apply State.losePower_onward)
      | (with_reducible apply State.eraseRoots_onward)
      | (with_reducible apply State.scanJournal_onward)
      | (with_reducible apply State.actOnLatch_onward)
      | (with_reducible apply State.copyEntries_onward)
      | (with_reducible apply State.copyStore_onward)
      | (with_reducible apply State.nextBoot_onward)
      | (with_reducible apply State.loadAon_onward)
      | (with_reducible apply State.eraseForState_onward)
      | (with_reducible apply State.startEnded_onward)
      | (with_reducible apply State.startWorking_onward)
      | with_reducible apply Onward.foldl
      | refine Onward.of_snd (by assumption) ?_
      | split
      | (with_reducible refine Onward.mk_same rfl ?_
         first
         | with_reducible assumption
         | (with_reducible apply State.loadMap_onward)
         | (with_reducible apply State.applyPower_onward)
         | (with_reducible apply State.checkAon_onward)
         | (with_reducible apply State.determineState_onward)
         | (with_reducible apply State.resumeSeq_onward)
         | (with_reducible apply State.losePower_onward)
         | (with_reducible apply State.eraseRoots_onward)
         | (with_reducible apply State.scanJournal_onward)
         | (with_reducible apply State.actOnLatch_onward)
         | (with_reducible apply State.copyEntries_onward)
         | (with_reducible apply State.copyStore_onward)
         | (with_reducible apply State.nextBoot_onward)
         | (with_reducible apply State.loadAon_onward)
         | (with_reducible apply State.eraseForState_onward)
         | (with_reducible apply State.startEnded_onward)
         | (with_reducible apply State.startWorking_onward)
         | refine Onward.of_snd (by assumption) ?_)
      | intro _
      | extract_lets
      | dsimp (zeta := false) only
      | dsimp +zetaDelta only)
  try clear_value s8_
  have h_s9_ : Onward s₀ s9_ := by
    dsimp (zeta := false) only [s9_]
    repeat' (first
      | with_reducible assumption
      | (with_reducible apply State.loadMap_onward)
      | (with_reducible apply State.applyPower_onward)
      | (with_reducible apply State.checkAon_onward)
      | (with_reducible apply State.determineState_onward)
      | (with_reducible apply State.resumeSeq_onward)
      | (with_reducible apply State.losePower_onward)
      | (with_reducible apply State.eraseRoots_onward)
      | (with_reducible apply State.scanJournal_onward)
      | (with_reducible apply State.actOnLatch_onward)
      | (with_reducible apply State.copyEntries_onward)
      | (with_reducible apply State.copyStore_onward)
      | (with_reducible apply State.nextBoot_onward)
      | (with_reducible apply State.loadAon_onward)
      | (with_reducible apply State.eraseForState_onward)
      | (with_reducible apply State.startEnded_onward)
      | (with_reducible apply State.startWorking_onward)
      | with_reducible apply Onward.foldl
      | refine Onward.of_snd (by assumption) ?_
      | split
      | (with_reducible refine Onward.mk_same rfl ?_
         first
         | with_reducible assumption
         | (with_reducible apply State.loadMap_onward)
         | (with_reducible apply State.applyPower_onward)
         | (with_reducible apply State.checkAon_onward)
         | (with_reducible apply State.determineState_onward)
         | (with_reducible apply State.resumeSeq_onward)
         | (with_reducible apply State.losePower_onward)
         | (with_reducible apply State.eraseRoots_onward)
         | (with_reducible apply State.scanJournal_onward)
         | (with_reducible apply State.actOnLatch_onward)
         | (with_reducible apply State.copyEntries_onward)
         | (with_reducible apply State.copyStore_onward)
         | (with_reducible apply State.nextBoot_onward)
         | (with_reducible apply State.loadAon_onward)
         | (with_reducible apply State.eraseForState_onward)
         | (with_reducible apply State.startEnded_onward)
         | (with_reducible apply State.startWorking_onward)
         | refine Onward.of_snd (by assumption) ?_)
      | intro _
      | extract_lets
      | dsimp (zeta := false) only
      | dsimp +zetaDelta only)
  try clear_value s9_
  have h_s11_ : Onward s₀ s11_ := by
    dsimp (zeta := false) only [s11_]
    repeat' (first
      | with_reducible assumption
      | (with_reducible apply State.loadMap_onward)
      | (with_reducible apply State.applyPower_onward)
      | (with_reducible apply State.checkAon_onward)
      | (with_reducible apply State.determineState_onward)
      | (with_reducible apply State.resumeSeq_onward)
      | (with_reducible apply State.losePower_onward)
      | (with_reducible apply State.eraseRoots_onward)
      | (with_reducible apply State.scanJournal_onward)
      | (with_reducible apply State.actOnLatch_onward)
      | (with_reducible apply State.copyEntries_onward)
      | (with_reducible apply State.copyStore_onward)
      | (with_reducible apply State.nextBoot_onward)
      | (with_reducible apply State.loadAon_onward)
      | (with_reducible apply State.eraseForState_onward)
      | (with_reducible apply State.startEnded_onward)
      | (with_reducible apply State.startWorking_onward)
      | with_reducible apply Onward.foldl
      | refine Onward.of_snd (by assumption) ?_
      | split
      | (with_reducible refine Onward.mk_same rfl ?_
         first
         | with_reducible assumption
         | (with_reducible apply State.loadMap_onward)
         | (with_reducible apply State.applyPower_onward)
         | (with_reducible apply State.checkAon_onward)
         | (with_reducible apply State.determineState_onward)
         | (with_reducible apply State.resumeSeq_onward)
         | (with_reducible apply State.losePower_onward)
         | (with_reducible apply State.eraseRoots_onward)
         | (with_reducible apply State.scanJournal_onward)
         | (with_reducible apply State.actOnLatch_onward)
         | (with_reducible apply State.copyEntries_onward)
         | (with_reducible apply State.copyStore_onward)
         | (with_reducible apply State.nextBoot_onward)
         | (with_reducible apply State.loadAon_onward)
         | (with_reducible apply State.eraseForState_onward)
         | (with_reducible apply State.startEnded_onward)
         | (with_reducible apply State.startWorking_onward)
         | refine Onward.of_snd (by assumption) ?_)
      | intro _
      | extract_lets
      | dsimp (zeta := false) only
      | dsimp +zetaDelta only)
  try clear_value s11_
  repeat' (first
    | with_reducible assumption
    | (with_reducible apply State.loadMap_onward)
    | (with_reducible apply State.applyPower_onward)
    | (with_reducible apply State.checkAon_onward)
    | (with_reducible apply State.determineState_onward)
    | (with_reducible apply State.resumeSeq_onward)
    | (with_reducible apply State.losePower_onward)
    | (with_reducible apply State.eraseRoots_onward)
    | (with_reducible apply State.scanJournal_onward)
    | (with_reducible apply State.actOnLatch_onward)
    | (with_reducible apply State.copyEntries_onward)
    | (with_reducible apply State.copyStore_onward)
    | (with_reducible apply State.nextBoot_onward)
    | (with_reducible apply State.loadAon_onward)
    | (with_reducible apply State.eraseForState_onward)
    | (with_reducible apply State.startEnded_onward)
    | (with_reducible apply State.startWorking_onward)
    | with_reducible apply Onward.foldl
    | refine Onward.of_snd (by assumption) ?_
    | split
    | (with_reducible refine Onward.mk_same rfl ?_
       first
       | with_reducible assumption
       | (with_reducible apply State.loadMap_onward)
       | (with_reducible apply State.applyPower_onward)
       | (with_reducible apply State.checkAon_onward)
       | (with_reducible apply State.determineState_onward)
       | (with_reducible apply State.resumeSeq_onward)
       | (with_reducible apply State.losePower_onward)
       | (with_reducible apply State.eraseRoots_onward)
       | (with_reducible apply State.scanJournal_onward)
       | (with_reducible apply State.actOnLatch_onward)
       | (with_reducible apply State.copyEntries_onward)
       | (with_reducible apply State.copyStore_onward)
       | (with_reducible apply State.nextBoot_onward)
       | (with_reducible apply State.loadAon_onward)
       | (with_reducible apply State.eraseForState_onward)
       | (with_reducible apply State.startEnded_onward)
       | (with_reducible apply State.startWorking_onward)
       | refine Onward.of_snd (by assumption) ?_)
    | intro _
    | extract_lets
    | dsimp (zeta := false) only
    | dsimp +zetaDelta only)

theorem execBlockReady_onward {s : State} {t : State} (ho : execBlockReady s = .next t) : Onward s t := by
  unfold execBlockReady at ho
  injection ho with ho
  subst ho
  have ho := Onward.refl s
  extract_lets x0_ s1_ x2_ s3_ s4_
  have h_s1_ : Onward s s1_ := by
    dsimp (zeta := false) only [s1_]
    repeat' (first
      | with_reducible assumption
      | (with_reducible apply State.tallied_onward)
      | (with_reducible apply State.event_onward)
      | (with_reducible apply State.newBlock_onward)
      | (with_reducible apply State.statementKey_onward)
      | (with_reducible apply State.giveBlock_onward)
      | (with_reducible apply State.harvest_onward)
      | with_reducible apply Onward.foldl
      | refine Onward.of_snd (by assumption) ?_
      | split
      | (with_reducible refine Onward.mk_same rfl ?_
         first
         | with_reducible assumption
         | (with_reducible apply State.tallied_onward)
         | (with_reducible apply State.event_onward)
         | (with_reducible apply State.newBlock_onward)
         | (with_reducible apply State.statementKey_onward)
         | (with_reducible apply State.giveBlock_onward)
         | (with_reducible apply State.harvest_onward)
         | refine Onward.of_snd (by assumption) ?_)
      | intro _
      | extract_lets
      | dsimp (zeta := false) only
      | dsimp +zetaDelta only)
  try clear_value s1_
  have h_s3_ : Onward s s3_ := by
    dsimp (zeta := false) only [s3_]
    repeat' (first
      | with_reducible assumption
      | (with_reducible apply State.tallied_onward)
      | (with_reducible apply State.event_onward)
      | (with_reducible apply State.newBlock_onward)
      | (with_reducible apply State.statementKey_onward)
      | (with_reducible apply State.giveBlock_onward)
      | (with_reducible apply State.harvest_onward)
      | with_reducible apply Onward.foldl
      | refine Onward.of_snd (by assumption) ?_
      | split
      | (with_reducible refine Onward.mk_same rfl ?_
         first
         | with_reducible assumption
         | (with_reducible apply State.tallied_onward)
         | (with_reducible apply State.event_onward)
         | (with_reducible apply State.newBlock_onward)
         | (with_reducible apply State.statementKey_onward)
         | (with_reducible apply State.giveBlock_onward)
         | (with_reducible apply State.harvest_onward)
         | refine Onward.of_snd (by assumption) ?_)
      | intro _
      | extract_lets
      | dsimp (zeta := false) only
      | dsimp +zetaDelta only)
  try clear_value s3_
  have h_s4_ : Onward s s4_ := by
    dsimp (zeta := false) only [s4_]
    repeat' (first
      | with_reducible assumption
      | (with_reducible apply State.tallied_onward)
      | (with_reducible apply State.event_onward)
      | (with_reducible apply State.newBlock_onward)
      | (with_reducible apply State.statementKey_onward)
      | (with_reducible apply State.giveBlock_onward)
      | (with_reducible apply State.harvest_onward)
      | with_reducible apply Onward.foldl
      | refine Onward.of_snd (by assumption) ?_
      | split
      | (with_reducible refine Onward.mk_same rfl ?_
         first
         | with_reducible assumption
         | (with_reducible apply State.tallied_onward)
         | (with_reducible apply State.event_onward)
         | (with_reducible apply State.newBlock_onward)
         | (with_reducible apply State.statementKey_onward)
         | (with_reducible apply State.giveBlock_onward)
         | (with_reducible apply State.harvest_onward)
         | refine Onward.of_snd (by assumption) ?_)
      | intro _
      | extract_lets
      | dsimp (zeta := false) only
      | dsimp +zetaDelta only)
  try clear_value s4_
  repeat' (first
    | with_reducible assumption
    | (with_reducible apply State.tallied_onward)
    | (with_reducible apply State.event_onward)
    | (with_reducible apply State.newBlock_onward)
    | (with_reducible apply State.statementKey_onward)
    | (with_reducible apply State.giveBlock_onward)
    | (with_reducible apply State.harvest_onward)
    | with_reducible apply Onward.foldl
    | refine Onward.of_snd (by assumption) ?_
    | split
    | (with_reducible refine Onward.mk_same rfl ?_
       first
       | with_reducible assumption
       | (with_reducible apply State.tallied_onward)
       | (with_reducible apply State.event_onward)
       | (with_reducible apply State.newBlock_onward)
       | (with_reducible apply State.statementKey_onward)
       | (with_reducible apply State.giveBlock_onward)
       | (with_reducible apply State.harvest_onward)
       | refine Onward.of_snd (by assumption) ?_)
    | intro _
    | extract_lets
    | dsimp (zeta := false) only
    | dsimp +zetaDelta only)

theorem execRootGeneration_onward {s : State} {t : State} (ho : execRootGeneration s = .next t) : Onward s t := by
  unfold execRootGeneration at ho
  injection ho with ho
  subst ho
  have ho := Onward.refl s
  repeat' (first
    | with_reducible assumption
    | (refine State.takePool_onward (by assumption) ?_)
    | (with_reducible apply State.statementKey_onward)
    | (with_reducible apply State.newRoot_onward)
    | with_reducible apply Onward.foldl
    | refine Onward.of_snd (by assumption) ?_
    | split
    | (with_reducible refine Onward.mk_same rfl ?_
       first
       | with_reducible assumption
       | (refine State.takePool_onward (by assumption) ?_)
       | (with_reducible apply State.statementKey_onward)
       | (with_reducible apply State.newRoot_onward)
       | refine Onward.of_snd (by assumption) ?_)
    | intro _
    | extract_lets
    | dsimp (zeta := false) only
    | dsimp +zetaDelta only)

theorem execColdStart_onward {s t : State} (d : StartData) (h : execColdStart d s = .next t) : Onward s t := by
  have h0 := Onward.refl s
  unfold execColdStart at h
  by_cases a : (!s.pwr.inReset) = true
  · rw [if_pos a] at h
    injection h with h
    exact h ▸ h0
  · rw [if_neg a] at h
    by_cases b : d.testmode = true
    · rw [if_pos b] at h
      injection h with h
      exact h ▸ h0.same rfl
    · rw [if_neg b] at h
      by_cases c : (s.newPower && !d.inOrder) = true
      · rw [if_pos c] at h
        cases h
      · rw [if_neg c] at h
        injection h with h
        exact h ▸ State.start_onward _ h0

theorem State.gateAll_onward {s₀ : State} {s : State} (ho : Onward s₀ s) : Onward s₀ (State.gateAll s) := by
  unfold State.gateAll
  repeat' (first
    | with_reducible assumption
    | (with_reducible apply State.onEngine_onward)
    | (with_reducible apply State.frostEngine_onward)
    | with_reducible apply Onward.foldl
    | refine Onward.of_snd (by assumption) ?_
    | split
    | (with_reducible refine Onward.mk_same rfl ?_
       first
       | with_reducible assumption
       | (with_reducible apply State.onEngine_onward)
       | (with_reducible apply State.frostEngine_onward)
       | refine Onward.of_snd (by assumption) ?_)
    | intro _
    | extract_lets
    | dsimp (zeta := false) only
    | dsimp +zetaDelta only)

theorem State.sleep_onward {s₀ : State} {s : State} (ho : Onward s₀ s) : Onward s₀ (State.sleep s) := by
  unfold State.sleep
  extract_lets s0_ x1_ x2_ s3_
  have h_s0_ : Onward s₀ s0_ := by
    dsimp (zeta := false) only [s0_]
    repeat' (first
      | with_reducible assumption
      | (with_reducible apply State.gateAll_onward)
      | (with_reducible apply State.event_onward)
      | with_reducible apply Onward.foldl
      | refine Onward.of_snd (by assumption) ?_
      | split
      | (with_reducible refine Onward.mk_same rfl ?_
         first
         | with_reducible assumption
         | (with_reducible apply State.gateAll_onward)
         | (with_reducible apply State.event_onward)
         | refine Onward.of_snd (by assumption) ?_)
      | intro _
      | extract_lets
      | dsimp (zeta := false) only
      | dsimp +zetaDelta only)
  try clear_value s0_
  have h_s3_ : Onward s₀ s3_ := by
    dsimp (zeta := false) only [s3_]
    repeat' (first
      | with_reducible assumption
      | (with_reducible apply State.gateAll_onward)
      | (with_reducible apply State.event_onward)
      | with_reducible apply Onward.foldl
      | refine Onward.of_snd (by assumption) ?_
      | split
      | (with_reducible refine Onward.mk_same rfl ?_
         first
         | with_reducible assumption
         | (with_reducible apply State.gateAll_onward)
         | (with_reducible apply State.event_onward)
         | refine Onward.of_snd (by assumption) ?_)
      | intro _
      | extract_lets
      | dsimp (zeta := false) only
      | dsimp +zetaDelta only)
  try clear_value s3_
  repeat' (first
    | with_reducible assumption
    | (with_reducible apply State.gateAll_onward)
    | (with_reducible apply State.event_onward)
    | with_reducible apply Onward.foldl
    | refine Onward.of_snd (by assumption) ?_
    | split
    | (with_reducible refine Onward.mk_same rfl ?_
       first
       | with_reducible assumption
       | (with_reducible apply State.gateAll_onward)
       | (with_reducible apply State.event_onward)
       | refine Onward.of_snd (by assumption) ?_)
    | intro _
    | extract_lets
    | dsimp (zeta := false) only
    | dsimp +zetaDelta only)

theorem execSleepEntry_onward {d : Bool} {s : State} {t : State} (ho : execSleepEntry d s = .next t) : Onward s t :=
    by
  unfold execSleepEntry at ho
  injection ho with ho
  subst ho
  have h : Onward s { s with pwr := { s.pwr with d3hot := d } } := Onward.mk_same rfl (Onward.refl s)
  dsimp only
  split
  · exact State.sleep_onward h
  · exact h

theorem execWake_onward {s : State} {t : State} (ho : execWake s = .next t) : Onward s t := by
  unfold execWake at ho
  injection ho with ho
  subst ho
  have ho := Onward.refl s
  refine Onward.mk_same rfl ?_
  repeat' (first | with_reducible assumption | with_reducible apply State.wakeUp_onward)

theorem State.pfailFlush_onward {s₀ : State} {s : State} (ho : Onward s₀ s) : Onward s₀ (State.pfailFlush s) := by
  unfold State.pfailFlush
  extract_lets x0_ s1_ s2_ x3_
  have h_s1_ : Onward s₀ s1_ := by
    dsimp (zeta := false) only [s1_]
    repeat' (first
      | with_reducible assumption
      | (with_reducible apply State.endSuppressions_onward)
      | (with_reducible apply State.event_onward)
      | (with_reducible apply State.commitAll_onward)
      | with_reducible apply Onward.foldl
      | refine Onward.of_snd (by assumption) ?_
      | split
      | (with_reducible refine Onward.mk_same rfl ?_
         first
         | with_reducible assumption
         | (with_reducible apply State.endSuppressions_onward)
         | (with_reducible apply State.event_onward)
         | (with_reducible apply State.commitAll_onward)
         | refine Onward.of_snd (by assumption) ?_)
      | intro _
      | extract_lets
      | dsimp (zeta := false) only
      | dsimp +zetaDelta only)
  try clear_value s1_
  have h_s2_ : Onward s₀ s2_ := by
    dsimp (zeta := false) only [s2_]
    repeat' (first
      | with_reducible assumption
      | (with_reducible apply State.endSuppressions_onward)
      | (with_reducible apply State.event_onward)
      | (with_reducible apply State.commitAll_onward)
      | with_reducible apply Onward.foldl
      | refine Onward.of_snd (by assumption) ?_
      | split
      | (with_reducible refine Onward.mk_same rfl ?_
         first
         | with_reducible assumption
         | (with_reducible apply State.endSuppressions_onward)
         | (with_reducible apply State.event_onward)
         | (with_reducible apply State.commitAll_onward)
         | refine Onward.of_snd (by assumption) ?_)
      | intro _
      | extract_lets
      | dsimp (zeta := false) only
      | dsimp +zetaDelta only)
  try clear_value s2_
  repeat' (first
    | with_reducible assumption
    | (with_reducible apply State.endSuppressions_onward)
    | (with_reducible apply State.event_onward)
    | (with_reducible apply State.commitAll_onward)
    | with_reducible apply Onward.foldl
    | refine Onward.of_snd (by assumption) ?_
    | split
    | (with_reducible refine Onward.mk_same rfl ?_
       first
       | with_reducible assumption
       | (with_reducible apply State.endSuppressions_onward)
       | (with_reducible apply State.event_onward)
       | (with_reducible apply State.commitAll_onward)
       | refine Onward.of_snd (by assumption) ?_)
    | intro _
    | extract_lets
    | dsimp (zeta := false) only
    | dsimp +zetaDelta only)

theorem State.pfailFalls_onward {s₀ : State} {s : State} (ho : Onward s₀ s) : Onward s₀ (State.pfailFalls s) := by
  unfold State.pfailFalls
  extract_lets x0_ s1_ s2_ s3_
  have h_s1_ : Onward s₀ s1_ := by
    dsimp (zeta := false) only [s1_]
    repeat' (first
      | with_reducible assumption
      | (with_reducible apply State.wakeUp_onward)
      | (with_reducible apply State.writeAnchor_onward)
      | (with_reducible apply State.event_onward)
      | (with_reducible apply State.refuseTransition_onward)
      | (with_reducible apply State.pfailFlush_onward)
      | (with_reducible apply State.storeStops_onward)
      | with_reducible apply Onward.foldl
      | refine Onward.of_snd (by assumption) ?_
      | split
      | (with_reducible refine Onward.mk_same rfl ?_
         first
         | with_reducible assumption
         | (with_reducible apply State.wakeUp_onward)
         | (with_reducible apply State.writeAnchor_onward)
         | (with_reducible apply State.event_onward)
         | (with_reducible apply State.refuseTransition_onward)
         | (with_reducible apply State.pfailFlush_onward)
         | (with_reducible apply State.storeStops_onward)
         | refine Onward.of_snd (by assumption) ?_)
      | intro _
      | extract_lets
      | dsimp (zeta := false) only
      | dsimp +zetaDelta only)
  try clear_value s1_
  have h_s2_ : Onward s₀ s2_ := by
    dsimp (zeta := false) only [s2_]
    repeat' (first
      | with_reducible assumption
      | (with_reducible apply State.wakeUp_onward)
      | (with_reducible apply State.writeAnchor_onward)
      | (with_reducible apply State.event_onward)
      | (with_reducible apply State.refuseTransition_onward)
      | (with_reducible apply State.pfailFlush_onward)
      | (with_reducible apply State.storeStops_onward)
      | with_reducible apply Onward.foldl
      | refine Onward.of_snd (by assumption) ?_
      | split
      | (with_reducible refine Onward.mk_same rfl ?_
         first
         | with_reducible assumption
         | (with_reducible apply State.wakeUp_onward)
         | (with_reducible apply State.writeAnchor_onward)
         | (with_reducible apply State.event_onward)
         | (with_reducible apply State.refuseTransition_onward)
         | (with_reducible apply State.pfailFlush_onward)
         | (with_reducible apply State.storeStops_onward)
         | refine Onward.of_snd (by assumption) ?_)
      | intro _
      | extract_lets
      | dsimp (zeta := false) only
      | dsimp +zetaDelta only)
  try clear_value s2_
  have h_s3_ : Onward s₀ s3_ := by
    dsimp (zeta := false) only [s3_]
    repeat' (first
      | with_reducible assumption
      | (with_reducible apply State.wakeUp_onward)
      | (with_reducible apply State.writeAnchor_onward)
      | (with_reducible apply State.event_onward)
      | (with_reducible apply State.refuseTransition_onward)
      | (with_reducible apply State.pfailFlush_onward)
      | (with_reducible apply State.storeStops_onward)
      | with_reducible apply Onward.foldl
      | refine Onward.of_snd (by assumption) ?_
      | split
      | (with_reducible refine Onward.mk_same rfl ?_
         first
         | with_reducible assumption
         | (with_reducible apply State.wakeUp_onward)
         | (with_reducible apply State.writeAnchor_onward)
         | (with_reducible apply State.event_onward)
         | (with_reducible apply State.refuseTransition_onward)
         | (with_reducible apply State.pfailFlush_onward)
         | (with_reducible apply State.storeStops_onward)
         | refine Onward.of_snd (by assumption) ?_)
      | intro _
      | extract_lets
      | dsimp (zeta := false) only
      | dsimp +zetaDelta only)
  try clear_value s3_
  repeat' (first
    | with_reducible assumption
    | (with_reducible apply State.wakeUp_onward)
    | (with_reducible apply State.writeAnchor_onward)
    | (with_reducible apply State.event_onward)
    | (with_reducible apply State.refuseTransition_onward)
    | (with_reducible apply State.pfailFlush_onward)
    | (with_reducible apply State.storeStops_onward)
    | with_reducible apply Onward.foldl
    | refine Onward.of_snd (by assumption) ?_
    | split
    | (with_reducible refine Onward.mk_same rfl ?_
       first
       | with_reducible assumption
       | (with_reducible apply State.wakeUp_onward)
       | (with_reducible apply State.writeAnchor_onward)
       | (with_reducible apply State.event_onward)
       | (with_reducible apply State.refuseTransition_onward)
       | (with_reducible apply State.pfailFlush_onward)
       | (with_reducible apply State.storeStops_onward)
       | refine Onward.of_snd (by assumption) ?_)
    | intro _
    | extract_lets
    | dsimp (zeta := false) only
    | dsimp +zetaDelta only)

theorem execPfailFall_onward (width : Nat) (taken : Bool) {s : State} {t : State} (ho : execPfailFall width taken s
    = .next t) : Onward s t := by
  unfold execPfailFall at ho
  injection ho with ho
  subst ho
  have ho := Onward.refl s
  repeat' (first | with_reducible assumption | with_reducible apply State.pfailFalls_onward | split)

theorem State.pfailRises_onward {s₀ : State} {s : State} (ho : Onward s₀ s) : Onward s₀ (State.pfailRises s) := by
  unfold State.pfailRises
  extract_lets x0_ x1_ s2_
  have h_s2_ : Onward s₀ s2_ := by
    dsimp (zeta := false) only [s2_]
    repeat' (first
      | with_reducible assumption
      | (with_reducible apply State.releaseCommits_onward)
      | (with_reducible apply State.event_onward)
      | with_reducible apply Onward.foldl
      | refine Onward.of_snd (by assumption) ?_
      | split
      | (with_reducible refine Onward.mk_same rfl ?_
         first
         | with_reducible assumption
         | (with_reducible apply State.releaseCommits_onward)
         | (with_reducible apply State.event_onward)
         | refine Onward.of_snd (by assumption) ?_)
      | intro _
      | extract_lets
      | dsimp (zeta := false) only
      | dsimp +zetaDelta only)
  try clear_value s2_
  repeat' (first
    | with_reducible assumption
    | (with_reducible apply State.releaseCommits_onward)
    | (with_reducible apply State.event_onward)
    | with_reducible apply Onward.foldl
    | refine Onward.of_snd (by assumption) ?_
    | split
    | (with_reducible refine Onward.mk_same rfl ?_
       first
       | with_reducible assumption
       | (with_reducible apply State.releaseCommits_onward)
       | (with_reducible apply State.event_onward)
       | refine Onward.of_snd (by assumption) ?_)
    | intro _
    | extract_lets
    | dsimp (zeta := false) only
    | dsimp +zetaDelta only)

theorem execPfailRise_onward {s : State} {t : State} (ho : execPfailRise s = .next t) : Onward s t := by
  unfold execPfailRise at ho
  injection ho with ho
  subst ho
  have ho := Onward.refl s
  repeat' (first | with_reducible assumption | with_reducible apply State.pfailRises_onward | split)

theorem execMainPowerLoss_onward (torn : Nat) {s : State} {t : State} (ho : execMainPowerLoss torn s = .next t) :
    Onward s t := by
  unfold execMainPowerLoss at ho
  injection ho with ho
  subst ho
  have ho := Onward.refl s
  repeat' (first | with_reducible assumption | with_reducible apply State.losePower_onward | split)

theorem execAonChangeover_onward (vbat : Bool) {s : State} {t : State} (ho : execAonChangeover vbat s = .next t) :
    Onward s t := by
  unfold execAonChangeover at ho
  injection ho with ho
  subst ho
  have ho := Onward.refl s
  repeat' (first | with_reducible assumption | split | with_reducible refine Onward.mk_same rfl ?_)

theorem execAonDomainLost_onward {s t : State} (h : execAonDomainLost s = .next t) : Onward s t := by
  unfold execAonDomainLost at h
  injection h with h
  subst h
  exact (Onward.refl s).upd (counter := fun _ => Nat.two_pow_pos _)

theorem State.smbReply_onward {s₀ : State} {s : State} (code : Nat) (block : Bool) (b : Bytes) (ho : Onward s₀ s) :
    Onward s₀ (State.smbReply s code block b) := by
  unfold State.smbReply
  repeat' (first | with_reducible assumption | with_reducible apply State.emit_onward | split)

theorem execSmbId_onward {s : State} {t : State} (ho : execSmbId s = .next t) : Onward s t := by
  unfold execSmbId at ho
  injection ho with ho
  subst ho
  have ho := Onward.refl s
  repeat' (first | with_reducible assumption | with_reducible apply State.smbReply_onward)

theorem execSmbTemp_onward (celsius : Int) {s : State} {t : State} (ho : execSmbTemp celsius s = .next t) : Onward s
    t := by
  unfold execSmbTemp at ho
  injection ho with ho
  subst ho
  have ho := Onward.refl s
  repeat' (first
      | with_reducible assumption | with_reducible apply State.smbReply_onward
      | with_reducible refine Onward.mk_same rfl ?_)

theorem execSmbLcs_onward {s : State} {t : State} (ho : execSmbLcs s = .next t) : Onward s t := by
  unfold execSmbLcs at ho
  injection ho with ho
  subst ho
  have ho := Onward.refl s
  repeat' (first | with_reducible assumption | with_reducible apply State.smbReply_onward)

theorem execSmbAlarm_onward {s : State} {t : State} (ho : execSmbAlarm s = .next t) : Onward s t := by
  unfold execSmbAlarm at ho
  injection ho with ho
  subst ho
  have ho := Onward.refl s
  repeat' (first | with_reducible assumption | with_reducible apply State.smbReply_onward)

theorem execSmbStatus_onward {s : State} {t : State} (ho : execSmbStatus s = .next t) : Onward s t := by
  unfold execSmbStatus at ho
  injection ho with ho
  subst ho
  have ho := Onward.refl s
  repeat' (first | with_reducible assumption | with_reducible apply State.smbReply_onward)

theorem execSmbusWrite_onward {s : State} {t : State} (ho : execSmbusWrite s = .next t) : Onward s t := by
  unfold execSmbusWrite at ho
  injection ho with ho
  subst ho
  have ho := Onward.refl s
  repeat' (first | with_reducible assumption | with_reducible apply State.emit_onward | split)

theorem execSmbusTimeout_onward {s : State} {t : State} (ho : execSmbusTimeout s = .next t) : Onward s t := by
  unfold execSmbusTimeout at ho
  injection ho with ho
  subst ho
  have ho := Onward.refl s
  repeat' (first | with_reducible assumption | with_reducible apply State.emit_onward | split)

theorem State.loadIr_onward {s₀ : State} {s : State} (code : Nat) (ho : Onward s₀ s) : Onward s₀ (State.loadIr s
    code) := by
  unfold State.loadIr
  repeat' (first | with_reducible assumption | with_reducible refine Onward.mk_same rfl ?_)

theorem execExtest_onward (pins : Bytes) {s : State} {t : State} (ho : execExtest pins s = .next t) : Onward s t := by
  unfold execExtest at ho
  injection ho with ho
  subst ho
  have ho := Onward.refl s
  extract_lets s0_ x1_
  have h_s0_ : Onward s s0_ := by
    dsimp (zeta := false) only [s0_]
    repeat' (first | with_reducible assumption | with_reducible apply State.loadIr_onward)
  try clear_value s0_
  repeat' (first
      | with_reducible assumption | with_reducible apply State.loadIr_onward
      | with_reducible apply State.emit_onward | split | with_reducible refine Onward.mk_same rfl ?_)

theorem execIdcode_onward {s : State} {t : State} (ho : execIdcode s = .next t) : Onward s t := by
  unfold execIdcode at ho
  injection ho with ho
  subst ho
  have ho := Onward.refl s
  repeat' (first
      | with_reducible assumption | with_reducible apply State.emit_onward
      | with_reducible apply State.loadIr_onward)

theorem execSamplePreload_onward (pins : Bytes) (data : Bytes) {s : State} {t : State} (ho : execSamplePreload pins
    data s = .next t) : Onward s t := by
  unfold execSamplePreload at ho
  injection ho with ho
  subst ho
  have ho := Onward.refl s
  extract_lets s0_ x1_
  have h_s0_ : Onward s s0_ := by
    dsimp (zeta := false) only [s0_]
    repeat' (first | with_reducible assumption | with_reducible apply State.loadIr_onward)
  try clear_value s0_
  repeat' (first
      | with_reducible assumption | with_reducible apply State.emit_onward
      | with_reducible refine Onward.mk_same rfl ?_)

theorem execClamp_onward {s : State} {t : State} (ho : execClamp s = .next t) : Onward s t := by
  unfold execClamp at ho
  injection ho with ho
  subst ho
  have ho := Onward.refl s
  extract_lets s0_ x1_
  have h_s0_ : Onward s s0_ := by
    dsimp (zeta := false) only [s0_]
    repeat' (first | with_reducible assumption | with_reducible apply State.loadIr_onward)
  try clear_value s0_
  repeat' (first
      | with_reducible assumption | with_reducible apply State.loadIr_onward | split
      | with_reducible refine Onward.mk_same rfl ?_)

theorem execHighz_onward {s : State} {t : State} (ho : execHighz s = .next t) : Onward s t := by
  unfold execHighz at ho
  injection ho with ho
  subst ho
  have ho := Onward.refl s
  extract_lets s0_ x1_
  have h_s0_ : Onward s s0_ := by
    dsimp (zeta := false) only [s0_]
    repeat' (first | with_reducible assumption | with_reducible apply State.loadIr_onward)
  try clear_value s0_
  repeat' (first
      | with_reducible assumption | with_reducible apply State.loadIr_onward | split
      | with_reducible refine Onward.mk_same rfl ?_)

theorem execBypass_onward (code : Nat) {s : State} {t : State} (ho : execBypass code s = .next t) : Onward s t := by
  unfold execBypass at ho
  injection ho with ho
  subst ho
  have ho := Onward.refl s
  repeat' (first | with_reducible assumption | with_reducible apply State.loadIr_onward)

end Sys2Proof.Machine
end

