-- ==== Sys2Proof/Laws/State.lean ====
section
/-! SUPPORT. What each update of the state leaves as it was, one lemma per component and update, and what it makes of the
component it changes. -/

namespace Sys2Proof.Machine

-- In order, so that a build of the package as one text needs few threads.
set_option Elab.async false

variable (s : State)

/-! Slice `n` changes: every other component stays -/

@[simp] theorem State.onSlice_regs (n : Nat) (f : Slice → Slice) : (s.onSlice n f).regs = s.regs := rfl
@[simp] theorem State.onSlice_loHeld (n : Nat) (f : Slice → Slice) : (s.onSlice n f).loHeld = s.loHeld := rfl
@[simp] theorem State.onSlice_loCap (n : Nat) (f : Slice → Slice) : (s.onSlice n f).loCap = s.loCap := rfl
@[simp] theorem State.onSlice_held (n : Nat) (f : Slice → Slice) : (s.onSlice n f).held = s.held := rfl
@[simp] theorem State.onSlice_accepted (n : Nat) (f : Slice → Slice) : (s.onSlice n f).accepted = s.accepted := rfl
@[simp] theorem State.onSlice_sch (n : Nat) (f : Slice → Slice) : (s.onSlice n f).sch = s.sch := rfl
@[simp] theorem State.onSlice_kmg (n : Nat) (f : Slice → Slice) : (s.onSlice n f).kmg = s.kmg := rfl
@[simp] theorem State.onSlice_engines (n : Nat) (f : Slice → Slice) : (s.onSlice n f).engines = s.engines := rfl
@[simp] theorem State.onSlice_vces (n : Nat) (f : Slice → Slice) : (s.onSlice n f).vces = s.vces := rfl
@[simp] theorem State.onSlice_cmc (n : Nat) (f : Slice → Slice) : (s.onSlice n f).cmc = s.cmc := rfl
@[simp] theorem State.onSlice_rng (n : Nat) (f : Slice → Slice) : (s.onSlice n f).rng = s.rng := rfl
@[simp] theorem State.onSlice_code (n : Nat) (f : Slice → Slice) : (s.onSlice n f).code = s.code := rfl
@[simp] theorem State.onSlice_mp (n : Nat) (f : Slice → Slice) : (s.onSlice n f).mp = s.mp := rfl
@[simp] theorem State.onSlice_evr (n : Nat) (f : Slice → Slice) : (s.onSlice n f).evr = s.evr := rfl
@[simp] theorem State.onSlice_tmp (n : Nat) (f : Slice → Slice) : (s.onSlice n f).tmp = s.tmp := rfl
@[simp] theorem State.onSlice_aon (n : Nat) (f : Slice → Slice) : (s.onSlice n f).aon = s.aon := rfl
@[simp] theorem State.onSlice_lcs (n : Nat) (f : Slice → Slice) : (s.onSlice n f).lcs = s.lcs := rfl
@[simp] theorem State.onSlice_dbg (n : Nat) (f : Slice → Slice) : (s.onSlice n f).dbg = s.dbg := rfl
@[simp] theorem State.onSlice_pwr (n : Nat) (f : Slice → Slice) : (s.onSlice n f).pwr = s.pwr := rfl
@[simp] theorem State.onSlice_tim (n : Nat) (f : Slice → Slice) : (s.onSlice n f).tim = s.tim := rfl
@[simp] theorem State.onSlice_nvm (n : Nat) (f : Slice → Slice) : (s.onSlice n f).nvm = s.nvm := rfl
@[simp] theorem State.onSlice_hif (n : Nat) (f : Slice → Slice) : (s.onSlice n f).hif = s.hif := rfl
@[simp] theorem State.onSlice_jtag (n : Nat) (f : Slice → Slice) : (s.onSlice n f).jtag = s.jtag := rfl
@[simp] theorem State.onSlice_smb (n : Nat) (f : Slice → Slice) : (s.onSlice n f).smb = s.smb := rfl
@[simp] theorem State.onSlice_pins (n : Nat) (f : Slice → Slice) : (s.onSlice n f).pins = s.pins := rfl
@[simp] theorem State.onSlice_fuses (n : Nat) (f : Slice → Slice) : (s.onSlice n f).fuses = s.fuses := rfl
@[simp] theorem State.onSlice_freeCtr (n : Nat) (f : Slice → Slice) : (s.onSlice n f).freeCtr = s.freeCtr := rfl
@[simp] theorem State.onSlice_out (n : Nat) (f : Slice → Slice) : (s.onSlice n f).out = s.out := rfl
@[simp] theorem State.onSlice_pending (n : Nat) (f : Slice → Slice) : (s.onSlice n f).pending = s.pending := rfl

/-! An SQ changes: every other component stays -/

@[simp] theorem State.onSq_regs (n q : Nat) (f : Sq → Sq) : (s.onSq n q f).regs = s.regs := rfl
@[simp] theorem State.onSq_loHeld (n q : Nat) (f : Sq → Sq) : (s.onSq n q f).loHeld = s.loHeld := rfl
@[simp] theorem State.onSq_loCap (n q : Nat) (f : Sq → Sq) : (s.onSq n q f).loCap = s.loCap := rfl
@[simp] theorem State.onSq_held (n q : Nat) (f : Sq → Sq) : (s.onSq n q f).held = s.held := rfl
@[simp] theorem State.onSq_accepted (n q : Nat) (f : Sq → Sq) : (s.onSq n q f).accepted = s.accepted := rfl
@[simp] theorem State.onSq_sch (n q : Nat) (f : Sq → Sq) : (s.onSq n q f).sch = s.sch := rfl
@[simp] theorem State.onSq_kmg (n q : Nat) (f : Sq → Sq) : (s.onSq n q f).kmg = s.kmg := rfl
@[simp] theorem State.onSq_engines (n q : Nat) (f : Sq → Sq) : (s.onSq n q f).engines = s.engines := rfl
@[simp] theorem State.onSq_vces (n q : Nat) (f : Sq → Sq) : (s.onSq n q f).vces = s.vces := rfl
@[simp] theorem State.onSq_cmc (n q : Nat) (f : Sq → Sq) : (s.onSq n q f).cmc = s.cmc := rfl
@[simp] theorem State.onSq_rng (n q : Nat) (f : Sq → Sq) : (s.onSq n q f).rng = s.rng := rfl
@[simp] theorem State.onSq_code (n q : Nat) (f : Sq → Sq) : (s.onSq n q f).code = s.code := rfl
@[simp] theorem State.onSq_mp (n q : Nat) (f : Sq → Sq) : (s.onSq n q f).mp = s.mp := rfl
@[simp] theorem State.onSq_evr (n q : Nat) (f : Sq → Sq) : (s.onSq n q f).evr = s.evr := rfl
@[simp] theorem State.onSq_tmp (n q : Nat) (f : Sq → Sq) : (s.onSq n q f).tmp = s.tmp := rfl
@[simp] theorem State.onSq_aon (n q : Nat) (f : Sq → Sq) : (s.onSq n q f).aon = s.aon := rfl
@[simp] theorem State.onSq_lcs (n q : Nat) (f : Sq → Sq) : (s.onSq n q f).lcs = s.lcs := rfl
@[simp] theorem State.onSq_dbg (n q : Nat) (f : Sq → Sq) : (s.onSq n q f).dbg = s.dbg := rfl
@[simp] theorem State.onSq_pwr (n q : Nat) (f : Sq → Sq) : (s.onSq n q f).pwr = s.pwr := rfl
@[simp] theorem State.onSq_tim (n q : Nat) (f : Sq → Sq) : (s.onSq n q f).tim = s.tim := rfl
@[simp] theorem State.onSq_nvm (n q : Nat) (f : Sq → Sq) : (s.onSq n q f).nvm = s.nvm := rfl
@[simp] theorem State.onSq_hif (n q : Nat) (f : Sq → Sq) : (s.onSq n q f).hif = s.hif := rfl
@[simp] theorem State.onSq_jtag (n q : Nat) (f : Sq → Sq) : (s.onSq n q f).jtag = s.jtag := rfl
@[simp] theorem State.onSq_smb (n q : Nat) (f : Sq → Sq) : (s.onSq n q f).smb = s.smb := rfl
@[simp] theorem State.onSq_pins (n q : Nat) (f : Sq → Sq) : (s.onSq n q f).pins = s.pins := rfl
@[simp] theorem State.onSq_fuses (n q : Nat) (f : Sq → Sq) : (s.onSq n q f).fuses = s.fuses := rfl
@[simp] theorem State.onSq_freeCtr (n q : Nat) (f : Sq → Sq) : (s.onSq n q f).freeCtr = s.freeCtr := rfl
@[simp] theorem State.onSq_out (n q : Nat) (f : Sq → Sq) : (s.onSq n q f).out = s.out := rfl
@[simp] theorem State.onSq_pending (n q : Nat) (f : Sq → Sq) : (s.onSq n q f).pending = s.pending := rfl

/-! A CQ changes: every other component stays -/

@[simp] theorem State.onCq_regs (n q : Nat) (f : Cq → Cq) : (s.onCq n q f).regs = s.regs := rfl
@[simp] theorem State.onCq_loHeld (n q : Nat) (f : Cq → Cq) : (s.onCq n q f).loHeld = s.loHeld := rfl
@[simp] theorem State.onCq_loCap (n q : Nat) (f : Cq → Cq) : (s.onCq n q f).loCap = s.loCap := rfl
@[simp] theorem State.onCq_held (n q : Nat) (f : Cq → Cq) : (s.onCq n q f).held = s.held := rfl
@[simp] theorem State.onCq_accepted (n q : Nat) (f : Cq → Cq) : (s.onCq n q f).accepted = s.accepted := rfl
@[simp] theorem State.onCq_sch (n q : Nat) (f : Cq → Cq) : (s.onCq n q f).sch = s.sch := rfl
@[simp] theorem State.onCq_kmg (n q : Nat) (f : Cq → Cq) : (s.onCq n q f).kmg = s.kmg := rfl
@[simp] theorem State.onCq_engines (n q : Nat) (f : Cq → Cq) : (s.onCq n q f).engines = s.engines := rfl
@[simp] theorem State.onCq_vces (n q : Nat) (f : Cq → Cq) : (s.onCq n q f).vces = s.vces := rfl
@[simp] theorem State.onCq_cmc (n q : Nat) (f : Cq → Cq) : (s.onCq n q f).cmc = s.cmc := rfl
@[simp] theorem State.onCq_rng (n q : Nat) (f : Cq → Cq) : (s.onCq n q f).rng = s.rng := rfl
@[simp] theorem State.onCq_code (n q : Nat) (f : Cq → Cq) : (s.onCq n q f).code = s.code := rfl
@[simp] theorem State.onCq_mp (n q : Nat) (f : Cq → Cq) : (s.onCq n q f).mp = s.mp := rfl
@[simp] theorem State.onCq_evr (n q : Nat) (f : Cq → Cq) : (s.onCq n q f).evr = s.evr := rfl
@[simp] theorem State.onCq_tmp (n q : Nat) (f : Cq → Cq) : (s.onCq n q f).tmp = s.tmp := rfl
@[simp] theorem State.onCq_aon (n q : Nat) (f : Cq → Cq) : (s.onCq n q f).aon = s.aon := rfl
@[simp] theorem State.onCq_lcs (n q : Nat) (f : Cq → Cq) : (s.onCq n q f).lcs = s.lcs := rfl
@[simp] theorem State.onCq_dbg (n q : Nat) (f : Cq → Cq) : (s.onCq n q f).dbg = s.dbg := rfl
@[simp] theorem State.onCq_pwr (n q : Nat) (f : Cq → Cq) : (s.onCq n q f).pwr = s.pwr := rfl
@[simp] theorem State.onCq_tim (n q : Nat) (f : Cq → Cq) : (s.onCq n q f).tim = s.tim := rfl
@[simp] theorem State.onCq_nvm (n q : Nat) (f : Cq → Cq) : (s.onCq n q f).nvm = s.nvm := rfl
@[simp] theorem State.onCq_hif (n q : Nat) (f : Cq → Cq) : (s.onCq n q f).hif = s.hif := rfl
@[simp] theorem State.onCq_jtag (n q : Nat) (f : Cq → Cq) : (s.onCq n q f).jtag = s.jtag := rfl
@[simp] theorem State.onCq_smb (n q : Nat) (f : Cq → Cq) : (s.onCq n q f).smb = s.smb := rfl
@[simp] theorem State.onCq_pins (n q : Nat) (f : Cq → Cq) : (s.onCq n q f).pins = s.pins := rfl
@[simp] theorem State.onCq_fuses (n q : Nat) (f : Cq → Cq) : (s.onCq n q f).fuses = s.fuses := rfl
@[simp] theorem State.onCq_freeCtr (n q : Nat) (f : Cq → Cq) : (s.onCq n q f).freeCtr = s.freeCtr := rfl
@[simp] theorem State.onCq_out (n q : Nat) (f : Cq → Cq) : (s.onCq n q f).out = s.out := rfl
@[simp] theorem State.onCq_pending (n q : Nat) (f : Cq → Cq) : (s.onCq n q f).pending = s.pending := rfl

/-! An engine changes: every other component stays -/

@[simp] theorem State.onEngine_regs (e : Nat) (f : Engine → Engine) : (s.onEngine e f).regs = s.regs := rfl
@[simp] theorem State.onEngine_loHeld (e : Nat) (f : Engine → Engine) : (s.onEngine e f).loHeld = s.loHeld := rfl
@[simp] theorem State.onEngine_loCap (e : Nat) (f : Engine → Engine) : (s.onEngine e f).loCap = s.loCap := rfl
@[simp] theorem State.onEngine_held (e : Nat) (f : Engine → Engine) : (s.onEngine e f).held = s.held := rfl
@[simp] theorem State.onEngine_accepted (e : Nat) (f : Engine → Engine) : (s.onEngine e f).accepted = s.accepted := rfl
@[simp] theorem State.onEngine_slices (e : Nat) (f : Engine → Engine) : (s.onEngine e f).slices = s.slices := rfl
@[simp] theorem State.onEngine_sch (e : Nat) (f : Engine → Engine) : (s.onEngine e f).sch = s.sch := rfl
@[simp] theorem State.onEngine_kmg (e : Nat) (f : Engine → Engine) : (s.onEngine e f).kmg = s.kmg := rfl
@[simp] theorem State.onEngine_vces (e : Nat) (f : Engine → Engine) : (s.onEngine e f).vces = s.vces := rfl
@[simp] theorem State.onEngine_cmc (e : Nat) (f : Engine → Engine) : (s.onEngine e f).cmc = s.cmc := rfl
@[simp] theorem State.onEngine_rng (e : Nat) (f : Engine → Engine) : (s.onEngine e f).rng = s.rng := rfl
@[simp] theorem State.onEngine_code (e : Nat) (f : Engine → Engine) : (s.onEngine e f).code = s.code := rfl
@[simp] theorem State.onEngine_mp (e : Nat) (f : Engine → Engine) : (s.onEngine e f).mp = s.mp := rfl
@[simp] theorem State.onEngine_evr (e : Nat) (f : Engine → Engine) : (s.onEngine e f).evr = s.evr := rfl
@[simp] theorem State.onEngine_tmp (e : Nat) (f : Engine → Engine) : (s.onEngine e f).tmp = s.tmp := rfl
@[simp] theorem State.onEngine_aon (e : Nat) (f : Engine → Engine) : (s.onEngine e f).aon = s.aon := rfl
@[simp] theorem State.onEngine_lcs (e : Nat) (f : Engine → Engine) : (s.onEngine e f).lcs = s.lcs := rfl
@[simp] theorem State.onEngine_dbg (e : Nat) (f : Engine → Engine) : (s.onEngine e f).dbg = s.dbg := rfl
@[simp] theorem State.onEngine_pwr (e : Nat) (f : Engine → Engine) : (s.onEngine e f).pwr = s.pwr := rfl
@[simp] theorem State.onEngine_tim (e : Nat) (f : Engine → Engine) : (s.onEngine e f).tim = s.tim := rfl
@[simp] theorem State.onEngine_nvm (e : Nat) (f : Engine → Engine) : (s.onEngine e f).nvm = s.nvm := rfl
@[simp] theorem State.onEngine_hif (e : Nat) (f : Engine → Engine) : (s.onEngine e f).hif = s.hif := rfl
@[simp] theorem State.onEngine_jtag (e : Nat) (f : Engine → Engine) : (s.onEngine e f).jtag = s.jtag := rfl
@[simp] theorem State.onEngine_smb (e : Nat) (f : Engine → Engine) : (s.onEngine e f).smb = s.smb := rfl
@[simp] theorem State.onEngine_pins (e : Nat) (f : Engine → Engine) : (s.onEngine e f).pins = s.pins := rfl
@[simp] theorem State.onEngine_fuses (e : Nat) (f : Engine → Engine) : (s.onEngine e f).fuses = s.fuses := rfl
@[simp] theorem State.onEngine_freeCtr (e : Nat) (f : Engine → Engine) : (s.onEngine e f).freeCtr = s.freeCtr := rfl
@[simp] theorem State.onEngine_out (e : Nat) (f : Engine → Engine) : (s.onEngine e f).out = s.out := rfl
@[simp] theorem State.onEngine_pending (e : Nat) (f : Engine → Engine) : (s.onEngine e f).pending = s.pending := rfl

/-! The inside of a VCE changes: every other component stays -/

@[simp] theorem State.onVce_regs (e : Nat) (f : Vce → Vce) : (s.onVce e f).regs = s.regs := rfl
@[simp] theorem State.onVce_loHeld (e : Nat) (f : Vce → Vce) : (s.onVce e f).loHeld = s.loHeld := rfl
@[simp] theorem State.onVce_loCap (e : Nat) (f : Vce → Vce) : (s.onVce e f).loCap = s.loCap := rfl
@[simp] theorem State.onVce_held (e : Nat) (f : Vce → Vce) : (s.onVce e f).held = s.held := rfl
@[simp] theorem State.onVce_accepted (e : Nat) (f : Vce → Vce) : (s.onVce e f).accepted = s.accepted := rfl
@[simp] theorem State.onVce_slices (e : Nat) (f : Vce → Vce) : (s.onVce e f).slices = s.slices := rfl
@[simp] theorem State.onVce_sch (e : Nat) (f : Vce → Vce) : (s.onVce e f).sch = s.sch := rfl
@[simp] theorem State.onVce_kmg (e : Nat) (f : Vce → Vce) : (s.onVce e f).kmg = s.kmg := rfl
@[simp] theorem State.onVce_engines (e : Nat) (f : Vce → Vce) : (s.onVce e f).engines = s.engines := rfl
@[simp] theorem State.onVce_cmc (e : Nat) (f : Vce → Vce) : (s.onVce e f).cmc = s.cmc := rfl
@[simp] theorem State.onVce_rng (e : Nat) (f : Vce → Vce) : (s.onVce e f).rng = s.rng := rfl
@[simp] theorem State.onVce_code (e : Nat) (f : Vce → Vce) : (s.onVce e f).code = s.code := rfl
@[simp] theorem State.onVce_mp (e : Nat) (f : Vce → Vce) : (s.onVce e f).mp = s.mp := rfl
@[simp] theorem State.onVce_evr (e : Nat) (f : Vce → Vce) : (s.onVce e f).evr = s.evr := rfl
@[simp] theorem State.onVce_tmp (e : Nat) (f : Vce → Vce) : (s.onVce e f).tmp = s.tmp := rfl
@[simp] theorem State.onVce_aon (e : Nat) (f : Vce → Vce) : (s.onVce e f).aon = s.aon := rfl
@[simp] theorem State.onVce_lcs (e : Nat) (f : Vce → Vce) : (s.onVce e f).lcs = s.lcs := rfl
@[simp] theorem State.onVce_dbg (e : Nat) (f : Vce → Vce) : (s.onVce e f).dbg = s.dbg := rfl
@[simp] theorem State.onVce_pwr (e : Nat) (f : Vce → Vce) : (s.onVce e f).pwr = s.pwr := rfl
@[simp] theorem State.onVce_tim (e : Nat) (f : Vce → Vce) : (s.onVce e f).tim = s.tim := rfl
@[simp] theorem State.onVce_nvm (e : Nat) (f : Vce → Vce) : (s.onVce e f).nvm = s.nvm := rfl
@[simp] theorem State.onVce_hif (e : Nat) (f : Vce → Vce) : (s.onVce e f).hif = s.hif := rfl
@[simp] theorem State.onVce_jtag (e : Nat) (f : Vce → Vce) : (s.onVce e f).jtag = s.jtag := rfl
@[simp] theorem State.onVce_smb (e : Nat) (f : Vce → Vce) : (s.onVce e f).smb = s.smb := rfl
@[simp] theorem State.onVce_pins (e : Nat) (f : Vce → Vce) : (s.onVce e f).pins = s.pins := rfl
@[simp] theorem State.onVce_fuses (e : Nat) (f : Vce → Vce) : (s.onVce e f).fuses = s.fuses := rfl
@[simp] theorem State.onVce_freeCtr (e : Nat) (f : Vce → Vce) : (s.onVce e f).freeCtr = s.freeCtr := rfl
@[simp] theorem State.onVce_out (e : Nat) (f : Vce → Vce) : (s.onVce e f).out = s.out := rfl
@[simp] theorem State.onVce_pending (e : Nat) (f : Vce → Vce) : (s.onVce e f).pending = s.pending := rfl

/-! A key slot changes: every other component stays -/

@[simp] theorem State.onSlot_regs (i : Nat) (f : KeySlot → KeySlot) : (s.onSlot i f).regs = s.regs := rfl
@[simp] theorem State.onSlot_loHeld (i : Nat) (f : KeySlot → KeySlot) : (s.onSlot i f).loHeld = s.loHeld := rfl
@[simp] theorem State.onSlot_loCap (i : Nat) (f : KeySlot → KeySlot) : (s.onSlot i f).loCap = s.loCap := rfl
@[simp] theorem State.onSlot_held (i : Nat) (f : KeySlot → KeySlot) : (s.onSlot i f).held = s.held := rfl
@[simp] theorem State.onSlot_accepted (i : Nat) (f : KeySlot → KeySlot) : (s.onSlot i f).accepted = s.accepted := rfl
@[simp] theorem State.onSlot_slices (i : Nat) (f : KeySlot → KeySlot) : (s.onSlot i f).slices = s.slices := rfl
@[simp] theorem State.onSlot_sch (i : Nat) (f : KeySlot → KeySlot) : (s.onSlot i f).sch = s.sch := rfl
@[simp] theorem State.onSlot_engines (i : Nat) (f : KeySlot → KeySlot) : (s.onSlot i f).engines = s.engines := rfl
@[simp] theorem State.onSlot_vces (i : Nat) (f : KeySlot → KeySlot) : (s.onSlot i f).vces = s.vces := rfl
@[simp] theorem State.onSlot_cmc (i : Nat) (f : KeySlot → KeySlot) : (s.onSlot i f).cmc = s.cmc := rfl
@[simp] theorem State.onSlot_rng (i : Nat) (f : KeySlot → KeySlot) : (s.onSlot i f).rng = s.rng := rfl
@[simp] theorem State.onSlot_code (i : Nat) (f : KeySlot → KeySlot) : (s.onSlot i f).code = s.code := rfl
@[simp] theorem State.onSlot_mp (i : Nat) (f : KeySlot → KeySlot) : (s.onSlot i f).mp = s.mp := rfl
@[simp] theorem State.onSlot_evr (i : Nat) (f : KeySlot → KeySlot) : (s.onSlot i f).evr = s.evr := rfl
@[simp] theorem State.onSlot_tmp (i : Nat) (f : KeySlot → KeySlot) : (s.onSlot i f).tmp = s.tmp := rfl
@[simp] theorem State.onSlot_aon (i : Nat) (f : KeySlot → KeySlot) : (s.onSlot i f).aon = s.aon := rfl
@[simp] theorem State.onSlot_lcs (i : Nat) (f : KeySlot → KeySlot) : (s.onSlot i f).lcs = s.lcs := rfl
@[simp] theorem State.onSlot_dbg (i : Nat) (f : KeySlot → KeySlot) : (s.onSlot i f).dbg = s.dbg := rfl
@[simp] theorem State.onSlot_pwr (i : Nat) (f : KeySlot → KeySlot) : (s.onSlot i f).pwr = s.pwr := rfl
@[simp] theorem State.onSlot_tim (i : Nat) (f : KeySlot → KeySlot) : (s.onSlot i f).tim = s.tim := rfl
@[simp] theorem State.onSlot_nvm (i : Nat) (f : KeySlot → KeySlot) : (s.onSlot i f).nvm = s.nvm := rfl
@[simp] theorem State.onSlot_hif (i : Nat) (f : KeySlot → KeySlot) : (s.onSlot i f).hif = s.hif := rfl
@[simp] theorem State.onSlot_jtag (i : Nat) (f : KeySlot → KeySlot) : (s.onSlot i f).jtag = s.jtag := rfl
@[simp] theorem State.onSlot_smb (i : Nat) (f : KeySlot → KeySlot) : (s.onSlot i f).smb = s.smb := rfl
@[simp] theorem State.onSlot_pins (i : Nat) (f : KeySlot → KeySlot) : (s.onSlot i f).pins = s.pins := rfl
@[simp] theorem State.onSlot_fuses (i : Nat) (f : KeySlot → KeySlot) : (s.onSlot i f).fuses = s.fuses := rfl
@[simp] theorem State.onSlot_freeCtr (i : Nat) (f : KeySlot → KeySlot) : (s.onSlot i f).freeCtr = s.freeCtr := rfl
@[simp] theorem State.onSlot_out (i : Nat) (f : KeySlot → KeySlot) : (s.onSlot i f).out = s.out := rfl
@[simp] theorem State.onSlot_pending (i : Nat) (f : KeySlot → KeySlot) : (s.onSlot i f).pending = s.pending := rfl

/-! A session changes: every other component stays -/

@[simp] theorem State.onSession_regs (i : Nat) (f : Session → Session) : (s.onSession i f).regs = s.regs := rfl
@[simp] theorem State.onSession_loHeld (i : Nat) (f : Session → Session) : (s.onSession i f).loHeld = s.loHeld := rfl
@[simp] theorem State.onSession_loCap (i : Nat) (f : Session → Session) : (s.onSession i f).loCap = s.loCap := rfl
@[simp] theorem State.onSession_held (i : Nat) (f : Session → Session) : (s.onSession i f).held = s.held := rfl
@[simp] theorem State.onSession_accepted (i : Nat) (f : Session → Session) : (s.onSession i f).accepted = s.accepted := rfl
@[simp] theorem State.onSession_slices (i : Nat) (f : Session → Session) : (s.onSession i f).slices = s.slices := rfl
@[simp] theorem State.onSession_sch (i : Nat) (f : Session → Session) : (s.onSession i f).sch = s.sch := rfl
@[simp] theorem State.onSession_engines (i : Nat) (f : Session → Session) : (s.onSession i f).engines = s.engines := rfl
@[simp] theorem State.onSession_vces (i : Nat) (f : Session → Session) : (s.onSession i f).vces = s.vces := rfl
@[simp] theorem State.onSession_cmc (i : Nat) (f : Session → Session) : (s.onSession i f).cmc = s.cmc := rfl
@[simp] theorem State.onSession_rng (i : Nat) (f : Session → Session) : (s.onSession i f).rng = s.rng := rfl
@[simp] theorem State.onSession_code (i : Nat) (f : Session → Session) : (s.onSession i f).code = s.code := rfl
@[simp] theorem State.onSession_mp (i : Nat) (f : Session → Session) : (s.onSession i f).mp = s.mp := rfl
@[simp] theorem State.onSession_evr (i : Nat) (f : Session → Session) : (s.onSession i f).evr = s.evr := rfl
@[simp] theorem State.onSession_tmp (i : Nat) (f : Session → Session) : (s.onSession i f).tmp = s.tmp := rfl
@[simp] theorem State.onSession_aon (i : Nat) (f : Session → Session) : (s.onSession i f).aon = s.aon := rfl
@[simp] theorem State.onSession_lcs (i : Nat) (f : Session → Session) : (s.onSession i f).lcs = s.lcs := rfl
@[simp] theorem State.onSession_dbg (i : Nat) (f : Session → Session) : (s.onSession i f).dbg = s.dbg := rfl
@[simp] theorem State.onSession_pwr (i : Nat) (f : Session → Session) : (s.onSession i f).pwr = s.pwr := rfl
@[simp] theorem State.onSession_tim (i : Nat) (f : Session → Session) : (s.onSession i f).tim = s.tim := rfl
@[simp] theorem State.onSession_nvm (i : Nat) (f : Session → Session) : (s.onSession i f).nvm = s.nvm := rfl
@[simp] theorem State.onSession_hif (i : Nat) (f : Session → Session) : (s.onSession i f).hif = s.hif := rfl
@[simp] theorem State.onSession_jtag (i : Nat) (f : Session → Session) : (s.onSession i f).jtag = s.jtag := rfl
@[simp] theorem State.onSession_smb (i : Nat) (f : Session → Session) : (s.onSession i f).smb = s.smb := rfl
@[simp] theorem State.onSession_pins (i : Nat) (f : Session → Session) : (s.onSession i f).pins = s.pins := rfl
@[simp] theorem State.onSession_fuses (i : Nat) (f : Session → Session) : (s.onSession i f).fuses = s.fuses := rfl
@[simp] theorem State.onSession_freeCtr (i : Nat) (f : Session → Session) : (s.onSession i f).freeCtr = s.freeCtr := rfl
@[simp] theorem State.onSession_out (i : Nat) (f : Session → Session) : (s.onSession i f).out = s.out := rfl
@[simp] theorem State.onSession_pending (i : Nat) (f : Session → Session) : (s.onSession i f).pending = s.pending := rfl

/-! A monitor changes: every other component stays -/

@[simp] theorem State.onMon_regs (m : Nat) (f : Mon → Mon) : (s.onMon m f).regs = s.regs := rfl
@[simp] theorem State.onMon_loHeld (m : Nat) (f : Mon → Mon) : (s.onMon m f).loHeld = s.loHeld := rfl
@[simp] theorem State.onMon_loCap (m : Nat) (f : Mon → Mon) : (s.onMon m f).loCap = s.loCap := rfl
@[simp] theorem State.onMon_held (m : Nat) (f : Mon → Mon) : (s.onMon m f).held = s.held := rfl
@[simp] theorem State.onMon_accepted (m : Nat) (f : Mon → Mon) : (s.onMon m f).accepted = s.accepted := rfl
@[simp] theorem State.onMon_slices (m : Nat) (f : Mon → Mon) : (s.onMon m f).slices = s.slices := rfl
@[simp] theorem State.onMon_sch (m : Nat) (f : Mon → Mon) : (s.onMon m f).sch = s.sch := rfl
@[simp] theorem State.onMon_kmg (m : Nat) (f : Mon → Mon) : (s.onMon m f).kmg = s.kmg := rfl
@[simp] theorem State.onMon_engines (m : Nat) (f : Mon → Mon) : (s.onMon m f).engines = s.engines := rfl
@[simp] theorem State.onMon_vces (m : Nat) (f : Mon → Mon) : (s.onMon m f).vces = s.vces := rfl
@[simp] theorem State.onMon_cmc (m : Nat) (f : Mon → Mon) : (s.onMon m f).cmc = s.cmc := rfl
@[simp] theorem State.onMon_rng (m : Nat) (f : Mon → Mon) : (s.onMon m f).rng = s.rng := rfl
@[simp] theorem State.onMon_code (m : Nat) (f : Mon → Mon) : (s.onMon m f).code = s.code := rfl
@[simp] theorem State.onMon_mp (m : Nat) (f : Mon → Mon) : (s.onMon m f).mp = s.mp := rfl
@[simp] theorem State.onMon_evr (m : Nat) (f : Mon → Mon) : (s.onMon m f).evr = s.evr := rfl
@[simp] theorem State.onMon_aon (m : Nat) (f : Mon → Mon) : (s.onMon m f).aon = s.aon := rfl
@[simp] theorem State.onMon_lcs (m : Nat) (f : Mon → Mon) : (s.onMon m f).lcs = s.lcs := rfl
@[simp] theorem State.onMon_dbg (m : Nat) (f : Mon → Mon) : (s.onMon m f).dbg = s.dbg := rfl
@[simp] theorem State.onMon_pwr (m : Nat) (f : Mon → Mon) : (s.onMon m f).pwr = s.pwr := rfl
@[simp] theorem State.onMon_tim (m : Nat) (f : Mon → Mon) : (s.onMon m f).tim = s.tim := rfl
@[simp] theorem State.onMon_nvm (m : Nat) (f : Mon → Mon) : (s.onMon m f).nvm = s.nvm := rfl
@[simp] theorem State.onMon_hif (m : Nat) (f : Mon → Mon) : (s.onMon m f).hif = s.hif := rfl
@[simp] theorem State.onMon_jtag (m : Nat) (f : Mon → Mon) : (s.onMon m f).jtag = s.jtag := rfl
@[simp] theorem State.onMon_smb (m : Nat) (f : Mon → Mon) : (s.onMon m f).smb = s.smb := rfl
@[simp] theorem State.onMon_pins (m : Nat) (f : Mon → Mon) : (s.onMon m f).pins = s.pins := rfl
@[simp] theorem State.onMon_fuses (m : Nat) (f : Mon → Mon) : (s.onMon m f).fuses = s.fuses := rfl
@[simp] theorem State.onMon_freeCtr (m : Nat) (f : Mon → Mon) : (s.onMon m f).freeCtr = s.freeCtr := rfl
@[simp] theorem State.onMon_out (m : Nat) (f : Mon → Mon) : (s.onMon m f).out = s.out := rfl
@[simp] theorem State.onMon_pending (m : Nat) (f : Mon → Mon) : (s.onMon m f).pending = s.pending := rfl

/-! The part sends something outward: every other component stays -/

@[simp] theorem State.emit_regs (o : Out) : (s.emit o).regs = s.regs := rfl
@[simp] theorem State.emit_loHeld (o : Out) : (s.emit o).loHeld = s.loHeld := rfl
@[simp] theorem State.emit_loCap (o : Out) : (s.emit o).loCap = s.loCap := rfl
@[simp] theorem State.emit_held (o : Out) : (s.emit o).held = s.held := rfl
@[simp] theorem State.emit_accepted (o : Out) : (s.emit o).accepted = s.accepted := rfl
@[simp] theorem State.emit_slices (o : Out) : (s.emit o).slices = s.slices := rfl
@[simp] theorem State.emit_sch (o : Out) : (s.emit o).sch = s.sch := rfl
@[simp] theorem State.emit_kmg (o : Out) : (s.emit o).kmg = s.kmg := rfl
@[simp] theorem State.emit_engines (o : Out) : (s.emit o).engines = s.engines := rfl
@[simp] theorem State.emit_vces (o : Out) : (s.emit o).vces = s.vces := rfl
@[simp] theorem State.emit_cmc (o : Out) : (s.emit o).cmc = s.cmc := rfl
@[simp] theorem State.emit_rng (o : Out) : (s.emit o).rng = s.rng := rfl
@[simp] theorem State.emit_code (o : Out) : (s.emit o).code = s.code := rfl
@[simp] theorem State.emit_mp (o : Out) : (s.emit o).mp = s.mp := rfl
@[simp] theorem State.emit_evr (o : Out) : (s.emit o).evr = s.evr := rfl
@[simp] theorem State.emit_tmp (o : Out) : (s.emit o).tmp = s.tmp := rfl
@[simp] theorem State.emit_aon (o : Out) : (s.emit o).aon = s.aon := rfl
@[simp] theorem State.emit_lcs (o : Out) : (s.emit o).lcs = s.lcs := rfl
@[simp] theorem State.emit_dbg (o : Out) : (s.emit o).dbg = s.dbg := rfl
@[simp] theorem State.emit_pwr (o : Out) : (s.emit o).pwr = s.pwr := rfl
@[simp] theorem State.emit_tim (o : Out) : (s.emit o).tim = s.tim := rfl
@[simp] theorem State.emit_nvm (o : Out) : (s.emit o).nvm = s.nvm := rfl
@[simp] theorem State.emit_hif (o : Out) : (s.emit o).hif = s.hif := rfl
@[simp] theorem State.emit_jtag (o : Out) : (s.emit o).jtag = s.jtag := rfl
@[simp] theorem State.emit_smb (o : Out) : (s.emit o).smb = s.smb := rfl
@[simp] theorem State.emit_pins (o : Out) : (s.emit o).pins = s.pins := rfl
@[simp] theorem State.emit_fuses (o : Out) : (s.emit o).fuses = s.fuses := rfl
@[simp] theorem State.emit_freeCtr (o : Out) : (s.emit o).freeCtr = s.freeCtr := rfl
@[simp] theorem State.emit_pending (o : Out) : (s.emit o).pending = s.pending := rfl

/-! A register takes a value: every other component stays -/

@[simp] theorem State.setReg_loHeld (r : Reg) (v : Word) : (s.setReg r v).loHeld = s.loHeld := rfl
@[simp] theorem State.setReg_loCap (r : Reg) (v : Word) : (s.setReg r v).loCap = s.loCap := rfl
@[simp] theorem State.setReg_held (r : Reg) (v : Word) : (s.setReg r v).held = s.held := rfl
@[simp] theorem State.setReg_accepted (r : Reg) (v : Word) : (s.setReg r v).accepted = s.accepted := rfl
@[simp] theorem State.setReg_slices (r : Reg) (v : Word) : (s.setReg r v).slices = s.slices := rfl
@[simp] theorem State.setReg_sch (r : Reg) (v : Word) : (s.setReg r v).sch = s.sch := rfl
@[simp] theorem State.setReg_kmg (r : Reg) (v : Word) : (s.setReg r v).kmg = s.kmg := rfl
@[simp] theorem State.setReg_engines (r : Reg) (v : Word) : (s.setReg r v).engines = s.engines := rfl
@[simp] theorem State.setReg_vces (r : Reg) (v : Word) : (s.setReg r v).vces = s.vces := rfl
@[simp] theorem State.setReg_cmc (r : Reg) (v : Word) : (s.setReg r v).cmc = s.cmc := rfl
@[simp] theorem State.setReg_rng (r : Reg) (v : Word) : (s.setReg r v).rng = s.rng := rfl
@[simp] theorem State.setReg_code (r : Reg) (v : Word) : (s.setReg r v).code = s.code := rfl
@[simp] theorem State.setReg_mp (r : Reg) (v : Word) : (s.setReg r v).mp = s.mp := rfl
@[simp] theorem State.setReg_evr (r : Reg) (v : Word) : (s.setReg r v).evr = s.evr := rfl
@[simp] theorem State.setReg_tmp (r : Reg) (v : Word) : (s.setReg r v).tmp = s.tmp := rfl
@[simp] theorem State.setReg_aon (r : Reg) (v : Word) : (s.setReg r v).aon = s.aon := rfl
@[simp] theorem State.setReg_lcs (r : Reg) (v : Word) : (s.setReg r v).lcs = s.lcs := rfl
@[simp] theorem State.setReg_dbg (r : Reg) (v : Word) : (s.setReg r v).dbg = s.dbg := rfl
@[simp] theorem State.setReg_pwr (r : Reg) (v : Word) : (s.setReg r v).pwr = s.pwr := rfl
@[simp] theorem State.setReg_tim (r : Reg) (v : Word) : (s.setReg r v).tim = s.tim := rfl
@[simp] theorem State.setReg_nvm (r : Reg) (v : Word) : (s.setReg r v).nvm = s.nvm := rfl
@[simp] theorem State.setReg_hif (r : Reg) (v : Word) : (s.setReg r v).hif = s.hif := rfl
@[simp] theorem State.setReg_jtag (r : Reg) (v : Word) : (s.setReg r v).jtag = s.jtag := rfl
@[simp] theorem State.setReg_smb (r : Reg) (v : Word) : (s.setReg r v).smb = s.smb := rfl
@[simp] theorem State.setReg_pins (r : Reg) (v : Word) : (s.setReg r v).pins = s.pins := rfl
@[simp] theorem State.setReg_fuses (r : Reg) (v : Word) : (s.setReg r v).fuses = s.fuses := rfl
@[simp] theorem State.setReg_freeCtr (r : Reg) (v : Word) : (s.setReg r v).freeCtr = s.freeCtr := rfl
@[simp] theorem State.setReg_out (r : Reg) (v : Word) : (s.setReg r v).out = s.out := rfl
@[simp] theorem State.setReg_pending (r : Reg) (v : Word) : (s.setReg r v).pending = s.pending := rfl

/-! A pair takes a value: every other component stays -/

@[simp] theorem State.setPair_loHeld (p : Bool → Reg) (v : Nat) : (s.setPair p v).loHeld = s.loHeld := rfl
@[simp] theorem State.setPair_loCap (p : Bool → Reg) (v : Nat) : (s.setPair p v).loCap = s.loCap := rfl
@[simp] theorem State.setPair_held (p : Bool → Reg) (v : Nat) : (s.setPair p v).held = s.held := rfl
@[simp] theorem State.setPair_accepted (p : Bool → Reg) (v : Nat) : (s.setPair p v).accepted = s.accepted := rfl
@[simp] theorem State.setPair_slices (p : Bool → Reg) (v : Nat) : (s.setPair p v).slices = s.slices := rfl
@[simp] theorem State.setPair_sch (p : Bool → Reg) (v : Nat) : (s.setPair p v).sch = s.sch := rfl
@[simp] theorem State.setPair_kmg (p : Bool → Reg) (v : Nat) : (s.setPair p v).kmg = s.kmg := rfl
@[simp] theorem State.setPair_engines (p : Bool → Reg) (v : Nat) : (s.setPair p v).engines = s.engines := rfl
@[simp] theorem State.setPair_vces (p : Bool → Reg) (v : Nat) : (s.setPair p v).vces = s.vces := rfl
@[simp] theorem State.setPair_cmc (p : Bool → Reg) (v : Nat) : (s.setPair p v).cmc = s.cmc := rfl
@[simp] theorem State.setPair_rng (p : Bool → Reg) (v : Nat) : (s.setPair p v).rng = s.rng := rfl
@[simp] theorem State.setPair_code (p : Bool → Reg) (v : Nat) : (s.setPair p v).code = s.code := rfl
@[simp] theorem State.setPair_mp (p : Bool → Reg) (v : Nat) : (s.setPair p v).mp = s.mp := rfl
@[simp] theorem State.setPair_evr (p : Bool → Reg) (v : Nat) : (s.setPair p v).evr = s.evr := rfl
@[simp] theorem State.setPair_tmp (p : Bool → Reg) (v : Nat) : (s.setPair p v).tmp = s.tmp := rfl
@[simp] theorem State.setPair_aon (p : Bool → Reg) (v : Nat) : (s.setPair p v).aon = s.aon := rfl
@[simp] theorem State.setPair_lcs (p : Bool → Reg) (v : Nat) : (s.setPair p v).lcs = s.lcs := rfl
@[simp] theorem State.setPair_dbg (p : Bool → Reg) (v : Nat) : (s.setPair p v).dbg = s.dbg := rfl
@[simp] theorem State.setPair_pwr (p : Bool → Reg) (v : Nat) : (s.setPair p v).pwr = s.pwr := rfl
@[simp] theorem State.setPair_tim (p : Bool → Reg) (v : Nat) : (s.setPair p v).tim = s.tim := rfl
@[simp] theorem State.setPair_nvm (p : Bool → Reg) (v : Nat) : (s.setPair p v).nvm = s.nvm := rfl
@[simp] theorem State.setPair_hif (p : Bool → Reg) (v : Nat) : (s.setPair p v).hif = s.hif := rfl
@[simp] theorem State.setPair_jtag (p : Bool → Reg) (v : Nat) : (s.setPair p v).jtag = s.jtag := rfl
@[simp] theorem State.setPair_smb (p : Bool → Reg) (v : Nat) : (s.setPair p v).smb = s.smb := rfl
@[simp] theorem State.setPair_pins (p : Bool → Reg) (v : Nat) : (s.setPair p v).pins = s.pins := rfl
@[simp] theorem State.setPair_fuses (p : Bool → Reg) (v : Nat) : (s.setPair p v).fuses = s.fuses := rfl
@[simp] theorem State.setPair_freeCtr (p : Bool → Reg) (v : Nat) : (s.setPair p v).freeCtr = s.freeCtr := rfl
@[simp] theorem State.setPair_out (p : Bool → Reg) (v : Nat) : (s.setPair p v).out = s.out := rfl
@[simp] theorem State.setPair_pending (p : Bool → Reg) (v : Nat) : (s.setPair p v).pending = s.pending := rfl

/-! A draw of random bytes: every other component stays -/

@[simp] theorem State.draw_regs (n : Nat) : (s.draw n).2.regs = s.regs := rfl
@[simp] theorem State.draw_loHeld (n : Nat) : (s.draw n).2.loHeld = s.loHeld := rfl
@[simp] theorem State.draw_loCap (n : Nat) : (s.draw n).2.loCap = s.loCap := rfl
@[simp] theorem State.draw_held (n : Nat) : (s.draw n).2.held = s.held := rfl
@[simp] theorem State.draw_accepted (n : Nat) : (s.draw n).2.accepted = s.accepted := rfl
@[simp] theorem State.draw_slices (n : Nat) : (s.draw n).2.slices = s.slices := rfl
@[simp] theorem State.draw_sch (n : Nat) : (s.draw n).2.sch = s.sch := rfl
@[simp] theorem State.draw_kmg (n : Nat) : (s.draw n).2.kmg = s.kmg := rfl
@[simp] theorem State.draw_engines (n : Nat) : (s.draw n).2.engines = s.engines := rfl
@[simp] theorem State.draw_vces (n : Nat) : (s.draw n).2.vces = s.vces := rfl
@[simp] theorem State.draw_cmc (n : Nat) : (s.draw n).2.cmc = s.cmc := rfl
@[simp] theorem State.draw_rng (n : Nat) : (s.draw n).2.rng = s.rng := rfl
@[simp] theorem State.draw_code (n : Nat) : (s.draw n).2.code = s.code := rfl
@[simp] theorem State.draw_mp (n : Nat) : (s.draw n).2.mp = s.mp := rfl
@[simp] theorem State.draw_evr (n : Nat) : (s.draw n).2.evr = s.evr := rfl
@[simp] theorem State.draw_tmp (n : Nat) : (s.draw n).2.tmp = s.tmp := rfl
@[simp] theorem State.draw_aon (n : Nat) : (s.draw n).2.aon = s.aon := rfl
@[simp] theorem State.draw_lcs (n : Nat) : (s.draw n).2.lcs = s.lcs := rfl
@[simp] theorem State.draw_dbg (n : Nat) : (s.draw n).2.dbg = s.dbg := rfl
@[simp] theorem State.draw_pwr (n : Nat) : (s.draw n).2.pwr = s.pwr := rfl
@[simp] theorem State.draw_tim (n : Nat) : (s.draw n).2.tim = s.tim := rfl
@[simp] theorem State.draw_nvm (n : Nat) : (s.draw n).2.nvm = s.nvm := rfl
@[simp] theorem State.draw_hif (n : Nat) : (s.draw n).2.hif = s.hif := rfl
@[simp] theorem State.draw_jtag (n : Nat) : (s.draw n).2.jtag = s.jtag := rfl
@[simp] theorem State.draw_smb (n : Nat) : (s.draw n).2.smb = s.smb := rfl
@[simp] theorem State.draw_pins (n : Nat) : (s.draw n).2.pins = s.pins := rfl
@[simp] theorem State.draw_fuses (n : Nat) : (s.draw n).2.fuses = s.fuses := rfl
@[simp] theorem State.draw_out (n : Nat) : (s.draw n).2.out = s.out := rfl
@[simp] theorem State.draw_pending (n : Nat) : (s.draw n).2.pending = s.pending := rfl
@[simp] theorem State.draw_freeCtr (n : Nat) : (s.draw n).2.freeCtr = s.freeCtr + 1 := rfl
@[simp] theorem State.draw_length (n : Nat) : (s.draw n).1.length = n := by simp [State.draw]

/-! A job or a stateful record changes: every other component stays -/

@[simp] theorem State.onJob_regs (j : Nat) (f : Job → Job) : (s.onJob j f).regs = s.regs := by
  unfold State.onJob; split <;> rfl
@[simp] theorem State.onJob_loHeld (j : Nat) (f : Job → Job) : (s.onJob j f).loHeld = s.loHeld := by
  unfold State.onJob; split <;> rfl
@[simp] theorem State.onJob_loCap (j : Nat) (f : Job → Job) : (s.onJob j f).loCap = s.loCap := by
  unfold State.onJob; split <;> rfl
@[simp] theorem State.onJob_held (j : Nat) (f : Job → Job) : (s.onJob j f).held = s.held := by
  unfold State.onJob; split <;> rfl
@[simp] theorem State.onJob_accepted (j : Nat) (f : Job → Job) : (s.onJob j f).accepted = s.accepted := by
  unfold State.onJob; split <;> rfl
@[simp] theorem State.onJob_slices (j : Nat) (f : Job → Job) : (s.onJob j f).slices = s.slices := by
  unfold State.onJob; split <;> rfl
@[simp] theorem State.onJob_kmg (j : Nat) (f : Job → Job) : (s.onJob j f).kmg = s.kmg := by
  unfold State.onJob; split <;> rfl
@[simp] theorem State.onJob_engines (j : Nat) (f : Job → Job) : (s.onJob j f).engines = s.engines := by
  unfold State.onJob; split <;> rfl
@[simp] theorem State.onJob_vces (j : Nat) (f : Job → Job) : (s.onJob j f).vces = s.vces := by
  unfold State.onJob; split <;> rfl
@[simp] theorem State.onJob_cmc (j : Nat) (f : Job → Job) : (s.onJob j f).cmc = s.cmc := by
  unfold State.onJob; split <;> rfl
@[simp] theorem State.onJob_rng (j : Nat) (f : Job → Job) : (s.onJob j f).rng = s.rng := by
  unfold State.onJob; split <;> rfl
@[simp] theorem State.onJob_code (j : Nat) (f : Job → Job) : (s.onJob j f).code = s.code := by
  unfold State.onJob; split <;> rfl
@[simp] theorem State.onJob_mp (j : Nat) (f : Job → Job) : (s.onJob j f).mp = s.mp := by
  unfold State.onJob; split <;> rfl
@[simp] theorem State.onJob_evr (j : Nat) (f : Job → Job) : (s.onJob j f).evr = s.evr := by
  unfold State.onJob; split <;> rfl
@[simp] theorem State.onJob_tmp (j : Nat) (f : Job → Job) : (s.onJob j f).tmp = s.tmp := by
  unfold State.onJob; split <;> rfl
@[simp] theorem State.onJob_aon (j : Nat) (f : Job → Job) : (s.onJob j f).aon = s.aon := by
  unfold State.onJob; split <;> rfl
@[simp] theorem State.onJob_lcs (j : Nat) (f : Job → Job) : (s.onJob j f).lcs = s.lcs := by
  unfold State.onJob; split <;> rfl
@[simp] theorem State.onJob_dbg (j : Nat) (f : Job → Job) : (s.onJob j f).dbg = s.dbg := by
  unfold State.onJob; split <;> rfl
@[simp] theorem State.onJob_pwr (j : Nat) (f : Job → Job) : (s.onJob j f).pwr = s.pwr := by
  unfold State.onJob; split <;> rfl
@[simp] theorem State.onJob_tim (j : Nat) (f : Job → Job) : (s.onJob j f).tim = s.tim := by
  unfold State.onJob; split <;> rfl
@[simp] theorem State.onJob_nvm (j : Nat) (f : Job → Job) : (s.onJob j f).nvm = s.nvm := by
  unfold State.onJob; split <;> rfl
@[simp] theorem State.onJob_hif (j : Nat) (f : Job → Job) : (s.onJob j f).hif = s.hif := by
  unfold State.onJob; split <;> rfl
@[simp] theorem State.onJob_jtag (j : Nat) (f : Job → Job) : (s.onJob j f).jtag = s.jtag := by
  unfold State.onJob; split <;> rfl
@[simp] theorem State.onJob_smb (j : Nat) (f : Job → Job) : (s.onJob j f).smb = s.smb := by
  unfold State.onJob; split <;> rfl
@[simp] theorem State.onJob_pins (j : Nat) (f : Job → Job) : (s.onJob j f).pins = s.pins := by
  unfold State.onJob; split <;> rfl
@[simp] theorem State.onJob_fuses (j : Nat) (f : Job → Job) : (s.onJob j f).fuses = s.fuses := by
  unfold State.onJob; split <;> rfl
@[simp] theorem State.onJob_freeCtr (j : Nat) (f : Job → Job) : (s.onJob j f).freeCtr = s.freeCtr := by
  unfold State.onJob; split <;> rfl
@[simp] theorem State.onJob_out (j : Nat) (f : Job → Job) : (s.onJob j f).out = s.out := by
  unfold State.onJob; split <;> rfl
@[simp] theorem State.onJob_pending (j : Nat) (f : Job → Job) : (s.onJob j f).pending = s.pending := by
  unfold State.onJob; split <;> rfl

@[simp] theorem State.onRecord_regs (i : Nat) (f : StfRecord → StfRecord) : (s.onRecord i f).regs = s.regs := by
  unfold State.onRecord; split <;> rfl
@[simp] theorem State.onRecord_loHeld (i : Nat) (f : StfRecord → StfRecord) : (s.onRecord i f).loHeld = s.loHeld := by
  unfold State.onRecord; split <;> rfl
@[simp] theorem State.onRecord_loCap (i : Nat) (f : StfRecord → StfRecord) : (s.onRecord i f).loCap = s.loCap := by
  unfold State.onRecord; split <;> rfl
@[simp] theorem State.onRecord_held (i : Nat) (f : StfRecord → StfRecord) : (s.onRecord i f).held = s.held := by
  unfold State.onRecord; split <;> rfl
@[simp] theorem State.onRecord_accepted (i : Nat) (f : StfRecord → StfRecord) : (s.onRecord i f).accepted = s.accepted := by
  unfold State.onRecord; split <;> rfl
@[simp] theorem State.onRecord_slices (i : Nat) (f : StfRecord → StfRecord) : (s.onRecord i f).slices = s.slices := by
  unfold State.onRecord; split <;> rfl
@[simp] theorem State.onRecord_sch (i : Nat) (f : StfRecord → StfRecord) : (s.onRecord i f).sch = s.sch := by
  unfold State.onRecord; split <;> rfl
@[simp] theorem State.onRecord_engines (i : Nat) (f : StfRecord → StfRecord) : (s.onRecord i f).engines = s.engines := by
  unfold State.onRecord; split <;> rfl
@[simp] theorem State.onRecord_vces (i : Nat) (f : StfRecord → StfRecord) : (s.onRecord i f).vces = s.vces := by
  unfold State.onRecord; split <;> rfl
@[simp] theorem State.onRecord_cmc (i : Nat) (f : StfRecord → StfRecord) : (s.onRecord i f).cmc = s.cmc := by
  unfold State.onRecord; split <;> rfl
@[simp] theorem State.onRecord_rng (i : Nat) (f : StfRecord → StfRecord) : (s.onRecord i f).rng = s.rng := by
  unfold State.onRecord; split <;> rfl
@[simp] theorem State.onRecord_code (i : Nat) (f : StfRecord → StfRecord) : (s.onRecord i f).code = s.code := by
  unfold State.onRecord; split <;> rfl
@[simp] theorem State.onRecord_mp (i : Nat) (f : StfRecord → StfRecord) : (s.onRecord i f).mp = s.mp := by
  unfold State.onRecord; split <;> rfl
@[simp] theorem State.onRecord_evr (i : Nat) (f : StfRecord → StfRecord) : (s.onRecord i f).evr = s.evr := by
  unfold State.onRecord; split <;> rfl
@[simp] theorem State.onRecord_tmp (i : Nat) (f : StfRecord → StfRecord) : (s.onRecord i f).tmp = s.tmp := by
  unfold State.onRecord; split <;> rfl
@[simp] theorem State.onRecord_aon (i : Nat) (f : StfRecord → StfRecord) : (s.onRecord i f).aon = s.aon := by
  unfold State.onRecord; split <;> rfl
@[simp] theorem State.onRecord_lcs (i : Nat) (f : StfRecord → StfRecord) : (s.onRecord i f).lcs = s.lcs := by
  unfold State.onRecord; split <;> rfl
@[simp] theorem State.onRecord_dbg (i : Nat) (f : StfRecord → StfRecord) : (s.onRecord i f).dbg = s.dbg := by
  unfold State.onRecord; split <;> rfl
@[simp] theorem State.onRecord_pwr (i : Nat) (f : StfRecord → StfRecord) : (s.onRecord i f).pwr = s.pwr := by
  unfold State.onRecord; split <;> rfl
@[simp] theorem State.onRecord_tim (i : Nat) (f : StfRecord → StfRecord) : (s.onRecord i f).tim = s.tim := by
  unfold State.onRecord; split <;> rfl
@[simp] theorem State.onRecord_nvm (i : Nat) (f : StfRecord → StfRecord) : (s.onRecord i f).nvm = s.nvm := by
  unfold State.onRecord; split <;> rfl
@[simp] theorem State.onRecord_hif (i : Nat) (f : StfRecord → StfRecord) : (s.onRecord i f).hif = s.hif := by
  unfold State.onRecord; split <;> rfl
@[simp] theorem State.onRecord_jtag (i : Nat) (f : StfRecord → StfRecord) : (s.onRecord i f).jtag = s.jtag := by
  unfold State.onRecord; split <;> rfl
@[simp] theorem State.onRecord_smb (i : Nat) (f : StfRecord → StfRecord) : (s.onRecord i f).smb = s.smb := by
  unfold State.onRecord; split <;> rfl
@[simp] theorem State.onRecord_pins (i : Nat) (f : StfRecord → StfRecord) : (s.onRecord i f).pins = s.pins := by
  unfold State.onRecord; split <;> rfl
@[simp] theorem State.onRecord_fuses (i : Nat) (f : StfRecord → StfRecord) : (s.onRecord i f).fuses = s.fuses := by
  unfold State.onRecord; split <;> rfl
@[simp] theorem State.onRecord_freeCtr (i : Nat) (f : StfRecord → StfRecord) : (s.onRecord i f).freeCtr = s.freeCtr := by
  unfold State.onRecord; split <;> rfl
@[simp] theorem State.onRecord_out (i : Nat) (f : StfRecord → StfRecord) : (s.onRecord i f).out = s.out := by
  unfold State.onRecord; split <;> rfl
@[simp] theorem State.onRecord_pending (i : Nat) (f : StfRecord → StfRecord) : (s.onRecord i f).pending = s.pending := by
  unfold State.onRecord; split <;> rfl

/-! An event enters the recorder: every other component stays -/

theorem State.push_eq (r : Rec) : s.push r = { s with evr := (s.push r).evr } := rfl

/-- A choice of two states that differ from `s` in the recorder alone. -/
theorem State.ite_evr {s a b : State} (c : Prop) [Decidable c] (ha : a = { s with evr := a.evr })
    (hb : b = { s with evr := b.evr }) : (if c then a else b) = { s with evr := (if c then a else b).evr } := by
  split <;> assumption

theorem State.tokenControl_eq (r : Rec) : s.tokenControl r = { s with evr := (s.tokenControl r).evr } :=
  State.ite_evr _ rfl rfl

theorem State.holdControl_eq (r : Rec) : s.holdControl r = { s with evr := (s.holdControl r).evr } := by
  unfold State.holdControl
  dsimp only
  generalize s.evr.held = o
  cases o with
  | none => rfl
  | some q =>
    dsimp only
    generalize s.evr.ring.find? _ = p
    cases p with
    | none => rfl
    | some h => exact State.ite_evr _ rfl rfl

/-- A record enters by the recorder alone. -/
theorem State.intake_eq (r : Rec) : s.intake r = { s with evr := (s.intake r).evr } := by
  unfold State.intake
  split
  · rfl
  · split
    · exact s.holdControl_eq r
    · exact s.tokenControl_eq r

@[simp] theorem State.intake_regs (r : Rec) : (s.intake r).regs = s.regs := by rw [s.intake_eq r]
@[simp] theorem State.intake_loHeld (r : Rec) : (s.intake r).loHeld = s.loHeld := by rw [s.intake_eq r]
@[simp] theorem State.intake_loCap (r : Rec) : (s.intake r).loCap = s.loCap := by rw [s.intake_eq r]
@[simp] theorem State.intake_held (r : Rec) : (s.intake r).held = s.held := by rw [s.intake_eq r]
@[simp] theorem State.intake_accepted (r : Rec) : (s.intake r).accepted = s.accepted := by rw [s.intake_eq r]
@[simp] theorem State.intake_slices (r : Rec) : (s.intake r).slices = s.slices := by rw [s.intake_eq r]
@[simp] theorem State.intake_sch (r : Rec) : (s.intake r).sch = s.sch := by rw [s.intake_eq r]
@[simp] theorem State.intake_kmg (r : Rec) : (s.intake r).kmg = s.kmg := by rw [s.intake_eq r]
@[simp] theorem State.intake_engines (r : Rec) : (s.intake r).engines = s.engines := by rw [s.intake_eq r]
@[simp] theorem State.intake_vces (r : Rec) : (s.intake r).vces = s.vces := by rw [s.intake_eq r]
@[simp] theorem State.intake_cmc (r : Rec) : (s.intake r).cmc = s.cmc := by rw [s.intake_eq r]
@[simp] theorem State.intake_rng (r : Rec) : (s.intake r).rng = s.rng := by rw [s.intake_eq r]
@[simp] theorem State.intake_code (r : Rec) : (s.intake r).code = s.code := by rw [s.intake_eq r]
@[simp] theorem State.intake_mp (r : Rec) : (s.intake r).mp = s.mp := by rw [s.intake_eq r]
@[simp] theorem State.intake_tmp (r : Rec) : (s.intake r).tmp = s.tmp := by rw [s.intake_eq r]
@[simp] theorem State.intake_aon (r : Rec) : (s.intake r).aon = s.aon := by rw [s.intake_eq r]
@[simp] theorem State.intake_lcs (r : Rec) : (s.intake r).lcs = s.lcs := by rw [s.intake_eq r]
@[simp] theorem State.intake_dbg (r : Rec) : (s.intake r).dbg = s.dbg := by rw [s.intake_eq r]
@[simp] theorem State.intake_pwr (r : Rec) : (s.intake r).pwr = s.pwr := by rw [s.intake_eq r]
@[simp] theorem State.intake_tim (r : Rec) : (s.intake r).tim = s.tim := by rw [s.intake_eq r]
@[simp] theorem State.intake_nvm (r : Rec) : (s.intake r).nvm = s.nvm := by rw [s.intake_eq r]
@[simp] theorem State.intake_hif (r : Rec) : (s.intake r).hif = s.hif := by rw [s.intake_eq r]
@[simp] theorem State.intake_jtag (r : Rec) : (s.intake r).jtag = s.jtag := by rw [s.intake_eq r]
@[simp] theorem State.intake_smb (r : Rec) : (s.intake r).smb = s.smb := by rw [s.intake_eq r]
@[simp] theorem State.intake_pins (r : Rec) : (s.intake r).pins = s.pins := by rw [s.intake_eq r]
@[simp] theorem State.intake_fuses (r : Rec) : (s.intake r).fuses = s.fuses := by rw [s.intake_eq r]
@[simp] theorem State.intake_freeCtr (r : Rec) : (s.intake r).freeCtr = s.freeCtr := by rw [s.intake_eq r]
@[simp] theorem State.intake_out (r : Rec) : (s.intake r).out = s.out := by rw [s.intake_eq r]
@[simp] theorem State.intake_pending (r : Rec) : (s.intake r).pending = s.pending := by rw [s.intake_eq r]

@[simp] theorem State.event_regs (c u w n e : Nat) (d : Bytes) : (s.event c u w n e d).regs = s.regs :=
  s.intake_regs _
@[simp] theorem State.event_loHeld (c u w n e : Nat) (d : Bytes) : (s.event c u w n e d).loHeld = s.loHeld :=
  s.intake_loHeld _
@[simp] theorem State.event_loCap (c u w n e : Nat) (d : Bytes) : (s.event c u w n e d).loCap = s.loCap :=
  s.intake_loCap _
@[simp] theorem State.event_held (c u w n e : Nat) (d : Bytes) : (s.event c u w n e d).held = s.held :=
  s.intake_held _
@[simp] theorem State.event_accepted (c u w n e : Nat) (d : Bytes) : (s.event c u w n e d).accepted = s.accepted :=
  s.intake_accepted _
@[simp] theorem State.event_slices (c u w n e : Nat) (d : Bytes) : (s.event c u w n e d).slices = s.slices :=
  s.intake_slices _
@[simp] theorem State.event_sch (c u w n e : Nat) (d : Bytes) : (s.event c u w n e d).sch = s.sch :=
  s.intake_sch _
@[simp] theorem State.event_kmg (c u w n e : Nat) (d : Bytes) : (s.event c u w n e d).kmg = s.kmg :=
  s.intake_kmg _
@[simp] theorem State.event_engines (c u w n e : Nat) (d : Bytes) : (s.event c u w n e d).engines = s.engines :=
  s.intake_engines _
@[simp] theorem State.event_vces (c u w n e : Nat) (d : Bytes) : (s.event c u w n e d).vces = s.vces :=
  s.intake_vces _
@[simp] theorem State.event_cmc (c u w n e : Nat) (d : Bytes) : (s.event c u w n e d).cmc = s.cmc :=
  s.intake_cmc _
@[simp] theorem State.event_rng (c u w n e : Nat) (d : Bytes) : (s.event c u w n e d).rng = s.rng :=
  s.intake_rng _
@[simp] theorem State.event_code (c u w n e : Nat) (d : Bytes) : (s.event c u w n e d).code = s.code :=
  s.intake_code _
@[simp] theorem State.event_mp (c u w n e : Nat) (d : Bytes) : (s.event c u w n e d).mp = s.mp :=
  s.intake_mp _
@[simp] theorem State.event_tmp (c u w n e : Nat) (d : Bytes) : (s.event c u w n e d).tmp = s.tmp :=
  s.intake_tmp _
@[simp] theorem State.event_aon (c u w n e : Nat) (d : Bytes) : (s.event c u w n e d).aon = s.aon :=
  s.intake_aon _
@[simp] theorem State.event_lcs (c u w n e : Nat) (d : Bytes) : (s.event c u w n e d).lcs = s.lcs :=
  s.intake_lcs _
@[simp] theorem State.event_dbg (c u w n e : Nat) (d : Bytes) : (s.event c u w n e d).dbg = s.dbg :=
  s.intake_dbg _
@[simp] theorem State.event_pwr (c u w n e : Nat) (d : Bytes) : (s.event c u w n e d).pwr = s.pwr :=
  s.intake_pwr _
@[simp] theorem State.event_tim (c u w n e : Nat) (d : Bytes) : (s.event c u w n e d).tim = s.tim :=
  s.intake_tim _
@[simp] theorem State.event_nvm (c u w n e : Nat) (d : Bytes) : (s.event c u w n e d).nvm = s.nvm :=
  s.intake_nvm _
@[simp] theorem State.event_hif (c u w n e : Nat) (d : Bytes) : (s.event c u w n e d).hif = s.hif :=
  s.intake_hif _
@[simp] theorem State.event_jtag (c u w n e : Nat) (d : Bytes) : (s.event c u w n e d).jtag = s.jtag :=
  s.intake_jtag _
@[simp] theorem State.event_smb (c u w n e : Nat) (d : Bytes) : (s.event c u w n e d).smb = s.smb :=
  s.intake_smb _
@[simp] theorem State.event_pins (c u w n e : Nat) (d : Bytes) : (s.event c u w n e d).pins = s.pins :=
  s.intake_pins _
@[simp] theorem State.event_fuses (c u w n e : Nat) (d : Bytes) : (s.event c u w n e d).fuses = s.fuses :=
  s.intake_fuses _
@[simp] theorem State.event_freeCtr (c u w n e : Nat) (d : Bytes) : (s.event c u w n e d).freeCtr = s.freeCtr :=
  s.intake_freeCtr _
@[simp] theorem State.event_out (c u w n e : Nat) (d : Bytes) : (s.event c u w n e d).out = s.out :=
  s.intake_out _
@[simp] theorem State.event_pending (c u w n e : Nat) (d : Bytes) : (s.event c u w n e d).pending = s.pending :=
  s.intake_pending _

/-! What an update makes of its own component -/

@[simp] theorem State.slice_onSlice (n : Nat) (f : Slice → Slice) : (s.onSlice n f).slice n = f (s.slice n) :=
  mapGet_mapUpd_self ..
theorem State.slice_onSlice_ne {n i : Nat} (f : Slice → Slice) (h : i ≠ n) : (s.onSlice n f).slice i = s.slice i :=
  mapGet_mapUpd_ne _ _ _ h
@[simp] theorem State.sq_onSq (n q : Nat) (f : Sq → Sq) : (s.onSq n q f).sq n q = f (s.sq n q) := by
  simp [State.onSq, State.sq]
@[simp] theorem State.cq_onCq (n q : Nat) (f : Cq → Cq) : (s.onCq n q f).cq n q = f (s.cq n q) := by
  simp [State.onCq, State.cq]
@[simp] theorem State.engine_onEngine (e : Nat) (f : Engine → Engine) : (s.onEngine e f).engine e = f (s.engine e) :=
  mapGet_mapUpd_self ..
theorem State.engine_onEngine_ne {e i : Nat} (f : Engine → Engine) (h : i ≠ e) :
    (s.onEngine e f).engine i = s.engine i :=
  mapGet_mapUpd_ne _ _ _ h
@[simp] theorem State.vce_onVce (e : Nat) (f : Vce → Vce) : (s.onVce e f).vce e = f (s.vce e) := mapGet_mapUpd_self ..
theorem State.vce_onVce_ne {e i : Nat} (f : Vce → Vce) (h : i ≠ e) : (s.onVce e f).vce i = s.vce i :=
  mapGet_mapUpd_ne _ _ _ h
@[simp] theorem State.slot_onSlot (i : Nat) (f : KeySlot → KeySlot) : (s.onSlot i f).slot i = f (s.slot i) :=
  mapGet_mapUpd_self ..
theorem State.slot_onSlot_ne {i k : Nat} (f : KeySlot → KeySlot) (h : k ≠ i) : (s.onSlot i f).slot k = s.slot k :=
  mapGet_mapUpd_ne _ _ _ h
@[simp] theorem State.session_onSession (i : Nat) (f : Session → Session) :
    (s.onSession i f).session i = f (s.session i) :=
  mapGet_mapUpd_self ..
theorem State.session_onSession_ne {i k : Nat} (f : Session → Session) (h : k ≠ i) :
    (s.onSession i f).session k = s.session k :=
  mapGet_mapUpd_ne _ _ _ h
@[simp] theorem State.mon_onMon (m : Nat) (f : Mon → Mon) : (s.onMon m f).mon m = f (s.mon m) := mapGet_mapUpd_self ..
theorem State.mon_onMon_ne {m i : Nat} (f : Mon → Mon) (h : i ≠ m) : (s.onMon m f).mon i = s.mon i :=
  mapGet_mapUpd_ne _ _ _ h
@[simp] theorem State.reg_setReg (r : Reg) (v : Word) : (s.setReg r v).reg r = v := mapGet_mapSet_self ..
theorem State.reg_setReg_ne {r q : Reg} (v : Word) (h : q.addr ≠ r.addr) : (s.setReg r v).reg q = s.reg q :=
  show mapGet q.reset (mapSet r.reset s.regs r.addr v) q.addr = mapGet q.reset s.regs q.addr by
    unfold mapSet mapGet
    split
    · rw [mapFind_mapErase_ne _ h]
    · rw [mapFind_mapInsert_ne _ _ h]
@[simp] theorem State.job_onJob (j : Nat) (f : Job → Job) : (s.onJob j f).job? j = (s.job? j).map f := by
  unfold State.onJob
  split
  · rw [‹s.job? j = _›]; exact mapFind_mapInsert_self ..
  · rw [‹s.job? j = none›]; rfl
theorem State.job_onJob_ne {j i : Nat} (f : Job → Job) (h : i ≠ j) : (s.onJob j f).job? i = s.job? i := by
  unfold State.onJob
  split
  · exact mapFind_mapInsert_ne _ _ h
  · rfl

end Sys2Proof.Machine
end

