-- ==== Sys2Proof/Laws/Specs.lean ====
section
/-! SUPPORT. What the shared paths of the commands do: the gate of BAR0 writes, an accepted command word, the fetch of a
kernel word, the end of an operation, and the completion of a job. A later proof cites these and unfolds nothing. -/

namespace Sys2Proof.Machine

-- In order, so that a build of the package as one text needs few threads.
set_option Elab.async false

variable {s : State}

/-! Registers and command words -/

/-- A part that is not in SLEEP has no need to wake. -/
theorem State.wakeUp_eq (h : s.pwr.st ≠ .sleep) : s.wakeUp = s := by simp [State.wakeUp, h]

/-- A write that the part takes is carried out, the part awake. -/
theorem State.gate_takes {off : Nat} (h : s.Takes off) (f : State → State) : s.gate off f = f s.wakeUp := by
  have h1 : (s.ended && !s.endedWrites off) = false := by
    rcases he : s.ended with _ | _
    · rfl
    · simp [h.alive he]
  have h3 : ¬(0xB0000 ≤ off ∧ off < 0xC0000 ∧ (!s.mpInService) = true) := by
    rintro ⟨a, b, c⟩
    simp [h.mp a b] at c
  unfold State.gate
  rw [h.up, h1]
  rcases hn : sliceOfOffset off with _ | n
  · simp only [Bool.not_true, Bool.false_eq_true, if_false, if_neg h3]
  · simp only [h.slice n hn, Bool.not_true, Bool.and_false, Bool.false_eq_true, if_false, if_neg h3]

/-- A write that the part takes outside SLEEP. -/
theorem State.gate_awake {off : Nat} (h : s.Takes off) (hs : s.pwr.st ≠ .sleep) (f : State → State) :
    s.gate off f = f s := by
  rw [State.gate_takes h, State.wakeUp_eq hs]

/-- A write outside BAR0's reset state: without READY nothing happens. -/
theorem State.gate_down {off : Nat} (h : s.pwr.ready = false) (f : State → State) : s.gate off f = s := by
  simp [State.gate, h]

/-- The command word that was accepted for a register is taken, and none waits there any more. -/
theorem State.takeCommand_some {r : Reg} {w : Word} (h : mapFind s.accepted r.addr = some w) :
    s.takeCommand r = some (w, { s with accepted := mapErase s.accepted r.addr }) := by
  simp [State.takeCommand, h]

/-- Where no command word waits, none is taken. -/
theorem State.takeCommand_none {r : Reg} (h : mapFind s.accepted r.addr = none) : s.takeCommand r = none := by
  simp [State.takeCommand, h]

/-- A command of SLC_CTRL is taken, and the register reads 0 from then on. -/
theorem State.slcCommand_some {n c : Nat} {w : Word} (h : mapFind s.accepted (Reg.slcCtrl n).addr = some w)
    (hc : fld w 31 28 = c) : s.slcCommand n c =
      some ({ s with accepted := mapErase s.accepted (Reg.slcCtrl n).addr }.setReg (.slcCtrl n) 0) := by
  simp [State.slcCommand, State.takeCommand_some h, hc]

/-! Kernels -/

/-- The instruction at the KPC of a running kernel is taken (R299, R346, R366). -/
theorem State.fetch_runs {e j op : Nat} {x : Job} {f : VFields} {long : Bool} (h : s.RunsKernel e j x long)
    (hw : s.atWord e op f long = true) (act : State → Nat → Job → Vce → State) :
    s.fetch e op f long act = act s j x ((s.vce e).fetched long) := by
  simp only [State.atWord, State.wordIs, Bool.and_eq_true, Bool.or_eq_true, Bool.not_eq_true', decide_eq_true_eq] at hw
  obtain ⟨h1, h2⟩ := hw
  have g1 : (s.wordKnown (s.vce e).kpc && !decide (s.kernelWord (s.vce e).kpc = kernelWordOf op f)) = false := by
    rcases h1 with h1 | h1 <;> simp [h1]
  unfold State.fetch State.fetchWord
  rw [h.running]
  rcases long with _ | _
  · simp [h.limit, h.word, g1, Vce.fetched, bitOf]
  · have g2 : s.wordIs ((s.vce e).kpc + 1) f.imm = true := by
      rcases h2 with h2 | h2 | h2 <;> simp_all [State.wordIs]
    simp [h.limit, h.word, h.next rfl, g1, g2, Vce.fetched, bitOf]

/-- Without a repeated word of its mask stream, what an instruction makes of the engine is put in place (R269). -/
theorem State.runTo_good {e : Nat} {v : Vce} (h : (s.vce e).streamGood v = true) : s.runTo e v = s.onVce e fun _ => v := by
  have g : (v.seed.isSome && v.streamRepeats (s.vce e).used v.used) = false := by
    revert h
    simp only [Vce.streamGood]
    cases v.seed <;> simp
  unfold State.runTo
  simp only [g, Bool.false_eq_true, if_false]

/-- An instruction without a fault changes its engine alone, as its effect says. -/
theorem State.vector_runs {e j op : Nat} {x : Job} {f : VFields} {long : Bool} {fault : Vce → VFields → Option Nat}
    {eff : Vce → VFields → Vce} (h : s.RunsKernel e j x long) (hw : s.atWord e op f long = true)
    (hf : fault ((s.vce e).fetched long) f = none)
    (hs : (s.vce e).streamGood (eff ((s.vce e).fetched long) f) = true) :
    s.vector e op f long fault eff = s.onVce e fun _ => eff ((s.vce e).fetched long) f := by
  unfold State.vector
  rw [State.fetch_runs h hw]
  simp only [hf, State.runTo_good hs]

/-- An instruction with a fault ends its job. -/
theorem State.vector_faults {e j op : Nat} {x : Job} {f : VFields} {long : Bool} {fault : Vce → VFields → Option Nat}
    {eff : Vce → VFields → Vce} {c : Nat} (h : s.RunsKernel e j x long) (hw : s.atWord e op f long = true)
    (hf : fault ((s.vce e).fetched long) f = some c) :
    s.vector e op f long fault eff = s.kernelFault e ((s.vce e).fetched long) c 0 := by
  unfold State.vector
  rw [State.fetch_runs h hw]
  simp only [hf]

/-! The end of an operation -/

/-- The operation of a job at its end gives what `f` computes. -/
theorem State.compute_ends {j fam op : Nat} {x : Job} (h : s.Ends j fam op x) (f : Job → State → Result × State) :
    s.compute j fam op f = (f x s).2.produce j (f x s).1 := by
  unfold State.compute
  rw [h.at_]
  simp only [h.fam, h.op, and_self, if_true]

/-- The engine on which a job runs is read from the engines alone. -/
@[simp] theorem State.runningOn_onJob (i j : Nat) (f : Job → Job) : (s.onJob i f).runningOn j = s.runningOn j := by
  have h : (s.onJob i f).engine = s.engine := by funext e; unfold State.engine; rw [State.onJob_engines]
  unfold State.runningOn
  rw [h]

/-- A result without an engine to leave changes the job alone. -/
theorem State.produce_free {j : Nat} {r : Result} (h : s.runningOn j = none) :
    s.produce j r = s.onJob j fun y => { y with computed := some r } := by
  unfold State.produce
  simp only [State.runningOn_onJob, h]

/-- A result whose job runs on engine `e`: the engine is left (R219). -/
theorem State.produce_runs {e j : Nat} {r : Result} (h : s.runningOn j = some e) :
    s.produce j r =
      let t := s.onJob j fun y => { y with computed := some r }
      t.stepLeaves e j (t.slotOn e) := by
  unfold State.produce
  simp only [State.runningOn_onJob, h]

/-! The completion of a job -/

/-- Completing a job that is not in the table, or is DONE, changes nothing (R198). -/
theorem State.finish_none {j : Nat} {r : Result} (h : s.job? j = none) : s.finish j r = s := by
  simp [State.finish, h]

theorem State.finish_done {j : Nat} {x : Job} {r : Result} (h : s.job? j = some x) (hx : x.stage = .done) :
    s.finish j r = s := by
  simp [State.finish, h, hx]

/-- The two states differ in jobs, engines, slices, the waits for entropy, save images and the journal alone. -/
def State.jobOnly (s t : State) : Prop :=
  t = { s with
    sch := t.sch, engines := t.engines, vces := t.vces, slices := t.slices, rng := t.rng, cmc := t.cmc, evr := t.evr }

theorem State.jobOnly_refl (s : State) : s.jobOnly s := rfl

theorem State.jobOnly_trans {a b c : State} (h : a.jobOnly b) (g : b.jobOnly c) : a.jobOnly c := by
  unfold State.jobOnly at *
  rw [g, h]

theorem State.jobOnly_foldl {α : Type} {f : State → α → State} (hf : ∀ (s : State) (a : α), s.jobOnly (f s a)) (l : List α) (s : State) :
    s.jobOnly (l.foldl f s) := by
  induction l generalizing s with
  | nil => rfl
  | cons a l ih => exact State.jobOnly_trans (hf s a) (ih _)

theorem State.onJob_jobOnly (s : State) (j : Nat) (f : Job → Job) : s.jobOnly (s.onJob j f) := by
  unfold State.onJob; split <;> rfl

theorem State.event_jobOnly (s : State) (c u w n e : Nat) (d : Bytes) : s.jobOnly (s.event c u w n e d) := by
  unfold State.event; rw [s.intake_eq]; rfl

theorem State.onVce_jobOnly (s : State) (e : Nat) (f : Vce → Vce) : s.jobOnly (s.onVce e f) := rfl

theorem State.onEngine_jobOnly (s : State) (e : Nat) (f : Engine → Engine) : s.jobOnly (s.onEngine e f) := rfl

theorem State.lapse_jobOnly (s : State) (j : Nat) : s.jobOnly (s.lapse j) := rfl

theorem State.unstage_jobOnly (s : State) (e : Nat) : s.jobOnly (s.unstage e) := by
  unfold State.unstage
  split
  · rfl
  · refine State.jobOnly_trans ?_ (State.onJob_jobOnly _ _ _)
    split <;> rfl

theorem State.leaveRunning_jobOnly (s : State) (e : Nat) : s.jobOnly (s.leaveRunning e) := by
  unfold State.leaveRunning
  split
  · rfl
  · dsimp only
    split <;> rfl

theorem State.endLends_jobOnly (s : State) (e : Nat) : s.jobOnly (s.endLends e) := by
  unfold State.endLends
  refine State.jobOnly_foldl (fun s h => ?_) _ _
  split <;> rfl

theorem State.frostJob_jobOnly (s : State) (e : Nat) (b : Bool) : s.jobOnly (s.frostJob e b) := by
  unfold State.frostJob
  split
  · exact State.jobOnly_trans (State.onVce_jobOnly s e _) (State.endLends_jobOnly _ _)
  · exact State.onEngine_jobOnly s e _

theorem State.dropRunning_jobOnly (s : State) (e : Nat) : s.jobOnly (s.dropRunning e) :=
  State.jobOnly_trans (s.leaveRunning_jobOnly e) (State.frostJob_jobOnly _ _ _)

theorem State.freeResult_jobOnly (s : State) (e j : Nat) : s.jobOnly (s.freeResult e j) := by
  unfold State.freeResult
  split
  · rfl
  · dsimp only
    split <;> rfl

theorem State.offEngines_jobOnly (s : State) (j : Nat) (fails : Option Nat) : s.jobOnly (s.offEngines j fails) := by
  have h1 : ∀ (s : State) (e : Nat), s.jobOnly
      (if ((s.engine e).incoming.map (·.1)) = some j then s.unstage e else s) := by
    intro s e
    split
    · exact s.unstage_jobOnly e
    · rfl
  have h2 : ∀ (s : State) (e : Nat) (c : Prop) [Decidable c], s.jobOnly (if c then s.dropRunning e else s) := by
    intro s e c _
    split
    · exact State.dropRunning_jobOnly _ _
    · rfl
  unfold State.offEngines
  refine State.jobOnly_foldl (fun s e => ?_) _ _
  exact State.jobOnly_trans (h1 s e) (State.jobOnly_trans (h2 _ e _) (State.freeResult_jobOnly _ _ _))

theorem State.takeRb_jobOnly (s : State) (j : Nat) : s.jobOnly (s.takeRb j) := by
  unfold State.takeRb
  split
  · rfl
  · split
    · rfl
    · split
      · exact State.onJob_jobOnly _ _ _
      · exact State.event_jobOnly _ _ _ _ _ _ _

/-- Completing a job touches nothing but jobs, engines, slices, the waits for entropy, save images and the journal. -/
theorem State.finish_jobOnly (s : State) (j : Nat) (r : Result) (fails : Option Nat) : s.jobOnly (s.finish j r fails) := by
  unfold State.finish
  split
  · rfl
  · split
    · split
      · exact State.dropRunning_jobOnly _ _
      · rfl
    · refine State.jobOnly_trans ?_ (State.takeRb_jobOnly _ _)
      refine State.jobOnly_trans ?_ (State.onJob_jobOnly _ _ _)
      exact State.jobOnly_trans (s.offEngines_jobOnly j fails) (State.lapse_jobOnly _ _)

/-! Requests of the part -/

/-- From `s` to `t` requests go out, and what goes out with them is kept in the interface alone. -/
structure State.Sends (s t : State) : Prop where
  only : t = { s with out := t.out, hif := t.hif, freeCtr := t.freeCtr }
  out  : s.out <+: t.out

theorem State.Sends.refl (s : State) : s.Sends s := ⟨rfl, List.prefix_rfl⟩

theorem State.Sends.trans {r s t : State} (h : r.Sends s) (g : s.Sends t) : r.Sends t := by
  refine ⟨?_, h.out.trans g.out⟩
  have a := h.only
  have b := g.only
  generalize s.out = o, s.hif = f, s.freeCtr = c at a
  generalize t.out = p, t.hif = q, t.freeCtr = d at b
  subst a; subst b; rfl

theorem State.Sends.foldl {α : Type} {f : State → α → State} (hf : ∀ (s : State) (a : α), s.Sends (f s a)) (l : List α) (s : State) :
    s.Sends (l.foldl f s) := by
  induction l generalizing s with
  | nil => exact .refl s
  | cons a l ih => exact (hf s a).trans (ih _)

/-- Translations are asked for, and their answers enter the cache (R57). -/
theorem State.translate_sends (s : State) (p : Option Nat) (l : List Nat) : s.Sends (s.translate p l).2 := by
  induction l generalizing s with
  | nil => exact .refl s
  | cons a l ih =>
    simp only [State.translate]
    split
    · exact ih _
    · split
      · exact ⟨rfl, List.prefix_append ..⟩
      · exact .trans ⟨rfl, List.prefix_append ..⟩ (ih _)

theorem State.request_sends (s : State) (p : Option Nat) (a n : Nat) (o : Out) : s.Sends (s.request p a n o) := by
  have h := s.translate_sends p (pagesOf a n)
  simp only [State.request, State.emit]
  split
  · exact ⟨rfl, List.prefix_append ..⟩
  · split <;> rename_i u hu <;> rw [hu] at h <;> refine h.trans ⟨rfl, ?_⟩
    · exact List.prefix_append ..
    · exact List.prefix_rfl

/-- Output bytes are written in requests of at most the payload size (R52). -/
theorem State.writeOut_sends (s : State) (x : Job) (o : Nat) (b : Bytes) : s.Sends (s.writeOut x o b) :=
  .foldl (fun _ _ => .foldl (fun s _ => s.request_sends ..) ..) ..

end Sys2Proof.Machine
end

