-- ==== Sys2Proof/Tests/Slice0.lean ====
section
/-! SUPPORT. Tests: the checks of well-formedness, values that the manual works out, and for every statement a state and
operands that meet its hypotheses, clause by clause. -/

namespace Sys2Proof.Tests

open Sys2Proof Sys2Proof.Machine

-- In order, so that a build of the package as one text needs few threads.
set_option Elab.async false

/-! Well-formedness: one ill-formed command for each check (R18, R41, R64, R68, R88, R286, R300, R459, R546) -/

theorem test_wf_accepts : (Instr.wf (.activate 1) && Instr.wf (.activate 127) && Instr.wf (.nudge 0x3F004) &&
    Instr.wf (.sqEnable 64 15 0) && Instr.wf (.thaw 70) && Instr.wf (.vadd 33 {}) && Instr.wf (.registerWrite 0x6000FFC 0) &&
    Instr.wf (.machineCheck 0 4 0x7FFF [1]) && Instr.wf (.winterTrip 9 1)) = true := by decide +kernel

theorem test_wf_slice_queue : (Instr.wf (.activate 0) || Instr.wf (.quiesce 65) || Instr.wf (.remove 128) ||
    Instr.wf (.sqErrClear 1 16) || Instr.wf (.descriptorArrival 1 0 [{ words := [] }]) ||
    Instr.wf (.doorbellReadData 1 []) || Instr.wf (.hostAccessFail (.descriptor 0 0) .timeout) ||
    Instr.wf (.completionTimeout (.completion 1 16 1)) || Instr.wf (.reservationCommitDone 4096 true)) = false := by
  decide +kernel

theorem test_wf_offsets : (Instr.wf (.nudge 0x40000) || Instr.wf (.registerWrite 2 0) || Instr.wf (.nameLoRead 0x6001000) ||
    Instr.wf (.badAccess 0x4000000 true) || Instr.wf (.atsInvalidation 0x100001 { page := 0 }) || Instr.wf (.atsInvalidation 0 { page := 2 ^ 52 - 1, pages := 2 }) ||
    Instr.wf (.vectorUnmask 2048) || Instr.wf (.clearToken 4097)) = false := by decide +kernel

theorem test_wf_engines : (Instr.wf (.thaw 71) || Instr.wf (.vadd 34 {}) || Instr.wf (.hashLend 0 33) ||
    Instr.wf (.hashLend 0 52) || Instr.wf (.engineFaultDetect 0 0 []) || Instr.wf (.engineFaultDetect 0 16 []) ||
    Instr.wf (.machineCheck 0 3 0 []) || Instr.wf (.machineCheck 0 4 0x8000 []) || Instr.wf (.retireUnit 0 5) ||
    Instr.wf (.agingSample 0 [256] 0) || Instr.wf (.agingSample 0 [] 256) || Instr.wf (.thawComplete ⟨71, true, [], 0⟩) || Instr.wf (.port 0 0 (2 ^ 36)) ||
    Instr.wf (.customerOpcode 0 0x20) || Instr.wf (.customerOpcode 0 256)) = false := by decide +kernel

theorem test_wf_units : (Instr.wf (.monCfgWrite 20) || Instr.wf (.winterTrip 10 1) || Instr.wf (.retest 4 0) || Instr.wf (.retest 0 4) || Instr.wf (.standbyRetest 0 4) ||
    Instr.wf (.healthFail 0 3 true) || Instr.wf (.reseedDue 6) || Instr.wf (.reseedDue 256) ||
    Instr.wf (.patrolScrub 2 0 []) || Instr.wf (.smbTemp 128) || Instr.wf (.bypass 64) ||
    Instr.wf (.eventRecord 0 0 256 []) || Instr.wf (.eventRecord 0 0 0 (zeros 17)) ||
    Instr.wf (.aggregatorWindowClose 4096 0) || Instr.wf (.aggregatorWindowClose 0 256) || Instr.wf (.summary 0x10000) ||
    Instr.wf (.coldStart { startup := [4] }) || Instr.wf (.coldStart { chA := { ranks := 3 } })) = false := by
  decide +kernel

/-! Values that the manual works out -/

/-- The example after R320: coefficients 1,000 and 2 with the twiddle 159,781 in Montgomery form. -/
def butterflyVce : Vce :=
  { q := 8380417, qinv := 68660748287, g := 2, vl := 256, v := [(4, 1000), (5, 2), (6, 159781)] }

theorem test_butterfly_example :
    let u := vbflyDo butterflyVce { vd := 4, vs2 := 6, variant := 2 }
    (u.elem 2 4 0, u.elem 2 5 0) = (7532214, 850203) := by decide +kernel

/-- The example after R252: four 12-bit coefficients in lane 0. -/
theorem test_lane_example : laneOf (BitVec.ofNat 4608 (leVal [0x05, 0x00, 0xD0, 0xD2, 0x74, 0x00])) 0 = 0x4D2D00005 := by
  decide +kernel

/-- The example of chapter 08: parities of its routine, and the fields that FLD takes from IR. -/
theorem test_routine_example : (parityOk 0xB580009300 && parityOk 0x910205C500 && parityOk 0xD20460510F &&
    !parityOk 0xA580009300) = true ∧
    (mb 0x0205C500 29 25, mb 0x0205C500 19 14, mb 0x0205C500 13 8) = (1, 23, 5) := by decide +kernel

/-- The example after R646: addresses of slice 9, and what CQ 3 reads after reset. -/
theorem test_addresses_example : ((Reg.cqStatus 9 3).addr, (Reg.share 9).addr, (Reg.keyQuota 9).addr) =
    (0x010910E0, 0x91120, 0x80424) := by decide +kernel

/-- The examples of chapter 16: the code of a corrected error of DDRB, and the code of its SUMMARY. -/
theorem test_codes_example : (eventCode 3 (srcDdr 1) 0, eventCode 0xD srcEvr 1) = (0x3360, 0xD3C1) := by decide +kernel

/-- The example after R611: 353,901,478 cycles in Winter Hold restore station time 216.003 ms ahead. -/
theorem test_restore_example :
    (Anchor.timeOf { time := 0, counter := 0, freq := 0 } 353901478) / 1000 = 10800216003 := by decide +kernel

/-- The table of the example of chapter 13. -/
def tariff7 : Bytes :=
  leBytes 4 0x54464154 ++ leBytes 4 7 ++ leBytes 8 0 ++ leBytes 4 0 ++ leBytes 4 2 ++ zeros 8 ++
    (leBytes 4 0 ++ leBytes 4 250 ++ leBytes 4 80 ++ zeros 4) ++ (leBytes 4 25200 ++ leBytes 4 320 ++ leBytes 4 80 ++ zeros 4)
    ++ zeros 96

/-- A reading of a meter: it starts at a second of day, and imports and exports so many Wh. -/
def reading (sec imported exported : Nat) : Reading :=
  { record := zeros 16 ++ leBytes 8 (sec * 1000000000) ++ leBytes 4 1800 ++ zeros 4 ++ leBytes 8 imported
      ++ leBytes 8 exported, sig := [] }

theorem test_charge_example : ((reading 7200 1500 0).charge tariff7, (reading 27000 900 200).charge tariff7) =
    (375000, 272000) := by decide +kernel

/-! States for the witnesses -/

/-- A TRL3640-IM in PROVISION, started, READY and in RUN, with context memory and randomness. -/
def part : State :=
  { State.reset with
    pins := { perstN := true, rails := true }
    pwr := { st := .run, inReset := false, ready := true }
    lcs := { words := [0xCCCCCCCC33333333, 0xAAAAAAAA55555555], code := 5 }
    rng := { on := true, ready := true, srcs := [(0, { st := .selected, passed := true })], d0 := { live := true }
             root := { live := true } }
    cmc := { ready := true, popCode := 2, usable := 0x40000000, internal := 0x200000, ovwDone := true
             chA := { fitted := true, active := true, ranks := 1, gib := 1 } }
    kmg := { ready := true, roots := [(5, zeros 32)], boot := 1 }
    evr := { ready := true } }

/-- The offset passes every check of the gate. -/
def takesNow (s : State) (off : Nat) : Bool :=
  s.pwr.ready && (!s.ended || s.endedWrites off) && (match sliceOfOffset off with | some n => s.present n | none => true)
    && (!(decide (0xB0000 ≤ off) && decide (off < 0xC0000)) || s.mpInService)

theorem takes {s : State} {off : Nat} (h : takesNow s off = true) : s.Takes off := by
  simp only [takesNow, Bool.and_eq_true, Bool.or_eq_true, Bool.not_eq_true', Bool.and_eq_false_iff,
    decide_eq_false_iff_not] at h
  obtain ⟨⟨⟨h1, h2⟩, h3⟩, h4⟩ := h
  refine ⟨h1, fun he => ?_, fun n hn => ?_, fun a b => ?_⟩
  · rcases h2 with h2 | h2
    · simp [he] at h2
    · exact h2
  · simpa [hn] using h3
  · rcases h4 with (h4 | h4) | h4
    · exact absurd a h4
    · exact absurd b h4
    · exact h4

/-- A job that runs the last step of its plan. -/
def lastStep (fam op : Nat) : Job :=
  { slice := 1, stage := .active, started := true, desc := { opc := BitVec.ofNat 16 (fam * 256 + op * 16) }
    steps := [{ st := .running }] }

/-- `part` with one job, of number 0. -/
def withJob (x : Job) : State := { part with sch := { part.sch with jobs := [(0, x)], nextJob := 1 } }

/-- `part` with job `x` on VCE 0, whose inside is `v`. -/
def kernelPart (x : Job) (v : Vce) : State :=
  ({ withJob x with vces := [(0, v)] }).onEngine 0 fun y => { y with running := some (0, 0), gated := false }

/-! The step, the state after reset, and what every step keeps -/

/-- `part` with a command waiting, and with none. -/
theorem witness_queue : ({ part with pending := [.removePackage] }).pending = [.removePackage] ∧ part.pending = [] := ⟨rfl, rfl⟩

/-- The form of the state, decided. -/
def goodNow (s : State) : Bool :=
  mapWf 0 s.cmc.cells && decide (s.rng.pool.length ≤ 16) && keysRise s.sch.jobs && (s.sch.jobs.all fun e => decide (e.1 < s.sch.nextJob))
    && decide (s.tim.frac < 2 ^ 32) && decide (s.pwr.opNs < 1000000000) && decide (s.aon.counter < 2 ^ 48)
    && keysRise s.regs && keysRise s.slices && keysRise s.engines && keysRise s.vces && keysRise s.kmg.slots
    && keysRise s.kmg.sessions && keysRise s.kmg.stf && keysRise s.kmg.epochs && keysRise s.tmp.mons && keysRise s.hif.msix

theorem good {s : State} (h : goodNow s = true) : s.Good := by
  simp only [goodNow, Bool.and_eq_true, decide_eq_true_eq, List.all_eq_true] at h
  constructor
  all_goals first
    | (simp only [h]; done)
    | exact h.1.1.1.1.1.1.1.1.1.1.1.1.1.2

/-- A state with a job and memory at a boundary of its form, a step from which answers a next state. -/
theorem witness_good_step :
    let s : State := { withJob {} with
      cmc := { part.cmc with cells := [(0x200000, 1)] }, rng := { part.rng with pool := List.replicate 16 [] }, pending := [.noOp 0] }
    s.Good ∧ ∃ t, step s = .next t :=
  ⟨good (by decide +kernel), _, rfl⟩

/-! Kernels -/

/-- The kernel runs, decided. -/
def runsNow (s : State) (e j : Nat) (x : Job) (long : Bool) : Bool :=
  decide (s.kernelOn e = some (j, x)) && !s.limitReached e (s.vce e) && (s.vce e).inRange s.mpInService (s.vce e).kpc
    && (!long || (s.vce e).inRange s.mpInService ((s.vce e).kpc + 1))

theorem runs {s : State} {e j : Nat} {x : Job} {long : Bool} (h : runsNow s e j x long = true) : s.RunsKernel e j x long := by
  simp only [runsNow, Bool.and_eq_true, Bool.or_eq_true, Bool.not_eq_true', decide_eq_true_eq] at h
  obtain ⟨⟨⟨h1, h2⟩, h3⟩, h4⟩ := h
  refine ⟨h1, h2, h3, fun hl => ?_⟩
  rcases h4 with h4 | h4
  · simp [hl] at h4
  · exact h4

/-- The job of the kernels below: an ML-KEM decapsulation. -/
def kernelJob : Job := lastStep 1 1

/-- Shares of a set of single registers. -/
def shareSet (k : Nat) (kind : ShareKind) (b : Nat) : SMap ShareEnt :=
  (List.range k).map fun j => (b + j, { k := k, base := b, idx := j, kind := kind })

/-- An engine with a modulus, two scalars and a session of the Keccak core. -/
def plainVce : Vce :=
  { entered := true, q := 8380417, qinv := 14913151, vl := 128, s := [(1, 1), (2, 1), (8, 320)], sponge := { init := true, final := true }
    seed := some [], kstack := [0x10] }

/-- An engine of masking order 1 with sets of two shares at 8, 16 and 24. -/
def maskedVce (a b c : ShareKind) : Vce :=
  { plainVce with seed := none, ctx := { k := 2 }, share := shareSet 2 a 8 ++ shareSet 2 b 16 ++ shareSet 2 c 24 }

/-- An engine and operands that raise no fault, for every row of `kernelRows` in order. -/
def kernelOperands : List (Vce × VFields) :=
  let p := fun (f : VFields) => (plainVce, f)
  let abb := maskedVce .arith .bool .arith
  let bbb := maskedVce .bool .bool .bool
  [p { imm := 128 }, (bbb, { vd := 16, func := 4 }), p { imm := 8380417 }, p { vs1 := 1, func := 0x10 }, p { vs1 := 3 }, p { mx := 1 },
   p { vd := 1, vs1 := 2, vs2 := 3 }, p { vs1 := 8, vs2 := 0 }, p { vs1 := 1 }, p { vd := 16, vs1 := 8, vs2 := 24 },
   p { vd := 16, vs1 := 8, vs2 := 24 }, p { vd := 16, vs1 := 8, vs2 := 24, variant := 1 },
   p { vd := 16, vs1 := 8, vs2 := 24, variant := 1 }, p { vd := 16, vs1 := 8, vs2 := 24 },
   p { vd := 16, vs1 := 8, vs2 := 24, variant := 1 }, p { vd := 16, vs1 := 8, vs2 := 24, variant := 1 },
   p { vd := 16, vs1 := 8, vs2 := 24 }, p { vd := 16, vs1 := 8, variant := 1 },
   p { vd := 16, vs1 := 8, vs2 := 24, variant := 1 }, p { vd := 16, vs1 := 8, variant := 1 },
   p { vd := 16, vs1 := 8, variant := 1 }, (bbb, { vd := 16, vs1 := 8 }), p { vd := 16, vs1 := 8, vs2 := 24 },
   (bbb, { vd := 16, vs1 := 8, vs2 := 24 }), p { vd := 16, vs1 := 8, func := 3 }, p { vd := 16, vs1 := 8, func := 3 },
   p { vd := 16, vs1 := 8, func := 3 }, p { vd := 16, vs1 := 8 }] ++
  [({ plainVce with g := 2, vl := 256 }, { vd := 16, vs2 := 8, variant := 1 }),
   ({ plainVce with g := 2, vl := 256 }, { vd := 16, variant := 1, func := 4 }), p { vd := 16, vs1 := 8 }, p { vd := 16, vs1 := 8 },
   p { vd := 16, vs1 := 8, func := 1 }, p { vd := 16, vs1 := 8, func := 1 }, p { vd := 16, vs1 := 8, func := 1 },
   p { vd := 1, vs1 := 2, vs2 := 3, func := 0 }, p { vd := 16, vs1 := 8, vs2 := 24 }, p {},
   ({ plainVce with sponge := { init := true } }, { vs2 := 1 }), p { vd := 16, vs2 := 1 },
   ({ plainVce with vl := 0 }, { vd := 16, variant := 1 }), p { vd := 16, variant := 2, func := 2 },
   ({ plainVce with g := 2, vl := 256 }, { vd := 16, variant := 2, func := 64 }), p { vd := 16, variant := 1, func := 2 },
   (bbb, { vd := 8 }), (bbb, { vd := 8, vs1 := 16, vs2 := 24 }), (abb, { vd := 16, vs1 := 8 }), (abb, { vd := 8, vs1 := 16 }),
   (bbb, { vd := 16, vs1 := 8 }), (bbb, { vd := 1, vs1 := 8 }), p { imm := 0x10 }, p { imm := 0x10 }, p {}]

theorem witness_kernelRows : kernelOperands.length = kernelRows.length ∧ ((kernelRows.zip kernelOperands).all fun p =>
    runsNow (kernelPart kernelJob p.2.1) 0 0 kernelJob (p.1.long p.2.2)
      && (kernelPart kernelJob p.2.1).atWord 0 p.1.opc p.2.2 (p.1.long p.2.2)
      && p.2.1.streamGood (p.1.eff (p.2.1.fetched (p.1.long p.2.2)) p.2.2)
      && (p.1.fault (kernelPart kernelJob p.2.1) (p.2.1.fetched (p.1.long p.2.2)) p.2.2).isNone) = true := by decide +kernel

/-- Every element-wise row is among them. -/
theorem witness_elementRows : (elementRows.all fun r =>
    runsNow (kernelPart kernelJob plainVce) 0 0 kernelJob false
      && (r.fault (plainVce.fetched false) { vd := 16, vs1 := 8, vs2 := if r.two then 24 else 0, variant := 1 }).isNone) = true := by
  decide +kernel

/-- The element-wise rows on a set of two shares beside a PUBLIC operand, where they take one (R262). -/
theorem witness_elementRows_shared :
    let v := maskedVce .arith .arith .arith
    runsNow (kernelPart kernelJob v) 0 0 kernelJob false = true ∧
      vaddFault (v.fetched false) { vd := 16, vs1 := 8, vs2 := 2 } = none ∧
      mixedOperands (v.fetched false) { vd := 16, vs1 := 8, vs2 := 2 } = true ∧
      v.resultK 8 2 true = 2 := by decide +kernel

/-- VBFLY's modulus is not 0. -/
theorem witness_butterfly : ({ plainVce with g := 2, vl := 256 } : Vce).q ≠ 0 := by decide +kernel

/-- VSETL and SOP by a scalar, and SOP by a long immediate on the last operation and a discarded destination (R308,
R309). -/
theorem witness_scalars : vsetlFault (plainVce.fetched false) { vd := 3, vs1 := 1, mx := 7 } = none ∧
    sopFault (plainVce.fetched true) { func := 0x18 } = none ∧ sopFault (plainVce.fetched false) { func := 0x0A } = none ∧
    vsetqFault (plainVce.fetched true) { imm := 3 } = none := by decide +kernel

/-- The conditions of BR, taken and not. -/
theorem witness_branch : ((List.range 7).zip [(0, 0), (1, 0), (1, 0), (1, 2), (1, 2), (0, 0), (0, 0)]).all (fun c =>
    (brFault (plainVce.fetched true) part.mpInService
      { vs1 := BitVec.ofNat 5 c.2.1, vs2 := BitVec.ofNat 5 c.2.2, imm := 0x2BFF, func := BitVec.ofNat 7 c.1 }).isNone) = true := by
  decide +kernel

/-- Rows that have arrived, a streamed row that has not, and a release (R310, R314). -/
theorem witness_rows :
    let v : Vce := { plainVce with
      streaming := true, arrived := 2, s := [(1, 1), (2, 1), (8, 320), (9, 2)], ctx := { inLen := 3 * 576 } }
    let s := kernelPart kernelJob v
    (s.kernelOn 0 = some (0, kernelJob) ∧ s.atWord 0 0x10 { vd := 16, vs1 := 1 } false = true ∧
      s.atWord 0 0x10 { vd := 16, vs1 := 9 } false = true ∧ s.atWord 0 0x11 { vd := 16, vs1 := 8 } false = true ∧
      s.atWord 0 0x13 { vs1 := 2 } false = true) ∧ runsNow (kernelPart kernelJob v) 0 0 kernelJob false = true ∧
      (vldStalls (v.fetched false) { vd := 16, vs1 := 1 } = false ∧ vldFault (v.fetched false) { vd := 16, vs1 := 1 } = none) ∧
      (vldStalls v { vd := 16, vs1 := 9 } = true ∧ vldFault v { vd := 16, vs1 := 9 } = none) ∧
      vstFault (v.fetched false) { vd := 16, vs1 := 8 } = none ∧ vrelFault (v.fetched false) { vs1 := 2 } = none := by
  decide +kernel

/-- A set whose shares are stored to rows one apart (R310). -/
theorem witness_rows_shared :
    let v := { maskedVce .arith .bool .arith with s := [(1, 320), (2, 1)] }
    vstFault (v.fetched false) { vd := 8, vs1 := 1, vs2 := 2 } = none ∧
      rowsNamed (v.fetched false) { vd := 8, vs1 := 1, vs2 := 2 } = [(320, 8, 0), (321, 9, 1)] := by decide +kernel

/-- A customer call of operation 0x7005, on a part whose customer package has an entry for it. -/
def customerJob : Job := { lastStep 0x70 0 with desc := { opc := 0x7005, outCap := 1000 } }

/-- An engine that runs customer code. -/
def customerVce : Vce :=
  { plainVce with ctx := { kind := .customer, outCap := 1000, limit := 0 }, kpc := 0x3100, s := [(1, 64), (2, 0)]
                  kstack := [0x3200] }

/-- `kernelPart` of them, the customer store holding an instruction at KPC. -/
def customerPart (op : Nat) (f : VFields) : State :=
  { kernelPart customerJob customerVce with
    code := { part.code with kernel := [(0x3100, kernelWordOf op f)], decode := [(0xE3, BitVec.ofNat 18 (storedEntry 16 0xD100))] } }

/-- VOUT, VEND in its three endings, and an opcode that chapter 07 does not list (R315, R351, R302). -/
theorem witness_output :
    let v := customerVce.fetched false
    (([(0x12, { vd := 4 }), (0x63, { vs1 := 1 }), (0x63, { vs1 := 1, func := 1 }), (0xE3, {}), (0x7F, {})] :
        List (Nat × VFields)).all fun c =>
      runsNow (customerPart c.1 c.2) 0 0 customerJob false && (customerPart c.1 c.2).atWord 0 c.1 c.2 false
        && decide (((customerPart c.1 c.2).kernelWord 0x3100).toNat / 2 ^ 28 = c.1)) = true ∧
      customerJob.ending = true ∧ voutFault v { vd := 4 } = none ∧
      vendFault v { vs1 := 1 } = none ∧ vendFault v { vs1 := 1, func := 1 } = none ∧
      vendFault { v with s := [(1, 1001)] } { vs1 := 1 } = none ∧
      (listedOpcode 0xE3 = false ∧ listedOpcode 0x7F = false) ∧
      ((customerPart 0xE3 {}).decodeEntry 0xE3).getLsbD 15 = true ∧ entryOk 16 ((customerPart 0xE3 {}).decodeEntry 0xE3).toNat = true ∧
      (let s : State := { customerPart 0xE3 {} with code := { (customerPart 0xE3 {}).code with decode := [(0xE3, 0x10000)] } }
       runsNow s 0 0 customerJob false = true ∧ entryOk 16 (s.decodeEntry 0xE3).toNat = false) ∧
      (customerPart 0x63 { vs1 := 1 }).wantsLend 0 = false := by
  decide +kernel

/-- VEND of a key generation and of a decapsulation to a slot, which give KEY its private key and its secret, and of a
decapsulation, whose operation fails no verification (R112, R119, R313). -/
theorem witness_vendor_end :
    let gen : Job := lastStep 1 0
    let toSlot : Job := { lastStep 1 1 with block := zeros 24 ++ [1] }
    let v := plainVce.fetched false
    (gen.ending = true ∧ gen.desc.op = 0 ∧ [1, 2, 3, 0xA, 0xB].contains gen.desc.fam = true ∧ toSlot.dest ≠ 0 ∧
      [1, 0xA].contains toSlot.desc.fam = true ∧ kernelJob.mayFail = false ∧ (lastStep 2 2).mayFail = true) ∧
    ([gen, toSlot].all fun x => runsNow (kernelPart x plainVce) 0 0 x false && (kernelPart x plainVce).atWord 0 0x63 {} false
      && (vendFault v {}).isNone && !(kernelPart x plainVce).wantsLend 0) = true := by decide +kernel

/-! Gathers, calls and the micro-sequencer -/

/-- `kernelPart` whose slice 1 has the 2 MiB of context memory from 4 MiB on as its window. -/
def windowPart (x : Job) (v : Vce) : State :=
  ((kernelPart x v).setReg (.winBase 1) 2).setReg (.winSize 1) 1

/-- The same, the customer store holding an instruction at KPC. -/
def storedPart (x : Job) (v : Vce) (op : Nat) (f : VFields) : State :=
  { windowPart x v with code := { part.code with kernel := [(0x3100, kernelWordOf op f)] } }

/-- VGATHER and VSCATTER of E36 and E72 with a mask, at the first and the last word of the window (R331, R336). -/
theorem witness_gather :
    let v : Vce := { customerVce with vl := 2, v := [(3, 0x3FFFF * 2 ^ 36)], kpc := 0x3100, m := [(2, 3)] }
    let w := v.fetched false
    ([(0x14, { vd := 9, vs1 := 3, mx := 2, variant := 2 }), (0x14, { vd := 9, vs1 := 3, mx := 2, variant := 2, func := 3 }),
      (0x14, { vd := 10, vs1 := 3, mx := 2, variant := 3 }), (0x15, { vd := 9, vs1 := 3, mx := 2, variant := 2 }),
      (0x15, { vd := 10, vs1 := 3, mx := 2, variant := 3 })] : List (Nat × VFields)).all (fun c =>
      let s := storedPart customerJob v c.1 c.2
      runsNow s 0 0 customerJob false && s.atWord 0 c.1 c.2 false && decide (w.gsAt = 0) && !s.stopAsked 0 customerJob
        && ((if c.1 = 0x14 then vgatherFault else vscatterFault) w c.2).isNone
        && decide ((s.openElems customerJob.slice w c.2 w.vl).2 = w.vl)
        && (List.range 2).all fun i => w.active c.2 0 i && decide (w.elem 2 3 i < s.windowWords 1)
          && (s.windowWordAt customerJob (w.elem 2 3 i)).isSome) = true := by decide +kernel

/-- A job with two scattered words whose entry can be issued (R337). -/
theorem witness_scatter_released :
    let x : Job := { customerJob with stage := .done, frosted := true, scattered := true, scat := [(0x400000, 5), (0x400008, 6)] }
    (withJob x).job? 0 = some x ∧ (withJob x).releasable 0 x = true ∧ keysRise x.scat = true ∧
      (x.scat.all fun p => x.scat.all fun q => !decide (p.1 < q.1) || decide (p.1 + 8 ≤ q.1)) = true := by decide +kernel

/-- KERNEL_CALL of a job whose kernel no instruction has entered yet (R349, R350). -/
theorem witness_call :
    let s : State := kernelPart customerJob { customerVce with entered := false }
    s.job? 0 = some customerJob ∧ s.runningOn 0 = some 0 ∧ customerJob.desc.fam = 0x70 ∧ clsOf 0 = .vce ∧ s.awake = true ∧
      s.computing 0 = true ∧ customerJob.abort = none ∧ (s.vce 0).entered = false := by decide +kernel

/-- An engine in the middle of a routine: U1 is 3, U2 is 5. -/
def microVce : Vce := { plainVce with u := [(1, 3), (2, 5)], upc := 0x100, ir := 0x5_8000_9300#36 }

/-- A micro-operation from its fields A, B, D, selected as the rows of R363 place them. -/
def mop3 (d a b rest : Nat) : BitVec 30 := BitVec.ofNat 30 (d * 2 ^ 25 + a * 2 ^ 20 + b * 2 ^ 15 + rest)

/-- A micro-operation of the ROM runs at its address, and one of the control RAM of good parity at that to which a match
entry patches it (R360, R369). -/
theorem witness_micro_runs :
    let s := kernelPart kernelJob microVce
    s.kernelOn 0 = some (0, kernelJob) ∧ s.patched 0x100 = some 0x100 ∧ s.limitReached 0 microVce = false ∧
      (let t : State := { s with code := { part.code with
          control := [(0x4000, 0xB580009300)], match_ := [(0, BitVec.ofNat 36 (storedEntry 32 (2 ^ 31 + 0x4000 * 2 ^ 16 + 0x100)))] } }
       t.patched 0x100 = some 0x4000 ∧ parityOk (t.controlWord 0x4000) = true) := by decide +kernel

theorem micro_at (m : Nat) (w : BitVec 30) : (kernelPart kernelJob microVce).microAt 0 m w 0x100 :=
  ⟨by decide +kernel, fun h => absurd h (by decide)⟩

/-- ALU of every function, ALUI, LDI, FLD at the top of IR, SRD and SWR, with D at 0 and 15 (R363). -/
theorem witness_micro_arithmetic :
    ((List.range 8).all fun n =>
      let w := mop3 15 1 2 n
      (microVce.sel (mb w 24 20)).isSome && (microVce.sel (mb w 19 15)).isSome && (aluFn (mb w 3 0) 3 5).isSome
        && decide (mb w 14 4 = 0) && decide (mb w 29 25 = 15)) = true ∧
    (aluFn (mb (mop3 0 1 0 0) 19 16) 3 0).isSome = true ∧ mb (mop3 0 0 31 0x7FFF) 24 20 = 0 ∧
    (let w := BitVec.ofNat 30 (15 * 2 ^ 25 + 35 * 2 ^ 14 + 2 ^ 8)
     mb w 24 20 = 0 ∧ mb w 7 0 = 0 ∧ mb w 13 8 = 1 ∧ mb w 19 14 = 35 ∧ mb w 29 25 < 16) ∧
    (mb (mop3 15 2 0 0) 19 0 = 0 ∧ mb (mop3 0 1 2 0) 29 25 = 0 ∧ mb (mop3 0 1 2 0) 14 0 = 0) := by decide +kernel

/-- BR of every condition, CALL with room on the stack, RET, NEXT, IMMF, KJMP, KPUSH and KPOP (R363 to R367). -/
theorem witness_micro_sequencing :
    ((List.range 7).all fun c =>
      let w := BitVec.ofNat 30 (c * 2 ^ 26 + 2 ^ 21 + 2 * 2 ^ 16 + 0x7FFF)
      (microVce.uCond (mb w 29 26) 3 5).isSome && decide (mb w 15 15 = 0)) = true ∧
    (mb (0x7FFF : BitVec 30) 29 15 = 0 ∧ microVce.ustack.length < 8) ∧
    entryOk 15 (BitVec.ofNat 17 (storedEntry 15 7)).toNat = true ∧
    (microVce.ustack = [] ∧ microVce.inRange true microVce.kpc = true ∧ microVce.kstack = 0x10 :: []) ∧
    (let s := { kernelPart customerJob customerVce with
        code := { part.code with kernel := [(0x3100, 0xE38000000)], decode := [(0xE3, BitVec.ofNat 18 (storedEntry 16 0xD100))] } }
     s.kernelOn 0 = some (0, customerJob) ∧ customerVce.ustack = [] ∧ customerVce.inRange s.mpInService 0x3100 = true ∧
       s.patched customerVce.upc = some 0 ∧ s.limitReached 0 { customerVce with upc := 0, safe := false } = false ∧
       entryOk 16 (s.decodeEntry 0xE3).toNat = true ∧ (s.kernelWord 0x3100).toNat / 2 ^ 28 = 0xE3 ∧
       (s.decodeEntry 0xE3).getLsbD 15 = true ∧ customerVce.ctx.kind = .customer) := by decide +kernel

/-- CHK whose condition holds and fails, FAULT, JEND on VEND and on another word, and reserved words (R363, R375). -/
theorem witness_micro_checks :
    (microVce.chkCond (mb (mop3 0 1 0 0x1300) 19 14) 3 0 = some true ∧
      listedCause (mb (mop3 0 1 0 0x1300) 13 8) = true ∧ listedCause (mb (0x2200 : BitVec 30) 13 8) = true) ∧
    microVce.chkCond (mb (mop3 0 1 2 0x1300) 19 14) 3 0 ≠ none ∧ mb (mop3 0 1 0 0x1300) 29 25 = 0 ∧
    (mb (0x2200 : BitVec 30) 29 14 = 0 ∧ mb (0x2200 : BitVec 30) 7 0 = 0) ∧ kernelJob.ending = true ∧ (kernelPart kernelJob microVce).wantsLend 0 = false ∧
    (kernelPart kernelJob microVce).stopAsked 0 kernelJob = false ∧
    (let v : Vce := { microVce with ir := BitVec.ofNat 36 (0x63 * 2 ^ 28 + 2 ^ 18) }
     v.irOpcode = 0x63 ∧ vendFault { v with ctx := { v.ctx with outCap := 1000 } } v.irFields = none) ∧
    (microVce.irOpcode ≠ 0x63 ∧ microVce.ctx.k = 1) ∧ (1 : BitVec 30) ≠ 0 ∧ mb (0x8000 : BitVec 30) 29 15 ≠ 0 ∧
    microVce.ustack = [] ∧ entryOk 15 (BitVec.ofNat 17 0x10000).toNat = false := by
  decide +kernel

/-- VISSUE of an operation in IR, ROWMV both ways, KCORE, SHMAP, MODW and OSTR, and PORT (R363, R370, R371). -/
theorem witness_micro_datapath :
    let word := fun (op : Nat) (f : VFields) => BitVec.ofNat 36
      (op * 2 ^ 28 + f.vd.toNat * 2 ^ 23 + f.vs1.toNat * 2 ^ 18 + f.vs2.toNat * 2 ^ 13 + f.variant.toNat * 2 ^ 7 + f.func.toNat)
    let at_ := fun op f => ({ microVce with ir := word op f } : Vce)
    (let v := at_ 0x2C { vd := 16, vs1 := 8, vs2 := 24 }
     (vop (mb (0x0C000000 : BitVec 30) 29 24 + 0x20)).isSome = true ∧ ((vop 0x2C).map fun p => p.1 v (v.irFields.usedBy 0x2C)) = some none ∧
       (vop 0x2C).any (fun p => decide ((v.beats (p.2 v (v.irFields.usedBy 0x2C)) 0x2C (v.irFields.usedBy 0x2C)) ≤ 128)
         && v.streamGood (p.2 v (v.irFields.usedBy 0x2C))) = true) ∧
    (let v : Vce := { at_ 0x10 { vd := 4 } with u := [(1, 320)] }
     v.sel 1 = some 320 ∧ badGroup v.irFields.vd.toNat v.g = false ∧ v.isPublic 4 v.g = true ∧
       v.rowFault true 320 none (v.ent 4).internal = none ∧ v.rowFault false 320 none (v.ent 4).internal = none ∧
       v.unarrived 320 = false) ∧
    (let v : Vce := { at_ 0x10 { vd := 4 } with u := [(1, 2)], streaming := true, arrived := 2, ctx := { inLen := 3 * 576 } }
     v.rowFault false 2 none (v.ent 4).internal = none ∧ v.unarrived 2 = true) ∧
    ([(0x50, {}), (0x02, { vd := 16, func := 4 }), (0x01, { vs1 := 1 }), (0x03, { imm := 0 }), (0x13, { vs1 := 1 })] :
        List (Nat × VFields)).all (fun c =>
      let v := at_ c.1 c.2
      let v := { v with imm := 8380417, ctx := { v.ctx with k := 2 } }
      decide (v.irOpcode = c.1) && decide (((irVop v.irOpcode).map fun p => p.1 v v.irFields) = some none)
        && (irVop v.irOpcode).any fun p => v.streamGood (p.2 v v.irFields)) = true ∧
    (let v : Vce := { at_ 0x14 { vd := 9, vs1 := 3, variant := 2 } with vl := 1 }
     let s := windowPart kernelJob v
     v.irOpcode = 0x14 ∧ vgatherFault v v.irFields = none ∧ 0 < v.vl ∧ v.active v.irFields 0 0 = true ∧
       v.elem 2 3 0 < s.windowWords 1 ∧ (s.windowWordAt kernelJob (v.elem 2 3 0)).isSome = true ∧
       s.groupsWait (s.window 1).1 8 = false) := by decide +kernel

/-! Operations of the opcode table -/

/-- The operation is at its end, decided. -/
def endsNow (s : State) (j fam op : Nat) (x : Job) : Bool :=
  decide (s.atEnd j = some x) && decide (x.desc.fam = fam) && decide (x.desc.op = op)

theorem ends {s : State} {j fam op : Nat} {x : Job} (h : endsNow s j fam op x = true) : s.Ends j fam op x := by
  simp only [endsNow, Bool.and_eq_true, decide_eq_true_eq] at h
  exact ⟨h.1.1, h.1.2, h.2⟩

/-- Every row of the opcode table has a state in which its operation ends. -/
theorem witness_opcodeRows : (opcodeRows.all fun r =>
    endsNow (withJob (lastStep r.fam r.op)) 0 r.fam r.op (lastStep r.fam r.op)) = true := by decide +kernel

theorem witness_waiting_rows : ([6, 9, 10].all fun op =>
    endsNow (withJob (lastStep 0x30 op)) 0 0x30 op (lastStep 0x30 op)) = true := by decide +kernel

/-- The waits of DESTROY and STORE, open and closed. -/
theorem witness_waits :
    (let x : Job := { lastStep 0x30 6 with keyBlob := zeros 80 }
     (withJob x).destroyWaits x = false ∧
       ({ withJob x with kmg := { part.kmg with
          stf := [(0, { valid := true, keyId := zeros 16, pending := true })] } } : State).destroyWaits x = true) ∧
    (let x : Job := { lastStep 0x30 9 with input := some (zeros 80) }
     (withJob x).storeWaits x = false ∧
       (let s := withJob x
        State.storeWaits { s with cmc := { s.cmc with ovwDone := false, onDemand := (List.range 4096).map (· + 1) } } x = true)) ∧
    (withJob (lastStep 0x30 10)).listWaits (lastStep 0x30 10) = false := by decide +kernel

theorem witness_noOp : endsNow (withJob (lastStep 0x50 0)) 0 0x50 0 (lastStep 0x50 0) = true ∧
    (kernelPart (lastStep 0x50 0) {}).runningOn 0 = some 0 := by decide +kernel

theorem witness_kems_verdicts :
    ((decapsulations.map fun (r : (Nat → Instr) × Nat × Nat) => (r.2.1, 1)) ++
      verifications.map fun (r : (Nat → Instr) × Nat × Nat) => r.2).all (fun c =>
      endsNow (withJob (lastStep c.1 c.2)) 0 c.1 c.2 (lastStep c.1 c.2) && decide ((lastStep c.1 c.2).dest = 0)) = true := by
  decide +kernel

theorem witness_tags_and_lengths :
    ([(0x10, 1), (0x11, 1), (0x10, 8), (0x10, 10)] ++
      lengthRows.map fun (r : (Nat → Instr) × Nat × Nat × (Job → Nat)) => (r.2.1, r.2.2.1)).all (fun c =>
      endsNow (withJob (lastStep c.1 c.2)) 0 c.1 c.2 (lastStep c.1 c.2)) = true := by decide +kernel

/-- A session with a replay window, 100 the highest counter accepted. -/
def window100 : Session := { st := .active, replay := true, rxValid := true, rxHigh := 100, rxWindow := 1 }

/-- Counters above, within and at the far end of the window, and those it refuses (R187). -/
theorem witness_replay : window100.replayed 101 = none ∧ window100.replayed 99 = none ∧
    window100.replayed 100 = some 0 ∧ ({ window100 with rxHigh := 356 } : Session).replayed 100 = some 1 ∧
    ({ window100 with rxHigh := 355 } : Session).replayed 100 = none := by decide +kernel

/-- A job on session 5 of slice 1, whose block 0 of sessions is granted. -/
def sessionJob (op : Nat) : Job := { lastStep 0x20 op with desc := { opc := BitVec.ofNat 16 (0x2000 + op * 16), auxAddr := 5 } }

def sessionPart (op : Nat) : State :=
  let s := withJob { sessionJob op with input := some (leBytes 8 100) }
  { s.setReg (.sess 1) 0x100 with kmg := { part.kmg with sessions := [(5, window100)] } }

theorem witness_sessions : ([1, 4, 6].all fun op =>
    let x := { sessionJob op with input := some (leBytes 8 100) }
    endsNow (sessionPart op) 0 0x20 op x && decide ((sessionPart op).sessionBy x.slice x.desc.session = some 5)
      && decide (((sessionPart op).session 5).replayed (leAt x.inp 0 8) = some 0)) = true := by decide +kernel

/-- A reading by an Ed25519 meter passes every check where the algorithm accepts its signature (R518). -/
theorem witness_rated (k : KeySlot) (hk : k.alg = 0x0814)
    (hp : Config.eccPkOk 4 k.pubKey = true) (h : Config.ed25519Verify k.pubKey (reading 7200 1500 0).record [] = true) :
    rated [reading 7200 1500 0] k [tariff7] ≠ none := by
  have hv : (reading 7200 1500 0).verifies k = true := by
    unfold Reading.verifies
    have hq : eccPubOk 4 k.pubKey = true := by
      unfold eccPubOk
      rw [hp]
      rfl
    rw [hk, if_neg (by decide), if_pos rfl, hq]
    exact h
  have ht : (reading 7200 1500 0).tariff [tariff7] = some tariff7 := by decide +kernel
  have hc : ([reading 7200 1500 0].map fun r => r.charge tariff7).foldl (· + ·) 0 = 375000 := by decide +kernel
  unfold rated
  simp only [ht, hc, List.all_cons, List.all_nil, hv, inOrder, fits64]
  decide

/-- STATEMENT with its range used up and with one value left, and a commit in progress (R515). -/
theorem witness_statement :
    endsNow (withJob (lastStep 0x60 1)) 0 0x60 1 (lastStep 0x60 1) = true ∧
      rated [] {} [] = none ∧
      ({ part with mp := { ctrNext := 1023, ctrEnd := 1024, ctrBusy := true } } : State).mp.ctrBusy = true ∧
      part.mpInService = true := by decide +kernel


/-! The host interface -/

/-- `part` with slice 1 ACTIVE and granted 16 vectors: SQ 0 and CQ 0 of 16 entries, with an interrupt, enabled. -/
def hostPart : State :=
  (((part.onSlice 1 fun x => { x with st := .active, cqs := [(0, { unsig := 1, sent := [{ words := [] }] })] }).setReg
    (.sqCfg 1 0) 0x80000004).setReg (.cqCfg 1 0) 0xC0000004).setReg (.vec 1) 0x100000

/-- A full ring has no room, and an unchanged head word frees none of it (R86); a head of 3 frees 3 entries. -/
theorem test_full_ring :
    let s := hostPart.onCq 1 0 fun c => { c with unrel := 16 }
    s.cqRoom 1 0 = false ∧ (s.takeHead 1 0 0).cqRoom 1 0 = false ∧ ((s.takeHead 1 0 3).cq 1 0).unrel = 13 := by
  decide +kernel

/-- A poll that is due at its interval, with no read outstanding and with one, and the nudges of slices 1 and 62
(R64, R68). -/
theorem witness_doorbellReads :
    let s : State := { hostPart with tim := { part.tim with elapsed := 50000 } }
    let t := s.onSlice 1 fun x => { x with dbReading := true }
    s.awake = true ∧ s.dbRuns 1 = true ∧ (s.slice 1).dbReading = false ∧ (s.slice 1).polled + s.pollInterval 1 = 50000 ∧
      t.dbRuns 1 = true ∧ (t.slice 1).dbReading = true := by decide +kernel

/-- A doorbell read outstanding, with an enabled SQ and CQ, and words inside and outside the ring (R67, R102). -/
theorem witness_doorbellPage :
    let s := hostPart.onSlice 1 fun x => { x with dbReading := true }
    (s.slice 1).dbReading = true ∧ s.sqEn 1 0 = true ∧ (s.sq 1 0).err = false ∧ s.cqEn 1 0 = true ∧ (s.cq 1 0).err = false ∧
      (dword [15] 0).toNat < s.sqSize 1 0 ∧ ¬ (dword [16] 0).toNat < s.sqSize 1 0 := by decide +kernel

/-- No SQ has a descriptor waiting. -/
theorem fetched_none {s : State} (h : (s.slices.all fun e => e.2.sqs.all fun g => g.2.fetched.isEmpty) = true) (n q : Nat) :
    (s.sq n q).fetched = [] := by
  simp only [List.all_eq_true, List.isEmpty_iff] at h
  unfold State.sq State.slice mapGet
  rcases hn : mapFind s.slices n with _ | y
  · rfl
  · rcases hq : mapFind y.sqs q with _ | z
    · simp [hq]
    · simpa [hq] using h _ (mem_of_mapFind hn) _ (mem_of_mapFind hq)

/-- One descriptor waits at the last place of the ring, and no other for its turn (R85, R194). -/
theorem witness_descriptors :
    let s := hostPart.onSq 1 0 fun _ => { head := 15, tail := 0, reading := true }
    (∀ m k, (s.sq m k).fetched = []) ∧ (s.up = true ∧ s.awake = true ∧ s.sch.admitAt ≤ s.tim.elapsed) ∧ (s.sq 1 0).reading = true ∧ 0 < s.descCount 1 0 ∧ s.sqRuns 1 0 = true ∧ s.schStopped = false ∧
      (s.slice 1).capHold = false ∧ s.mayConsume 1 0 (parseDesc (List.replicate 16 0)) = true :=
  ⟨fetched_none (by decide +kernel), by decide +kernel⟩

/-- Each kind of access in progress, and a cause for it (R59). -/
theorem witness_accesses :
    accessRuns (withJob (lastStep 2 0)) (.jobPart 0 .output) ∧ accessRuns (withJob (lastStep 2 0)) (.jobPart 0 .input) ∧
      accessRuns (hostPart.onSq 1 0 fun x => { x with reading := true }) (.descriptor 1 0) ∧
      accessRuns (hostPart.onSlice 1 fun x => { x with dbReading := true }) (.doorbell 1) ∧
      accessRuns hostPart (.completion 1 0 1) ∧
      (failCause .urCa (Access.completion 1 0 1).isRead = true ∧ failCause .poisoned (Access.jobPart 0 .input).isRead = true ∧
        (Access.descriptor 1 0).isRead = true ∧ (Access.doorbell 1).isRead = true ∧ hostPart.hif.noTimeout = false ∧
        (let s : State := { withJob (lastStep 2 0) with tim := { part.tim with elapsed := 20000000 } }
         let t := ((s.onSlice 1 fun x => { x with dbReading := true }).onSq 1 0 fun x => { x with reading := true }).onJob 0
           fun x => { x with readAt := some 0 }
         ([.jobPart 0 .input, .descriptor 1 0, .doorbell 1] : List Access).all fun a =>
           (t.issuedAt a).any fun n => decide (n + timeoutNs t.hif.timeout ≤ t.tim.elapsed)) = true) :=
  ⟨⟨lastStep 2 0, by decide +kernel, by decide⟩, ⟨lastStep 2 0, by decide +kernel, by decide⟩,
    show (State.sq _ _ _).reading = true by decide +kernel, show (State.slice _ _).dbReading = true by decide +kernel,
    ⟨by decide +kernel, by decide +kernel⟩, by decide +kernel⟩

/-- An input read and a completion write that a translation denied before they were issued, the CQ of the second stopped by
an earlier failure, and the zeros of a job that ended TAG_MISMATCH (R57, R60, R685). -/
theorem witness_denied :
    let s : State := { withJob (lastStep 2 0) with hif := { part.hif with denied := [.jobRead 0 none 0x1000 64] } }
    let t := hostPart.onCq 1 0 fun c => { c with err := true }
    let t : State := { t with hif := { part.hif with denied := [.cqWrite 1 0 none 0x2000 []] } }
    let z : Job := { lastStep 2 0 with stage := .done, result := fail .tagMismatch }
    s.hif.denied.any (s.requestOf (.jobPart 0 .input)) = true ∧ t.hif.denied.any (t.requestOf (.completion 1 0 1)) = true ∧
      1 ≤ (t.cq 1 0).sent.length ∧ (t.cq 1 0).err = true ∧ (withJob z).job? 0 = some z ∧ z.result.status = .tagMismatch := by decide +kernel

/-- An invalidation of two pages on a part with its link up, the first of which it holds (R57). -/
theorem witness_invalidation :
    let s : State := { part with hif := { part.hif with linkUp := true, cache := [(0, 7, 1), (0, 9, 2)] } }
    s.up = true ∧ s.hif.linkUp = true ∧
      (s.hif.cache.filter fun c => !(c.1 = 0 && decide (7 ≤ c.2.1) && decide (c.2.1 < 9))) = [(0, 9, 2)] := by decide +kernel

/-- An SQ, a CQ and a doorbell stopped by an error, on a part that takes the write (R61). -/
theorem witness_errors :
    let s := ((hostPart.onSq 1 0 fun x => { x with err := true }).onCq 1 0 fun x => { x with err := true }).onSlice 1
      fun x => { x with dbErr := true }
    s.Takes (Reg.sqStatus 1 0).addr ∧ s.Takes (Reg.cqStatus 1 0).addr ∧ s.Takes (Reg.dbStatus 1).addr ∧
      ((s.sq 1 0).err && (s.cq 1 0).err && (s.slice 1).dbErr) = true :=
  ⟨takes (by decide +kernel), takes (by decide +kernel), takes (by decide +kernel), by decide +kernel⟩

/-- Enabling CQ 15 and SQ 15, and disabling SQ 0 and a CQ that no SQ names (R80 to R82). -/
theorem witness_queueSetUp :
    let s := hostPart.setReg (.cqCfg 1 1) 0x80000010
    let w := s.wakeUp
    (s.Takes (Reg.cqCfg 1 15).addr ∧ s.Takes (Reg.sqCfg 1 15).addr ∧ s.Takes (Reg.sqCfg 1 0).addr ∧
      s.Takes (Reg.cqCfg 1 1).addr) ∧
    (w.sliceState 1 = .active ∧ bitAt (w.reg (.cqCfg 1 15)) 31 = false ∧
      w.reservedFor (.cqCfg 1 15) (0x80000010 &&& (Reg.cqCfg 1 15).mask) = false ∧
      bitAt (w.reg (.sqCfg 1 15)) 31 = false ∧ w.reservedFor (.sqCfg 1 15) (0x80010010 &&& (Reg.sqCfg 1 15).mask) = false ∧
      w.cqEn 1 (fld 0x80010010 19 16) = true ∧ bitAt 0x80010010 30 = false) ∧
    (bitAt (w.reg (.sqCfg 1 0)) 31 = true ∧
      w.reservedFor (.sqCfg 1 0) ((w.reg (.sqCfg 1 0) &&& 0x7FFFFFFF) &&& (Reg.sqCfg 1 0).mask) = false ∧
      bitAt (w.reg (.cqCfg 1 1)) 31 = true ∧
      w.reservedFor (.cqCfg 1 1) ((w.reg (.cqCfg 1 1) &&& 0x7FFFFFFF) &&& (Reg.cqCfg 1 1).mask) = false ∧
      ((List.range 16).all fun k => !w.sqEn 1 k || decide (w.cqOf 1 k ≠ 1)) = true) :=
  ⟨⟨takes (by decide +kernel), takes (by decide +kernel), takes (by decide +kernel), takes (by decide +kernel)⟩,
    by decide +kernel, by decide +kernel⟩

/-- An SQ of protection class in a slice that permits it (R74). -/
theorem witness_protectionQueue :
    let s := hostPart.setReg (.perm 1) 1
    s.wakeUp.reservedFor (.sqCfg 1 1) (0xC0000010 &&& (Reg.sqCfg 1 1).mask) = false ∧ s.wakeUp.cqEn 1 (fld 0xC0000010 19 16) = true ∧
      bitAt 0xC0000010 30 = true ∧ bitAt (s.wakeUp.reg (.perm 1)) 0 = true := by decide +kernel

/-- Entries gathered to their age, an unannounced entry at its age, a vector masked with a message waiting, and one
without (R101, R103, R654). -/
theorem witness_entries :
    let s := ((hostPart.onCq 1 0 fun c => { c with gather := [{ words := [] }] }).setReg .hifCoal 100).setReg (.cqMod 1 0) 0x20003
    let s : State := { s with
      tim := { s.tim with elapsed := 3000 }, hif := { s.hif with pba := [(2047, true)], msix := [(2047, { mask := true })] } }
    ((s.cq 1 0).gather ≠ [] ∧ (s.cq 1 0).err = false ∧ (s.cq 1 0).since + fld (s.reg .hifCoal) 10 0 ≤ s.tim.elapsed) ∧
    (fld (s.reg (.cqMod 1 0)) 9 0 ≠ 0 ∧ bitAt (s.reg (.cqCfg 1 0)) 30 = true ∧ (s.cq 1 0).unsig ≠ 0 ∧
      (s.cq 1 0).oldest + fld (s.reg (.cqMod 1 0)) 9 0 * 1000 = s.tim.elapsed) ∧
    (s.up = true ∧ mapGet false s.hif.pba 2047 = true ∧ mapGet false s.hif.pba 0 = false) := by decide +kernel

/-! Registers -/

theorem witness_badAccess : part.up = true := rfl

/-- Every pair of R20 that nothing freezes, on a part that takes the writes. -/
theorem witness_pairs : (plainPairs.all fun f => takesNow part (f false).addr && takesNow part (f true).addr
    && decide (part.pwr.st ≠ .sleep)) = true := by decide +kernel

/-- A counter of a block, a pair written in part, and the counters of an engine (R21, R290). -/
theorem witness_captured :
    let s : State := { part with
      rng := { part.rng with blocks := 0x1_0000_0002 }, loHeld := [(0x108, 7)] }
    (s.up = true ∧ s.pwr.st ≠ .sleep ∧ s.ended = false) ∧
    (0x70030 % 8 = 0 ∧ s.wide 0x70030 = some 0x1_0000_0002 ∧ regAt 0x70030 = none ∧ mapFind s.loHeld 0x70030 = none) ∧
    (0x108 % 8 = 0 ∧ s.wide 0x108 = some 0 ∧ (regAt 0x108).isSome = true ∧ s.mpInService = true) ∧
    ((s.engine 70).unit ≠ .absent ∧ engineAt 0x1D8020 = some (70, 0x20) ∧ engineAt 0x1D8028 = some (70, 0x28) ∧
      regAt 0x1D8020 = none) := by decide +kernel

/-- The first and the last RWS register of the map: a word held at the last cycle of its window, past it, and nothing
held (R22, R23). -/
theorem witness_shadow :
    ([Reg.sysCommit, .lcsTransition, .mpCmd, .slcCtrl 127, .monCfg 19].all fun r =>
      let s : State := { part with
        held := [(r.addr, (5, 0))], tim := { part.tim with elapsed := 64 } }
      r.isRws && decide (regAt r.addr = some r) && decide (regAt (r.addr + 4) = some (.inv r.addr))
        && takesNow s r.addr && takesNow s (r.addr + 4) && decide (mapFind s.wakeUp.held r.addr = some (5, 0))
        && decide (s.wakeUp.tim.elapsed ≤ 0 + 64) && decide (part.wakeUp.held = []) && decide (part.pwr.st ≠ .sleep)) = true ∧
    ((5 : Word) ≠ ~~~5) ∧
    (part.reservedFor .sysCommit (0x10000000 &&& Reg.sysCommit.mask) = false ∧ part.commandBlocked .sysCommit = false) ∧
    (part.reservedFor (.slcCtrl 127) (0x50000000 &&& (Reg.slcCtrl 127).mask) = false ∧ part.commandBlocked (.slcCtrl 127) = false ∧
      outside 1 5 (fld (0x50000000 &&& (Reg.slcCtrl 127).mask) 31 28) = false ∧
      outside 1 5 (fld (0x60000000 &&& (Reg.slcCtrl 127).mask) 31 28) = true) := by
  decide +kernel

/-- Plain registers with an encoding that is reserved and one that is not, and the registers of a snapshot set (R27,
R574). -/
theorem witness_plain :
    ([Reg.hifCoal, .schPoll, .schIdlePoll, .evrFlood, .rngWaitLimit, .limit 1, .mvec 1, .cqMod 1 15].all fun r =>
      decide (regAt r.addr = some r) && takesNow part r.addr
        && (match r.sliceOf with | some m => part.present m | none => true)) = true ∧
    (part.reservedFor .hifCoal 2001 = true ∧ part.reservedFor .hifCoal 2000 = false ∧
      part.reservedFor .schPoll 199 = true ∧ part.reservedFor .schPoll 200 = false) ∧
    ([Reg.snapCtrl 7, .snapMatch 7, .snapReg 7 7].all fun r =>
      decide (regAt r.addr = some r) && takesNow part r.addr && !part.reservedFor r (8 &&& r.mask)) = true := by
  decide +kernel

/-- Staged registers of a block and of a slice, with room in the table (R621, R628). -/
theorem witness_staged :
    ([(Reg.schProfile, 0x110#32), (.share 1, 7), (.depth 64, 262144), (.classcap 1, 0)].all fun c =>
      c.1.isRwc && decide (regAt c.1.addr = some c.1) && takesNow part c.1.addr
        && (match c.1.sliceOf with | some m => part.present m | none => true)
        && !part.reservedFor c.1 (c.2 &&& c.1.mask)) = true ∧
    part.nvm.commit ≠ .armed ∧ part.nvm.staging.length < 512 := by decide +kernel

/-! The scheduler -/

/-- A job of slice 1 whose one step waits for a VCE: an ML-KEM decapsulation. -/
def readyJob : Job := { kernelJob with started := false, steps := [{ cls := some .vce, st := .ready }] }

/-- A job that waits for scratch, one at its not-before µs, and ones at their expiry tick: in an open flag wait, before
their start and after it (R200, R238, R239). -/
theorem witness_heldWaits :
    let x : Job := { readyJob with stage := .held, needScratch := true, notBefore := some 0, expiry := some 0 }
    let s := withJob x
    s.job? 0 = some x ∧ x.stage = .held ∧ x.needScratch = true ∧
      (s.sch.jobs.all fun e => !decide (e.1 < 0 ∧ e.2.stage = .held) || !e.2.needScratch) = true ∧ 0 ≤ s.us ∧ s.onTick = true ∧
      x.notBefore = some 0 ∧ x.expiry = some 0 ∧ x.waitFlags = false ∧ x.started = false ∧
      ({ x with waitFlags := true } : Job).waitFlags = true ∧ kernelJob.started = true := by decide +kernel

/-- A blob of 100 bytes with a secret body, its body of 20 bytes in field 36. -/
def someBlob : Bytes := zeros 6 ++ leBytes 2 0x0511 ++ zeros 28 ++ leBytes 4 20 ++ zeros 60

/-- Keys that are read from the host and from the window (R90, R427, R431). -/
theorem witness_keyloads :
    let host : Job := { readyJob with stage := .keyload, desc := { readyJob.desc with keyref := 0x1000 } }
    let window : Job := { host with desc := { host.desc with keyref := 0x4000_0000_0000_0040 } }
    let s := windowPart window {}
    keyForm host.desc.keyref = .host 0x1000 ∧ someBlob.length = 100 ∧ (withJob host).canServe 4 = true ∧
      (withJob host).job? 0 = some host ∧ host.stage = .keyload ∧ host.key = none ∧
      s.job? 0 = some window ∧ window.stage = .keyload ∧ window.key = none ∧ keyForm window.desc.keyref = .window 0x40 ∧
      s.groupsWait (s.blobRange 1 0x40).1 (s.blobRange 1 0x40).2 = false := by decide +kernel

/-- Jobs that wait for an instance and for a fresh block, the block granted and still to come, and the limit (R476,
R477). -/
theorem witness_entropyWaits :
    let x : Job := { readyJob with stage := .entropyWait }
    let y : Job := { x with desc := { opc := 0x4010 } }
    let s := withJob y
    let s1 : State := { s with rng := { s.rng with granted := [(0, zeros 48)] } }
    let s2 : State := { s with rng := { s.rng with pool := [zeros 48], waiting := [.job 0 false] } }
    let s3 : State := { s with sch := { s.sch with tickEl := 1000000000 }, tim := { s.tim with elapsed := 1000000000 } }
    let z : Job := { readyJob with stage := .keyload, harvestWait := true }
    let s4 : State := { withJob z with rng := { part.rng with ready := false } }
    (x.harvestWait = false ∧ y.harvestWait = false ∧ (withJob x).job? 0 = some x ∧ s.job? 0 = some y ∧ s2.rng.pool = zeros 48 :: []) ∧
      (s4.job? 0 = some z ∧ z.loadWaits = true ∧ s4.canServe 4 = false ∧ s4.onTick = true ∧ z.waitUntil ≤ s4.tim.elapsed ∧
        s4.entropyFor 0 z = none) ∧
      (x.takesFresh = false ∧ (withJob x).canRun x = true) ∧ (y.takesFresh = true ∧ s1.rng.granted = [(0, zeros 48)]) ∧
      (s2.rng.granted = [] ∧ s2.rng.ready = true ∧ nextFresh s2.rng.waiting = some (.job 0 y.prot)) ∧
      y.waitUntil ≤ s3.tim.elapsed ∧ s3.onTick = true ∧ s3.entropyFor 0 y = none ∧ (s1.entropyFor 0 y).isSome = true := by decide +kernel

/-- VCE 0 with an empty slot and a step for it; and VCE 0 with a staged job that one of a lower PRIO value displaces, as
LEGACY allows while no VCE has an empty slot (R203, R206, R208). -/
theorem witness_dispatch :
    let s := withJob readyJob
    let staged : Job := { readyJob with
      desc := { readyJob.desc with prio := 3 }, steps := [{ cls := some .vce, st := .staged, engine := 0 }] }
    let t : State := { (s.setReg (.share 1) 0x40000001) with
      engines := [(0, { unit := .active, logical := 0, incoming := some (1, 0) })]
      sch := { s.sch with jobs := [(0, readyJob), (1, staged)], nextJob := 2 } }
    (s.up = true ∧ s.awake = true ∧ s.schStopped = false ∧ (s.engine 0).takes = true ∧ s.swapWaits 0 = false ∧ s.rbUsed < 65536 ∧
      s.job? 0 = some readyJob ∧ s.movesTo 0 = none ∧ s.slotEmpty 0 = true ∧ s.choose 0 = some (0, 0)) ∧
    (t.up = true ∧ t.awake = true ∧ t.schStopped = false ∧ (t.engine 0).takes = true ∧ t.swapWaits 0 = false ∧ t.rbUsed < 65536 ∧
      t.job? 0 = some readyJob ∧ t.movesTo 0 = none ∧ t.slotEmpty 0 = false ∧ t.displaces 0 = some (0, 0)) := by
  decide +kernel

/-- In the LATENCY profile a protection-class job staged behind the running job of VCE 31, which is reserved, moves to
VCE 0, which runs nothing (R223). -/
theorem witness_moves :
    let held : Job := { readyJob with prot := true, steps := [{ cls := some .vce, st := .staged, engine := 31 }] }
    let s := ((withJob held).setReg .schProfile 0x101).onEngine 31 fun y =>
      { y with incoming := some (0, 0), running := some (7, 0) }
    s.profile = 1 ∧ s.reserved 31 = true ∧ s.job? 0 = some held ∧ s.rbUsed < 65536 ∧ (s.engine 0).takes = true ∧ s.swapWaits 0 = false ∧
      s.movesTo 0 = some (31, 0, 0) := by decide +kernel

/-- A job whose key slot, the last one, reads well and reads with an error, and one of a session whose second key does
(R36, R432, R681). -/
theorem witness_badKeySlot :
    let x : Job := { readyJob with key := some 16383 }
    let good : StagedData := { input := [1] }
    let bad : StagedData := { input := [1], keyBad := true }
    let other : StagedData := { input := [1], otherBad := true }
    let s := withJob x
    let y : Job := { x with input := some (fit x.desc.inLen good.input), subject := good.subject, readAt := none }
    let z : Job := { lastStep 0x20 3 with desc := { opc := 0x2030, auxAddr := 5 } }
    let k : KeySlot := { inUse := true, owner := 1 }
    let t : State := { (withJob z).setReg (.sess 1) 0x100 with
      kmg := { part.kmg with slots := [(3, k), (4, k)], sessions := [(5, { st := .active, key := 2 ^ 31 + 3, keyNext := 2 ^ 31 + 4, nextValid := true })] } }
    s.job? 0 = some x ∧ x.stage ≠ .done ∧ x.stage ≠ .held ∧ good.keyBad = false ∧ good.otherBad = false ∧ bad.keyBad = true ∧
      (s.slotsRead x).head? = some 16383 ∧ y.subjectRead = [] ∧ (s.putJob 0 y).slotsRead y = [16383] ∧
      (s.slot 16383).lost = false ∧ (s.putJob 0 y).deliverable y = true ∧
      (other.keyBad = false ∧ other.otherBad = true ∧ t.job? 0 = some z ∧ z.stage ≠ .done ∧ z.stage ≠ .held ∧
        (t.slotsRead z).getLast? = some 4) := by decide +kernel

/-- A corrected error of VCE 0 and a row marked in engine 70; the sources beside them are no engines (R569, R571). -/
theorem test_countRowEvent :
    ((State.reset.countRowEvent 0x2103 []).engine 0).corr = 1 ∧ ((State.reset.countRowEvent 0x3335 []).engine 70).marked = 1 ∧
      State.reset.countRowEvent 0x20FB [] = State.reset ∧
      State.reset.countRowEvent 0x333D [] = State.reset.markShared 103 := by decide +kernel

/-- A step that starts on engine 70, and one of the scheduler's own (R199, R219). -/
theorem witness_starts :
    let x : Job := { readyJob with desc := { opc := 0x1000 }, steps := [{ cls := some .ste, st := .staged, engine := 70 }] }
    let s := (withJob x).onEngine 70 fun y =>
      { y with unit := .active, incoming := some (0, 0), loaded := true, gated := false }
    let n : Job := { lastStep 0x50 0 with started := false, steps := [{ st := .ready }] }
    let t := withJob n
    (s.job? 0 = some x ∧ s.awake = true ∧ s.schStopped = false ∧ x.stage = .active ∧ s.canRun x = true ∧ x.desc.fam = 0x10 ∧
      (s.engine 70).incoming = some (0, 0) ∧ (s.engine 70).mayStart = true ∧ (s.engine 70).freeSlot ≠ none ∧
      s.imageWaits 0 x = false ∧ s.lendFirst 70 = false ∧ x.waitCommit = false ∧ x.areas = []) ∧
    (({ x with areas := [{ step := 0, cde := false, num := 0 }], steps := [{ cls := some .ste, st := .staged, engine := 70, restore := true }] } :
        Job).areas.all fun a => a.bad.isNone) = true ∧
    (t.awake = true ∧ t.schStopped = false ∧ n.stage = .active ∧ n.waitCommit = false ∧ (n.steps.map PStep.st) = [.ready] ∧
      (n.steps.map PStep.cls) = [none] ∧ (n.steps.map PStep.restore) = [false] ∧ t.job? 0 = some n ∧ t.canRun n = true ∧ n.desc.fam = 0x50 ∧ n.desc.inLen = 0 ∧ t.rbWaits 0 n = false) := by
  decide +kernel

/-- The last row of a stream, and an HSE that a signature of a message above 1 KiB may have (R272, R278, R397). -/
theorem witness_stream :
    let v : Vce := { streaming := true, arrived := 159, ctx := { inLen := 160 * 576 } }
    (v.streaming = true ∧ v.arrived < v.released + v.ctx.windowRows ∧ v.arrived < ceilDiv v.ctx.inLen 576) ∧
    (let x : Job := { lastStep 2 1 with input := some (zeros 1025) }
     let s := (kernelPart x {}).onEngine 34 fun y => { y with gated := false }
     clsOf 0 = .vce ∧ clsOf 34 = .hse ∧ (s.engine 0).running = some (0, 0) ∧ s.job? 0 = some x ∧ x.stage = .active ∧
       (s.lentMessage x).map (·.1.length) = some 1025 ∧ (s.vce 0).mu = [] ∧ (s.engine 34).takes = true ∧
       (s.engine 34).gated = false ∧ (s.engine 34).thawing = false ∧ (s.engine 34).running = none ∧ (s.engine 34).lend = none ∧
       s.reserved 34 = false ∧ ((List.range 71).all fun i => (s.engine i).lend.isNone) = true) := by decide +kernel

/-- An abort that is due, a stop by HALT that finds a save area, and a save at its end (R222, R225, R372). -/
theorem witness_safePoints :
    let x : Job := { kernelJob with abort := some (fail .sliceQuiesced) }
    let v : Vce := { safe := true }
    let s := kernelPart kernelJob v
    let stop := s.onEngine 0 fun y => { y with stopReq := true }
    ((kernelPart x v).atSafePoint 0 = true ∧ stop.atSafePoint 0 = true ∧ stop.limitReached 0 (stop.vce 0) = false ∧
      clsOf 0 = .vce ∧ kernelJob.stage ≠ .done ∧ (kernelJob.steps.length = 1)) ∧
    ((kernelPart x v).engine 0).running = some (0, 0) ∧ (kernelPart x v).job? 0 = some x ∧ x.stage ≠ .done ∧
      ((kernelPart x v).slice 1).st ≠ .quiescing ∧ (((kernelPart x v).onSlice 1 fun y => { y with st := .quiescing }).slice 1).st = .quiescing ∧
      s.imageWaits 0 kernelJob = false ∧ kernelJob.abort = none ∧ kernelJob.computed = none ∧ (stop.engine 0).stopReq = true ∧ (stop.engine 0).saving = false ∧
      stop.areasUsed 0 < (stop.saveAreas (clsOf 0 = .cde)).1 ∧
      ((s.onEngine 0 fun y => { y with saving := true }).engine 0).saving = true := by decide +kernel

/-- Results of no engine and of the port served next, a DONE job still to be frosted, and entries that can and cannot be
issued (R220, R227). -/
theorem witness_results :
    let r : Result := { out := zeros 8 }
    let x : Job := { lastStep 2 0 with computed := some r }
    let s := (withJob x).onEngine 35 fun y => { y with results := [(0, 1)] }
    let d : Job := { lastStep 2 0 with stage := .done, desc := { ordered := true, setev := true } }
    let e : State := { part with
      sch := { part.sch with jobs := [(0, { d with stage := .active }), (1, d)], nextJob := 2 } }
    ((withJob x).resultOn 0 = none ∧ s.resultOn 0 = some 35 ∧ s.nextPort = some 35 ∧ s.waitingResult 35 = some 0) ∧
    (d.stage = .done ∧ ({ d with frosted := false } : Job).frosted = false ∧
      (withJob { d with frosted := false }).runningOn 0 = none) ∧
    ((withJob d).releasable 0 d = true ∧ d.desc.opc ≠ 0x5010) ∧ e.job? 1 = some d ∧ e.releasable 1 d = false ∧
    (e.sch.jobs = [(0, { d with stage := .active })] ++ (1, d) :: [] ∧ e.flowAhead 1 d = true ∧ d.rbEntry = false ∧
      e.rbUsed < 65536) := by decide +kernel

/-- The first of two steps ends, the second waits for it alone (R201). -/
theorem witness_internalFlag :
    let x : Job := { lastStep 0xA 1 with steps := [{ cls := some .vce, st := .running }, { deps := [0] }] }
    let s := (withJob x).onEngine 0 fun y => { y with running := some (0, 0) }
    s.awake = true ∧ x.stage = .active ∧ x.computed = none ∧ x.waitCommit = false ∧ (x.steps.map PStep.st)[0]? = some .running ∧
      1 < x.unfinished.length ∧ s.stepComputes x 0 = true ∧ s.pubStep x 0 = false := by decide +kernel

/-- A tick with flags requested, and a window that opens, of a slice with CAPPED and of one without (R212, R214). -/
theorem witness_ticks :
    let s := part.onSlice 1 fun x => { x with flagReqs := [{ set := true, mask := 3 }], usage := [(0, 5)] }
    let t := s.setReg (.share 2) 0x80000001
    (s.timed = true ∧ s.tim.frac < 2 ^ 32 ∧ 0 < s.increment ∧ s.cycleNs * s.increment ≤ 1000 * 2 ^ 32 ∧ s.up = true ∧
      s.awake = true ∧ s.ended = false ∧ s.nvm.commit ≠ .armed ∧ s.tmp.seq = none ∧ s.present 1 = true ∧
      ∀ m < 4, bitAt (s.reg (.evmap 1 m)) 31 = false) ∧
    (t.sch.window ≤ t.us / 1000 ∧ t.present 2 = true ∧ t.capped 2 = true ∧ t.capped 1 = false) := by decide +kernel

/-- The entitlements of the example of chapter 05: of slices with SHARE 3 and 1, and 32 VCEs (R213). -/
theorem test_entitlement_example :
    let s := (((part.setReg (.share 2) 3).setReg (.share 7) 0x80000001).setReg (.sqCfg 2 0) 0x80000004).setReg (.sqCfg 7 0)
      0x80000004
    (s.entitlement 2 .vce, s.entitlement 7 .vce) = (24000000, 8000000) := by decide +kernel

/-- A stateful key of 128 leaves with 64 committed. -/
def stateful : StfRecord :=
  { valid := true, keyId := zeros 16, total := 128, log := [64], next := 63, built := true }

/-- A stateful signature about to start on VCE 0, with the last committed leaf left (R136). -/
theorem witness_leaf :
    let x : Job := { readyJob with desc := { opc := 0x0410 }, key := some 5, steps := [{ cls := some .hse, st := .staged, engine := 34 }] }
    let s := (withJob x).onEngine 34 fun y =>
      { y with incoming := some (0, 0), loaded := true, gated := false }
    let s : State := { s with kmg := { s.kmg with slots := [(5, { inUse := true, keyId := zeros 16 })], stf := [(3, stateful)] } }
    s.job? 0 = some x ∧ s.awake = true ∧ s.schStopped = false ∧ x.stage = .active ∧ s.canRun x = true ∧ x.desc.fam = 4 ∧
      x.desc.op = 1 ∧ x.leaf = none ∧ s.imageWaits 0 x = false ∧ s.lendFirst 34 = false ∧ x.waitCommit = false ∧ (s.engine 34).incoming = some (0, 0) ∧ (s.engine 34).mayStart = true ∧
      (s.engine 34).freeSlot ≠ none ∧ s.recordOf (s.slot 5).keyId = some 3 ∧ s.record? 3 = some stateful ∧
      stateful.next ≠ stateful.total ∧ stateful.next < stateful.log.getLastD 0 := by decide +kernel

/-- Commits that a job waits for and that none waits for, and a first reservation (R450, R453, R454). -/
theorem witness_commits :
    let r : StfRecord := { stateful with pending := true, target := 128, next := 64 }
    let x : Job := { kernelJob with key := some 5, waitCommit := true }
    let s : State := { part with kmg := { part.kmg with slots := [(5, { inUse := true, keyId := zeros 16 })], stf := [(3, r)] } }
    let t : State := { s with sch := { s.sch with jobs := [(0, x)], nextJob := 1 } }
    (s.record? 3 = some r ∧ r.valid = true ∧ r.close = 0 ∧ r.pending = true ∧ r.heldBack = false ∧ r.firstOf = none ∧
      r.log.length < 9 ∧ s.commitWaiter r = none) ∧
    (t.commitWaiter r = some 0 ∧ t.job? 0 = some x ∧ x.stage ≠ .done ∧ t.recordOf r.keyId = some 3) ∧
    (({ r with firstOf := some 0 } : StfRecord).firstOf = some 0 ∧ s.job? 0 = none ∧ s.commitsHeld = false) := by decide +kernel

/-- A signature whose key has no traversal state yet (R139). -/
theorem witness_traversal :
    let r : StfRecord := { stateful with built := false }
    let x : Job := { kernelJob with desc := { opc := 0x0410 }, key := some 5 }
    let s := (withJob x).onEngine 33 fun y => { y with unit := .active, gated := false }
    let s : State := { s with kmg := { s.kmg with slots := [(5, { inUse := true, keyId := zeros 16 })], stf := [(3, r)] } }
    let t := s.onEngine 33 fun y => { y with build := some (3, 0) }
    (s.job? 0 = some x ∧ x.stage = .active ∧ s.traversalReady x = false ∧ s.idleVce x.prot = some 33 ∧ s.awake = true ∧
      s.recordOf (s.slot 5).keyId = some 3 ∧ s.record? 3 = some r ∧
      ((List.range 71).all fun k => (s.engine k).build.isNone) = true) ∧
    ((t.engine 33).build = some (3, 0) ∧ 0 ≤ t.tim.elapsed ∧ t.record? 3 = some r) := by decide +kernel

/-! Engines, power and the start -/

/-- `kernelJob` on VCE 0, in its first attempt. -/
def enginePart : State := kernelPart kernelJob plainVce

/-- An engine fault, a machine check in ROM and in the customer window, a watchdog that has just run out, a run limit
reached, and a unit in quarantine with two and with three recent checks (R286, R341, R353, R373, R376, R379). -/
theorem witness_faults :
    let wd := enginePart.onVce 0 fun v => { v with wd := 257 }
    let cu := kernelPart customerJob { customerVce with
      ctx := { kind := .customer, limit := 65536 }, cycles := 65536, safe := true }
    let q := fun l => part.onEngine 70 fun y => { y with unit := .quarantined, checks := l }
    ((enginePart.engine 0).unit = .active ∧ (enginePart.engine 0).running = some (0, 0) ∧
      enginePart.job? 0 = some kernelJob ∧ kernelJob.abort = none ∧ kernelJob.stage ≠ .done ∧
      ((enginePart.onEngine 70 fun y => { y with unit := .active }).engine 70).unit = .active ∧ 9 ∈ causesOf (clsOf 0) ∧
      9 ∈ causesOf (clsOf 70)) ∧
    (clsOf 0 = .vce ∧ microRegion 0x4FFF = 1 ∧ microRegion 0x5000 = 2) ∧
    ((wd.engine 0).running ≠ none ∧ 257 ≤ (wd.vce 0).wd ∧ (wd.vce 0).lent = false) ∧
    ((cu.vce 0).ctx.kind = .customer ∧ (cu.vce 0).safe = true ∧ (cu.engine 0).running = some (0, 0) ∧ (cu.vce 0).ctx.limit ≠ 0 ∧
      (cu.vce 0).waiting = false ∧ (cu.vce 0).lent = false ∧ customerJob.abort = none ∧ (cu.vce 0).ctx.limit ≤ max (cu.vce 0).cycles (engCycles (cu.tim.elapsed - (cu.engine 0).since)) ∧
      cu.job? 0 = some customerJob ∧ customerJob.stage ≠ .done) ∧
    ([[90000, 80000], [90000, 80000, 3600], [90000, 80000, 3599]].map fun l => thriceIn24h ((q l).engine 70).checks) =
      [false, true, false] ∧
    (((q []).engine 70).unit = .quarantined ∧ ((q []).engine 70).halted = false ∧ ((q []).engine 70).contained = false ∧
      ((q []).engine 70).retiring = 0 ∧ thriceIn24h ((q []).engine 70).faults = false) := by
  decide +kernel

/-- An idle unit and a busy one to retire, a spare and a retired unit of its class, low samples with a spare and without
one, and a retirement that has waited 24 hours (R45, R288, R289, R641). -/
theorem witness_places :
    let low := fun (e : Nat) => ({ part with nvm := { part.nvm with aging := [(e, [(10, 149)])] } }).onEngine e fun y =>
      { y with unit := .active, gated := false }
    let old := part.onEngine 3 fun y => { y with unit := .retired }
    let none_ := (low 69).onEngine 70 fun y => { y with unit := .retired }
    let wait : State := { none_ with nvm := { part.nvm with waiting := [(69, 0)] }, pwr := { part.pwr with opSec := 86400 } }
    let drained := part.onEngine 3 fun y => { y with retiring := 2 }
    ((part.engine 3).unit = .active ∧ (part.engine 3).running = none ∧ (part.engine 3).build = none ∧
      (part.engine 3).results = [] ∧ (enginePart.engine 0).running ≠ none ∧ (enginePart.engine 0).unit = .active ∧
      (drained.engine 3).unit = .active ∧ (drained.engine 3).retiring ≠ 0 ∧ (drained.engine 3).running = none ∧
      (drained.engine 3).build = none ∧ (drained.engine 3).results = []) ∧
    ((old.engine 32).unit = .spare ∧ (old.engine 3).unit = .retired ∧ (old.engine 3).logical ≠ 0xFF ∧ clsOf 32 = clsOf 3 ∧
      old.awake = true ∧ ((List.range 71).all fun i => (old.engine i).lend.isNone) = true) ∧
    ((low 69).awake = true ∧ ((low 69).engine 69).unit = .active ∧ ((low 69).engine 69).running = none ∧
      ((low 69).engine 69).gated = false ∧ ([10, 40] : List Nat).foldl min 0xFF = 10 ∧
      mapGet [] (low 69).nvm.aging 69 = [(10, 85 + 64)] ∧ 0 < (low 69).spareUnits (clsOf 69) ∧
      none_.spareUnits (clsOf 69) = 0 ∧ (none_.engine 69).unit = .active ∧ ((low 69).engine 69).results = [] ∧ ((low 69).engine 69).build = none ∧
      (((low 69).onEngine 69 fun y => { y with build := some (3, 0) }).engine 69).build ≠ none ∧
      (((low 69).onEngine 69 fun y => { y with results := [(0, 0)] }).engine 69).results ≠ []) ∧
    (wait.nvm.waiting = [(69, 0)] ∧ 0 + 86400 ≤ wait.pwr.opSec) := by decide +kernel

/-- An idle engine at GATE_US, a gated one with a job staged, and one that thaws (R592, R593). -/
theorem witness_gating :
    let s : State := { (part.onEngine 70 fun y => { y with gated := false }) with tim := { part.tim with elapsed := 10000000 } }
    let t := part.onEngine 1 fun y => { y with incoming := some (0, 0) }
    ((s.engine 70).unit ≠ .absent ∧ (s.engine 70).gated = false ∧ (s.engine 70).thawing = false ∧ (s.engine 70).idle = true ∧
      s.reserved 70 = false ∧ bitAt (s.reg .pwrCtrl) 30 = false ∧ s.up = true ∧ s.awake = true ∧
      (s.engine 70).idleAt + fld (s.reg .pwrCtrl) 13 0 * 1000 ≤ s.tim.elapsed) ∧
    ((t.engine 1).gated = true ∧ (t.engine 1).unit = .active ∧ t.awake = true ∧ (t.engine 1).incoming ≠ none) ∧
    (let z := t.onEngine 1 fun y => { y with thawing := true }
     (z.engine 1).thawing = true ∧ (z.engine 1).unit = .active ∧ clsOf 1 = .vce ∧
       lowSample (([11] : List Nat).foldl min 0xFF, 80) = false ∧
       ((List.range 71).all fun i => (z.engine i).lend.isNone && (s.engine i).lend.isNone) = true) := by decide +kernel

/-- Parts that a reset, SLEEP, WAKE, a power failure and its end, and a loss of power with and without a supply of the AON
domain meet (R595 to R598). -/
theorem witness_power :
    let doze : State := { (part.setReg .pwrCtrl 0x8000400A) with
      pwr := { part.pwr with st := .doze }, tim := { part.tim with elapsed := 1000000 } }
    part.powered = true ∧ part.lcs.trans = none ∧
      ({ doze with pwr := { doze.pwr with d3hot := false } } : State).maySleep = true ∧
      ({ part with pwr := { part.pwr with st := .doze, d3hot := true } } : State).maySleep = true ∧
      ({ part with pwr := { part.pwr with st := .sleep } } : State).pwr.st = .sleep ∧ part.timed = true ∧
      part.pwr.pfail = false ∧
      ({ part with lcs := { part.lcs with trans := some { step := 2, from_ := 5, into := 6 } } } : State).lcs.trans ≠ none ∧
      ({ part with pwr := { part.pwr with pfail := true } } : State).timed = true ∧
      ({ part with pins := { part.pins with vbat := true } } : State).pins.vbat = true := by decide +kernel

theorem witness_sysReset : part.Takes 0x10 := takes (by decide +kernel)

/-- A part held in reset whose power is newly applied, with an intact anchor and without one, and one that kept its power
(R599, R611, R661). -/
theorem witness_start :
    let held : State := { part with pwr := { part.pwr with inReset := true, ready := false } }
    State.reset.pwr.inReset = true ∧ State.reset.newPower = true ∧ ({} : StartData).testmode = false ∧
      ({} : StartData).inOrder = true ∧ held.pwr.inReset = true ∧ held.newPower = false ∧ part.pwr.inReset = false ∧
      (let w : State := { State.reset with
        pwr := { State.reset.pwr with st := .winter }, aon := { intact := true, anchor := some { time := 0, counter := 0, freq := 0 } } }
       w.newPower = true ∧ w.aon.intact = true ∧ w.aon.anchor ≠ none) ∧
      ({} : StartData).failAt = 0 ∧
      (let f : State := { held with aon := { part.aon with intact := true, latch := true, store := [{ time := 0, mon := 8, resp := 4, count := 1 }] } }
       f.aon.intact = true ∧ f.pwr.inReset = true ∧ f.newPower = false ∧ f.aon.latch = true ∧ f.aon.store ≠ []) := by decide +kernel

/-! Code, settings, life cycle and debug -/

/-- `part` with a command word accepted for a shadowed register. -/
def commanded (r : Reg) (w : Word) : State := { part with accepted := [(r.addr, w)] }

/-- The command words of packages, owner keys and the MP block, and the states that they find (R386, R509, R536). -/
theorem witness_packages :
    ([(Reg.pkgCmd, 1), (.pkgCmd, 2), (.ownerCmd, 1), (.ownerCmd, 2), (.mpCmd, 1), (.mpCmd, 2), (.mpCmd, 3)].all fun c =>
      let s := commanded c.1 (BitVec.ofNat 32 (c.2 * 2 ^ 28))
      decide (mapFind s.accepted c.1.addr = some (BitVec.ofNat 32 (c.2 * 2 ^ 28)))
        && decide (fld (BitVec.ofNat 32 (c.2 * 2 ^ 28)) 31 28 = c.2) && !s.pwr.pfail && s.nvm.op.isNone && s.mpInService && decide (s.maxErase 5 + 64 < 1000000)) = true ∧
    (part.lcs.code = 5 ∧ part.mp.sepFuse = false ∧ part.mp.authKey = [] ∧ (zeros 1952).length = 1952) := by decide +kernel

/-- The first authority key, and a tariff that passes every check where the algorithm accepts its signature (R509,
R511). -/
theorem witness_tariff :
    (let s := (commanded .mpCmd 0x10000000).setReg .mpLen 2592
     (s.lcs.code = 3 ∨ s.lcs.code = 5) ∧ s.mp.authKey = [] ∧ s.mpLength = 2592 ∧ (zeros 2592).length = 2592) ∧
    (let s := (commanded .mpCmd 0x20000000).setReg .mpLen 3469
     let s : State := { s with code := { s.code with loaded := [4] }, mp := { s.mp with topTariff := 6 } }
     let b := tariff7 ++ zeros 3309
     s.code.loaded.contains 4 = true ∧ s.mpLength = 3469 ∧ b.length = 3469 ∧ tariffForm (b.take 160) = true ∧
       s.mp.topTariff < tariffVersion (b.take 160) ∧ s.logFull = false) := by decide +kernel

/-- STORE and DEFAULTS with no refusal and with one, and a place whose blocks can still be erased (R621, R625). -/
theorem witness_store :
    let s := commanded .nvmCmd 0x10000000
    mapFind s.accepted Reg.nvmCmd.addr = some 0x10000000 ∧ fld (0x10000000 : Word) 31 28 = 1 ∧ s.storeRefusal = 0 ∧
      s.nvm.op = none ∧ s.maxErase 0 + 4 < 1000000 ∧
      fld (0x20000000 : Word) 31 28 = 2 ∧ (commanded .nvmCmd 0x20000000).storeRefusal = 0 ∧
      State.storeRefusal { s with pwr := { s.pwr with pfail := true } } = 2 := by decide +kernel

/-- `part` with a staged share of slice 1 and profile, the commit in a state and a command accepted. -/
def stagedPart (c : CommitSt) (w : Word) : State :=
  let s := commanded .sysCommit w
  let n := { s.nvm with
    staging := [(Reg.schProfile.addr, 0x100), ((Reg.share 1).addr, 7)], commit := c, instant := 2 ^ 40 }
  { s with nvm := n, tim := { s.tim with st := .free, ns := 2 ^ 40 * 1000 } }

/-- The table of `stagedPart` is in its form. -/
theorem witness_staging (c : CommitSt) (w : Word) : stagingWf (stagedPart c w) := by
  refine ⟨rfl, fun e he => ?_⟩
  have he : e = (Reg.schProfile.addr, 0x100) ∨ e = ((Reg.share 1).addr, 7) := by simpa [stagedPart] using he
  rcases he with rfl | rfl
  · exact ⟨.schProfile, by decide +kernel⟩
  · exact ⟨.share 1, by decide +kernel⟩

/-- CHECK, APPLY_NOW, APPLY_AT for the first instant in range, DISCARD, the instant come, and the commands in IDLE (R629
to R635). -/
theorem witness_commit :
    (let s := stagedPart .staged 0x10000000
     mapFind s.accepted Reg.sysCommit.addr = some 0x10000000 ∧ fld (0x10000000 : Word) 31 28 = 1 ∧ s.nvm.commit = .staged) ∧
    (let s := stagedPart .checked 0x20000000
     fld (0x20000000 : Word) 31 28 = 2 ∧ s.nvm.commit = .checked ∧ s.checkSet = 1 ∧ bitAt 0x20000000 0 = false) ∧
    (let s := (stagedPart .checked 0x30000001).setReg (.commitAt false) 2
     let s := s.setReg (.commitAt true) 0x100
     fld (0x30000001 : Word) 31 28 = 3 ∧ s.nvm.commit = .checked ∧ s.tim.st ≠ .unset ∧ s.us + 2 = s.pair .commitAt) ∧
    (fld (0x40000000 : Word) 31 28 = 4 ∧ (stagedPart .checked 0x40000000).nvm.commit ≠ .idle) ∧
    (let s := stagedPart .armed 0
     s.nvm.commit = .armed ∧ s.onTick = true ∧ s.nvm.instant ≤ s.us ∧ s.checkSet = 1 ∧ s.nvm.storeAfter = false) ∧
    (commanded .sysCommit 0x10000000).nvm.commit = .idle := by decide +kernel

/-- A transition from PROVISION that passes every check, and one that fails the first (R528). -/
theorem witness_transition :
    let s : State := { commanded .lcsTransition 0x56 with kmg := { part.kmg with roots := [(3, []), (5, zeros 32)] } }
    mapFind s.accepted Reg.lcsTransition.addr = some 0x56 ∧ s.commitRuns = false ∧ s.lcs.words.length < 8 ∧ s.lcs.markers.length < 8 ∧
      s.transitionCheck (fld (0x56 : Word) 7 4) (fld (0x56 : Word) 3 0) = 0 ∧
      s.transitionCheck (fld (0x36 : Word) 7 4) (fld (0x36 : Word) 3 0) = 1 := by decide +kernel

/-- `part` under a grant with every right until the end of the first second. -/
def grantPart : State :=
  { part with dbg := { part.dbg with active := true, rights := 0x1FF, until_ := 1000000000 } }

/-- Challenges, a mailbox to present, and a grant and a challenge at their ends (R539, R540, R543). -/
theorem witness_grants :
    ([1, 2, 3].all fun n => decide (fld (BitVec.ofNat 32 (n * 2 ^ 28)) 31 28 = n)) = true ∧
    (commanded .dbgCmd 0x10000000).canServe 5 = true ∧
    State.canServe { commanded .dbgCmd 0x10000000 with rng := { part.rng with ready := false } } 5 = false ∧ grantPart.dbg.active = true ∧
    (let s : State := { grantPart with
       tim := { part.tim with ns := 1000000000, elapsed := 600000000000 }
       dbg := { grantPart.dbg with chal := some (zeros 32, 0) } }
     s.dbg.chal = some (zeros 32, 0) ∧ 0 + 600000000000 ≤ s.tim.elapsed ∧ s.dbg.until_ ≤ s.now) ∧
    (grantPart.clearBusy = false ∧ bitAt grantPart.dbg.rights 8 = true ∧ part.dbg.active = false) := by decide +kernel

theorem witness_clearTaken : part.Takes 0xA0088 := takes (by decide +kernel)

/-- The owner debug key of the token below. -/
def debugKey1 : Bytes := [1]

/-- The cells of a mailbox that holds a token: header, serial 0, challenge 0, limit 0 and the id of the key. -/
def tokenCells : SMap Byte :=
  [(0, 0x54), (1, 0x52), (2, 0x4C), (3, 0x43), (4, 1), (6, 0x3D), (7, 0x0D)] ++
    (List.range 16).map fun i => (64 + i, ((keyId debugKey1)[i]?).getD 0)

theorem keyId_length (k : Bytes) : (keyId k).length = 16 := by
  unfold keyId zeros fit
  split
  · simp
  · simp; omega

theorem mbox_cut (s : State) (o n : Nat) (h : o + n ≤ 3389) :
    cut (s.mboxBytes 3389) o n = (List.range n).map fun i => mapGet 0 s.dbg.mbox (o + i) := by
  apply List.ext_getElem
  · simp [cut, State.mboxBytes]; omega
  · intro i h1 h2
    simp [cut, State.mboxBytes]

/-- A token in the mailbox of a part whose owner debug key is its issuer (R586). -/
theorem witness_token :
    let s : State := { part with
      lcs := { part.lcs with debugKey := debugKey1 }
      dbg := { part.dbg with mbox := tokenCells, chal := some (zeros 32, 0) } }
    let k := s.mboxBytes 3389
    leAt k 0 4 = 0x434C5254 ∧ leAt k 4 2 = 1 ∧ leAt k 6 2 = 3389 ∧ cut k 8 16 = s.fuses.serial ∧
      s.dbg.chal.map (·.1) = some (cut k 24 32) ∧ s.lcs.debugKey ≠ [] ∧ cut k 64 16 = keyId s.lcs.debugKey ∧
      (s.lcs.code = 5 ∨ s.lcs.code = 6) := by
  intro s k
  have hc : ∀ o n, o + n ≤ 3389 → cut k o n = (List.range n).map fun i => mapGet 0 tokenCells (o + i) :=
    fun o n h => mbox_cut s o n h
  refine ⟨?_, ?_, ?_, ?_, ?_, by decide +kernel, ?_, .inl rfl⟩
  · rw [leAt, hc 0 4 (by decide)]; decide +kernel
  · rw [leAt, hc 4 2 (by decide)]; decide +kernel
  · rw [leAt, hc 6 2 (by decide)]; decide +kernel
  · rw [hc 8 16 (by decide)]; decide +kernel
  · rw [hc 24 32 (by decide)]; decide +kernel
  · rw [hc 64 16 (by decide)]
    show _ = keyId debugKey1
    apply List.ext_getElem
    · simp [keyId_length]
    · intro i h1 h2
      have hi : i < 16 := by simpa using h1
      have : mapGet 0 tokenCells (64 + i) = ((keyId debugKey1)[i]?).getD 0 := by
        clear h1 h2
        iterate 16
          rcases i with _ | i
          · rfl
        omega
      rw [List.getElem_map, List.getElem_range, this]
      simp [h2]

/-- Every action of DBG_ACT with its right and without a grant, on engines that it finds as it needs them (R541). -/
theorem witness_actions :
    let s := fun (w : Word) => { grantPart with accepted := [(Reg.dbgAct.addr, w)] }
    ([1, 2, 3, 4, 5, 6, 7].all fun n => let w := BitVec.ofNat 32 (n * 2 ^ 28 + 3)
      decide (fld w 31 28 = n) && decide (fld w 15 0 = 3) && decide (mapFind (s w).accepted Reg.dbgAct.addr = some w)) = true ∧
    ((List.range 9).all fun b => bitAt grantPart.dbg.rights b) = true ∧
    ((s 0x10000003).engine 3).unit = .active ∧ (s 0x10000003).reserved 3 = false ∧ (s 0x10000003).holdsMetrology 3 = false ∧
    (let t := (s 0x30000003).onEngine 3 fun y => { y with unit := .quarantined, halted := true }
     (t.engine 3).halted = true ∧ t.haltedVce = some 3 ∧ (t.katOn 3).1 = 1 ∧
       (let g : State := { t with dbg := { t.dbg with kat := some (3, 4) } }
        (g.katOn 3).1 = 4 ∧ ((g.onVce 3 fun v => { v with entered := false }).katOn 3).1 = 1)) ∧
    (((s 0x40000003).engine 32).unit = .spare ∧ clsOf 3 = clsOf 32 ∧ ((s 0x40000003).engine 3).running = none ∧
      ((s 0x40000003).engine 3).results = [] ∧ (((s 0x40000003).onEngine 3 fun y => { y with results := [(0, 1)] }).engine 3).results ≠ [] ∧
      (s 0x40000003).swapWaits 3 = true ∧ (s 0x40000003).swapWaits 4 = false) ∧
    ((s 0x70000003).sealedSource 3 = false ∧ fld 0x70002118 15 0 = 0x2118 ∧ codeSrc 0x2118 = 35 ∧
      (s 0x70002118).sealedSource 0x2118 = false ∧ codeCls 0x2118 ≠ 0xF) ∧
    ((List.range 71).all fun i => ((s 0x40000003).engine i).lend.isNone) = true ∧
    (grantPart.up = true ∧ grantPart.ended = false ∧ grantPart.pwr.st ≠ .sleep) := by decide +kernel

/-! Tamper, the journal, slices, randomness, context memory, time and ports -/

/-- Trips of a monitor that contains an engine, one without scope that turns to HALT, and one that purges (R549, R551). -/
theorem witness_trips :
    let s := (part.setReg (.monCfg 13) 0xA0080400).setReg (.monCfg 10) 0xC0100400
    (s.monLive 13 = true ∧ s.monCount 13 ≤ 4 ∧ s.alarmed 13 = false ∧ s.pwr.st ≠ .sleep ∧ s.response < 2 ∧ s.monResp 13 = 2 ∧
      tripScope 13 (.engine 3) = .engine 3 ∧ tripScope 13 .none = .all) ∧
    (s.monLive 10 = true ∧ s.monCount 10 ≤ 255 ∧ s.alarmed 10 = false ∧ s.monResp 10 = 4 ∧ s.response < 4 ∧
      ({ s with tmp := { s.tmp with outputs := true } } : State).pinsShow = true) ∧
    (let h : State := { s with pwr := { s.pwr with inReset := true } }
     h.pinsShow = true ∧ h.monLive 9 = true ∧ h.monLive 10 = false) ∧
    ({ s with tmp := { s.tmp with outputs := true, seq := some { step := 2 } }, aon := { s.aon with alarms := [(8, { resp := 4 })] } } : State).response = 4 := by decide +kernel

/-- Clearing GLITCH lets the steward test the engine that it contained (R551), and no other. -/
theorem test_containedReleased :
    let s : State := ({ part with aon := { part.aon with alarms := [(13, { resp := 2, scope := .engine 3 })] } }).onEngine 3
      fun y => { y with contained := true }
    ((s.clearOne 13 false).engine 3).contained = false ∧ ((s.clearOne 13 true).engine 3).contained = true ∧
      ((s.clearOne 12 false).engine 3).contained = true := by decide +kernel

/-- Alarms to clear whose conditions persist and have ceased, tests that start and are refused, the end of a test, a round
that is due, and a configuration accepted (R556, R558, R559, R567). -/
theorem witness_monitors :
    let s : State := { commanded .tmpClear 0xC01 with aon := { part.aon with alarms := [(0, {}), (10, {}), (11, {})] } }
    (accepts s .tmpClear 0xC01 ∧ s.tmp.seq = none ∧ keysRise s.engines = true ∧ bitAt 0xC01 10 = true ∧ (0x400 : BitVec 20).getLsbD 10 = true ∧
      s.windowEvents 15 = [] ∧ (s.onMon 15 fun x => { x with events := [0] }).windowEvents 15 = [0]) ∧
    (accepts (commanded .tmpTest 0x80000010) .tmpTest 0x80000010 ∧ bitAt 0x80000010 31 = true ∧ fld 0x80000010 4 0 = 16 ∧
      part.monEn 16 = true ∧ part.alarmed 16 = false ∧ part.tmp.testing = none ∧ fld 0x80000011 4 0 = 17) ∧
    (let t : State := { part with tmp := { part.tmp with testing := some 16 } }
     t.tmp.testing = some 16 ∧ t.tmp.round = []) ∧
    (let t : State := { part with pwr := { part.pwr with opSec := 86400 } }
     t.rng.ready = true ∧ t.tmp.round = [] ∧ t.tmp.testing = none ∧ t.tmp.roundAt + 86400 ≤ t.pwr.opSec ∧
       ((List.range 17).filter t.monEn).dropWhile t.alarmed = 6 :: ((List.range 17).filter t.monEn).tail ∧
       (let a : State := { t with aon := { t.aon with alarms := [(6, {})] } }
        ((List.range 17).filter a.monEn).dropWhile a.alarmed = ((List.range 17).filter t.monEn).tail)) ∧
    accepts (commanded (.monCfg 19) 0x80000000) (.monCfg 19) 0x80000000 := by unfold accepts; decide +kernel

/-- Winter Hold with room in the alarm store and with none, for a monitor that forfeits (R562, R564). -/
theorem witness_winter :
    let s := fun n => { part with
      pwr := { part.pwr with st := Power.winter }
      aon := { part.aon with
        cfg := [(8, 0xD0040200)], store := List.replicate n { time := 0, mon := 8, resp := 4, count := 1 }, tripped := [6] } }
    ([14, 15].all fun n => decide ((s n).pwr.st = .winter) && decide ((s n).aon.store.length = n)
      && bitAt (mapGet (monDefault 8) (s n).aon.cfg 8) 31 && decide (fld (mapGet (monDefault 8) (s n).aon.cfg 8) 15 8 ≤ 2)
      && decide (8 ∉ (s n).aon.tripped) && decide (6 ∈ (s n).aon.tripped)) = true := by decide +kernel

/-- A record of a retained class that no snapshot set matches, an aggregator window and a held record at their ends, a
suppression that has ended, a group to commit, and records to look up (R576 to R584). -/
theorem witness_journal :
    let r : Rec := { seq := 4, code := 0x73C8 }
    let s : State := { part with
      tim := { part.tim with elapsed := 1000000000 }
      evr := { part.evr with
        next := 5, ring := List.replicate 8 r, held := some 4, windows := [{ unit := 3, cause := 2, opened := 999900000 }]
        buckets := [(7, { codes := [0x2000], supp := 1 })], area := [(0, { r with seq := 3 })] } }
    (listedEvent (0x73C8 : BitVec 16).toNat = true ∧ listedEvent (0x2103 : BitVec 16).toNat = true ∧
      ([0x2101, 0x3358, 0x3359, 0x3360, 0x3361] : List Nat).all listedEvent = true ∧ codeSrc 0x3358 = 107 ∧ codeSrc 0x3360 = 108 ∧
      s.cmc.ready = true ∧ leAt (zeros 8 ++ leBytes 8 0x600) 8 8 / 512 * 512 < s.cmc.usable ∧ s.awake = true ∧
      codeCls (0x2103 : BitVec 16).toNat = 2 ∧ codeReason (0x2103 : BitVec 16).toNat = 3 ∧
      listedEvent (0xF000 : BitVec 16).toNat = false ∧ (s.mkRec 0x73C8 0 0 []).isRetained = true ∧ s.matchingSets 0x73C8 = [] ∧
      s.evr.ring.length < 128) ∧
    ((s.evr.windows.find? fun x => x.unit = 3 && x.cause = 2).isSome = true ∧ 999900000 + 100000 ≤ s.tim.elapsed) ∧
    (s.evr.held = some 4 ∧ (s.evr.ring.find? fun x => x.seq = 4) = some r ∧ r.born + 1000000000 ≤ s.tim.elapsed) ∧
    ((s.evr.buckets.find? fun e => e.2.codes.contains 0x2000).map Prod.fst = some 7 ∧ (mapFind s.evr.buckets 7).isSome = true) ∧
    (s.evr.ready = true ∧ s.lcs.trans = none ∧ 8 ≤ Evr.stagedOfOne { s.evr with held := none } ∧
      0 < ({ s.evr with held := none }).groupLength ∧ s.pwr.st ≠ .sleep ∧ r ∈ s.evr.all) := by decide +kernel

theorem witness_lookup : part.Takes 0xA0034 := takes (by decide +kernel)

/-- `part` with a command accepted for slice `n` in a state. -/
def sliceIn (n cmd : Nat) (st : SliceSt) : State :=
  (commanded (.slcCtrl n) (BitVec.ofNat 32 (cmd * 2 ^ 28))).onSlice n fun x => { x with st := st }

/-- Each command of a slice in its own state and in another, for the first and the last slice and for slice 127 (R490 to
R500). -/
theorem witness_sliceCommands :
    ([(1, SliceSt.disabled), (2, .active), (3, .quiesced), (4, .quiesced), (5, .quiesced)].all fun c =>
      [1, 64, 127].all fun n =>
        let w := BitVec.ofNat 32 (c.1 * 2 ^ 28)
        decide (mapFind (sliceIn n c.1 c.2).accepted (Reg.slcCtrl n).addr = some w) && decide (fld w 31 28 = c.1)
          && decide ((sliceIn n c.1 c.2).sliceState n = c.2) && decide ((sliceIn n c.1 .scrubbing).sliceState n ≠ c.2)
          && !(sliceIn n c.1 c.2).contained n
          && State.contained { sliceIn n c.1 c.2 with aon := { part.aon with alarms := [(13, { resp := 2, scope := .slice n })] } } n && keysRise (sliceIn n c.1 c.2).kmg.slots
          && keysRise (sliceIn n c.1 c.2).kmg.sessions) = true ∧
    ((sliceIn 1 1 .disabled).bindCheck 1 = 0 ∧ ((sliceIn 1 1 .disabled).setReg (.winSize 1) 1).bindCheck 1 = 2) := by
  decide +kernel

/-- A quiesce at its limit with jobs that run and that do not, one that has drained, and a scrub (R497, R499). -/
theorem witness_quiesce :
    let s : State := { sliceIn 1 2 .quiescing with sch := { part.sch with jobs := [(0, kernelJob), (1, readyJob)], nextJob := 2 } }
    ((s.slice 1).st = .quiescing ∧ (s.slice 1).limitAt ≤ s.tim.elapsed ∧ kernelJob.state = .running ∧
      readyJob.state = .ready ∧ kernelJob.stage ≠ .done) ∧
    ((sliceIn 1 2 .quiescing).drained 1 = true) ∧
    (((sliceIn 1 5 .scrubbing).slice 1).st = .scrubbing ∧ (sliceIn 1 5 .scrubbing).awake = true) := by
  decide +kernel

/-- Sources in use with and without another to select, and blocks that find the part without randomness and with it
(R464 to R472). -/
theorem witness_sources :
    let s : State := { part with rng := { part.rng with ready := false } }
    (part.rng.on = true ∧ part.rng.noSource = false ∧ part.awake = true ∧ part.rng.sel < 4 ∧ (part.rng.nextSource part.rng.sel).isSome = true) ∧
    ({ part.rng with srcs := (List.range 4).map fun n => (n, { st := .bad }) }).nextSource 0 = none ∧
    (s.rng.on = true ∧ s.rng.ready = false ∧ part.rng.ready = true ∧ part.rng.root.live = true ∧ part.reseedIsDue 0 = false ∧
      part.rng.waiting = [] ∧ part.code.loaded.contains 4 = false ∧ part.rng.pool.length < 16 ∧ (List.replicate 16 (zeros 48)).length = 16) := by decide +kernel

/-- Instances to be reseeded in the background, when due, and without D0; retests of a BAD and of a STANDBY source; and a
state without a root (R415, R468, R475). -/
theorem witness_reseeds :
    let s : State := { part with
      tim := { part.tim with elapsed := 1000000000 }
      rng := { part.rng with d0 := { live := true, reseeded := 1000000000 }, mask := { live := true } } }
    let t : State := { s with rng := { s.rng with d0 := {} } }
    let b : State := { part with
      rng := { part.rng with srcs := [(0, { st := .bad }), (1, { st := .bad }), (2, {})], noSource := true }, pwr := { part.pwr with opSec := 3600 } }
    let d : State := { s with rng := { part.rng with d0 := { live := true }, pool := [zeros 48] } }
    (s.awake = true ∧ s.d0Serves = true ∧ d.rng.pool ≠ [] ∧ (d.drbg 0).reached d.tim.elapsed 1000 1048576 = true ∧
      t.awake = true ∧ t.d0Serves = false ∧ (s.drbg 2).reached s.tim.elapsed 750 786432 = true ∧
      (s.drbg 2).reached s.tim.elapsed 1000 1048576 = true ∧
      (t.drbg 2).reached t.tim.elapsed 1000 1048576 = true) ∧
    (b.rng.on = true ∧ (mapGet {} b.rng.srcs 1).st = .bad ∧ (mapGet {} b.rng.srcs 1).at_ + 3600 ≤ b.pwr.opSec ∧
      (mapGet {} b.rng.srcs 1).test = none ∧ (mapGet {} b.rng.srcs 2).test = none ∧
      b.awake = true ∧ b.rng.ready = true ∧ b.standbyDue 2 = true ∧ b.standbyDue 0 = false ∧ b.standbyDue 1 = false) ∧
    (let r : State := { part with kmg := { part.kmg with roots := [] } }
     r.wantsRoot = true ∧ r.rng.ready = true ∧ r.rng.root.live = true ∧ r.rng.noSource = false ∧ r.rng.pool = [] ∧
       FreshReq.root ∉ r.rng.waiting ∧ ({ r with rng := { r.rng with pool := [zeros 48] } } : State).wantsRoot = true) := by decide +kernel

/-- Groups that the overwrite passes, and a corrected and an uncorrectable block of channel A (R406, R411). -/
theorem witness_memory :
    let s : State := { part with cmc := { part.cmc with ovwDone := false, onDemand := [7] } }
    s.cmc.ready = true ∧ s.awake = true ∧ s.cmc.ovwDone = false ∧ s.cmc.done ≤ 5 ∧ 5 < s.groups ∧
      s.cmc.chA.active = true ∧ 3 * 512 < s.cmc.usable ∧ s.blockChannel 3 = 0 := by decide +kernel

/-- The worked example after R406: the block at logical address 0x1_0000_0000, and its tag. -/
theorem test_block_place :
    let s : State := { part with cmc := { part.cmc with chB := { fitted := true, active := true, ranks := 1, gib := 1 } } }
    0x100000000 / 512 = 0x800000 ∧ s.blockChannel 0x800000 = 0 ∧ s.blockPlace 0x800000 = 0x84211000 ∧
      s.tagPlace 0x800000 = 0x84213E80 := by decide +kernel

/-- A job to be restored whose image has failed, and one on a session whose context has failed, about to start (R409). -/
theorem witness_lostReads :
    let st : PStep := { cls := some .hse, st := .staged, engine := 34 }
    let x : Job := { readyJob with desc := { opc := 0x1000 }, areas := [{ step := 0, cde := false, num := 0, bad := some 655360 }], steps := [{ st with restore := true }] }
    let y : Job := { readyJob with desc := { opc := 0x2060, auxAddr := 5 }, steps := [st] }
    let on := fun (s : State) => s.onEngine 34 fun e => { e with incoming := some (0, 0), loaded := true, gated := false }
    let s := on (withJob x)
    let t := on ((withJob y).setReg (.sess 1) 0x100)
    let t : State := { t with kmg := { t.kmg with sessions := [(5, { st := .active, unread := true })] } }
    (s.job? 0 = some x ∧ s.awake = true ∧ s.schStopped = false ∧ x.stage = .active ∧ x.waitCommit = false ∧ s.canRun x = true ∧
      (x.areas.find? fun a => a.step = 0).bind SaveArea.bad = some 655360 ∧
      (s.engine 34).incoming = some (0, 0) ∧ (s.engine 34).mayStart = true ∧ (s.engine 34).freeSlot ≠ none ∧
      s.imageWaits 0 x = false ∧ s.lendFirst 34 = false ∧ t.imageWaits 0 y = false ∧ t.lendFirst 34 = false) ∧
    (t.job? 0 = some y ∧ t.awake = true ∧ y.stage = .active ∧ y.waitCommit = false ∧ (t.engine 34).incoming = some (0, 0) ∧
      (t.engine 34).freeSlot ≠ none ∧ t.schStopped = false ∧ t.canRun y = true ∧ (t.engine 34).mayStart = true ∧
      t.lostContext y = some 5) := by decide +kernel

/-- The blocks of sessions 4 and 5, of save area 0 and of traversal state 3 of a TRL3640 (R407, R409). -/
theorem test_internalRegion :
    let s := withJob { readyJob with areas := [{ step := 0, cde := false, num := 0 }] }
    let s : State := { s with kmg := { s.kmg with sessions := [(5, { st := .active })], stf := [(3, { valid := true, built := true })] } }
    ((s.internalFails 2).session 5).unread = true ∧ ((s.internalFails 2).session 4).unread = false ∧
      ((s.internalFails 655360).job? 0).map (fun x => x.areas.map SaveArea.bad) = some [some 655360] ∧
      ((s.internalFails (718848 + 3 * 128)).record? 3).map StfRecord.built = some false := by decide +kernel

/-- An edge just too early, an armed load, and errors in LOCKED at and above 1 µs; a load that has expired, edges that have
ceased, and a TSYNC pulse (R606 to R613). -/
theorem witness_time :
    let s := part.setReg .timCtrl 0x20000064
    let at_ := fun (ns el : Nat) => { s with tim := { s.tim with st := .locked, ns := ns, elapsed := el, lastEdge := some 0 } }
    (s.timed = true ∧ bitAt (s.reg .timCtrl) 29 = true ∧ (at_ 0 499999999).tim.elapsed < 0 + 500000000 ∧
      ¬ (at_ 0 500000000).tim.elapsed < 0 + 500000000) ∧
    (edgeError (at_ 3000001001 500000000)).natAbs = 1001 ∧ (edgeError (at_ 2999999000 500000000)).natAbs = 1000 ∧
      1000 ≤ fld (s.reg .timCtrl) 7 0 * 1000 ∧
    (let t : State := { s with tim := { s.tim with armed := some (5, 0), elapsed := 2000000000, st := .locking } }
     t.tim.armed = some (5, 0) ∧ 0 + 2000000000 ≤ t.tim.elapsed ∧ t.tim.st = .locking ∧
       t.tim.holdFrom + 1500000000 ≤ t.tim.elapsed) ∧
    (let t := { part with tim := { part.tim with st := .free, ns := 7000000000 } }.setReg .timTsync 0x80200000
     bitAt (t.reg .timTsync) 31 = true ∧ t.tim.st ≠ .unset ∧ bitAt (t.reg .timTsync) 30 = false ∧ t.tim.tsync = false ∧
       (((t.now : Int) - signed 21 (fld (t.reg .timTsync) 20 0)) % 1000000000).toNat ≤ t.cycleNs) ∧
    part.tim.slewEnd ≤ part.tim.elapsed ∧ bitAt ((part.setReg .timCtrl 0x80000064).reg .timCtrl) 31 = true := by
  decide +kernel

theorem witness_load : part.Takes 0x20014 := takes (by decide +kernel)

/-- A part with its supply, and PERST_N low and high (R670 to R673). -/
theorem witness_ports : part.ioPowered = true ∧ part.pwr.ready = true ∧ State.reset.pins.perstN = false ∧
    part.pins.perstN = true ∧ part.dbg.active = false := by decide +kernel

/-- The check value of the CRC-8 of SMBus: the digits 1 to 9. -/
theorem test_pec : crc8 [0x31, 0x32, 0x33, 0x34, 0x35, 0x36, 0x37, 0x38, 0x39] = 0xF4 := by decide +kernel

end Sys2Proof.Tests
end

section
/-! PROOFS. Every command, and so every step, goes onward (`Onward`), and so keeps the form of the state. -/

namespace Sys2Proof.Machine

/-- Whatever the command, a next state lies onward: one case for each command of the opcode table. -/
theorem exec_onward {i : Instr} {s t : State} (ho : exec i s = .next t) : Onward s t := by
  cases i with
  | doorbellPoll n => exact execDoorbellPoll_onward n ho
  | nudge offset => exact execNudge_onward offset ho
  | doorbellReadData n words => exact execDoorbellReadData_onward n words ho
  | descriptorArrival n q descs => exact execDescriptorArrival_onward n q descs ho
  | hostAccessFail a c => exact execHostAccessFail_onward a c ho
  | completionTimeout a => exact execCompletionTimeout_onward a ho
  | atsInvalidation pasid range => exact execAtsInvalidation_onward pasid range ho
  | linkDown => exact execLinkDown_onward ho
  | perstNAssert => exact execPerstNAssert_onward ho
  | sqErrClear n q => exact execSqErrClear_onward n q ho
  | cqErrClear n q => exact execCqErrClear_onward n q ho
  | dbErrClear n => exact execDbErrClear_onward n ho
  | sqEnable n q v => exact execSqEnable_onward n q v ho
  | sqDisable n q v => exact execSqDisable_onward n q v ho
  | cqEnable n q v => exact execCqEnable_onward n q v ho
  | cqDisable n q v => exact execCqDisable_onward n q v ho
  | coalesceTimeout n q => exact execCoalesceTimeout_onward n q ho
  | moderationAge n q => exact execModerationAge_onward n q ho
  | vectorUnmask v => exact execVectorUnmask_onward v ho
  | stationTick => exact execStationTick_onward ho
  | notBeforeReached j => exact execNotBeforeReached_onward j ho
  | expiryTick j => exact execExpiryTick_onward j ho
  | accountingWindowStart => exact execAccountingWindowStart_onward ho
  | scratchAllocated j => exact execScratchAllocated_onward j ho
  | keyloadDone j blob => exact execKeyloadDone_onward j blob ho
  | entropyAvailable j => exact execEntropyAvailable_onward j ho
  | entropyWaitLimit j => exact execEntropyWaitLimit_onward j ho
  | dispatchDecision e => exact execDispatchDecision_onward e ho
  | inputStaged j d => exact execInputStaged_onward j d ho
  | jobStart j k => exact execJobStart_onward j k ho
  | streamRowArrival e bits => exact execStreamRowArrival_onward e bits ho
  | hashLend e h => exact execHashLend_onward e h ho
  | safePointStop e => exact execSafePointStop_onward e ho
  | saveDone e => exact execSaveDone_onward e ho
  | runLimit e => exact execRunLimit_onward e ho
  | watchdog e => exact execWatchdog_onward e ho
  | jobResult j => exact execJobResult_onward j ho
  | frostDone j => exact execFrostDone_onward j ho
  | flowRelease j => exact execFlowRelease_onward j ho
  | rbEntryFree => exact execRbEntryFree_onward ho
  | engineFaultDetect e cause bad => exact execEngineFaultDetect_onward e cause bad ho
  | machineCheck e cause addr bad => exact execMachineCheck_onward e cause addr bad ho
  | quarantineTestEnd e pass => exact execQuarantineTestEnd_onward e pass ho
  | retireUnit e criterion => exact execRetireUnit_onward e criterion ho
  | spareBringIn spare old => exact execSpareBringIn_onward spare old ho
  | agingSample e margin temp => exact execAgingSample_onward e margin temp ho
  | engineGate e => exact execEngineGate_onward e ho
  | thaw e => exact execThaw_onward e ho
  | thawComplete e => exact execThawComplete_onward e ho
  | mlKemKeyGeneration j => exact execMlKemKeyGeneration_onward j ho
  | mlKemDecapsulation j => exact execMlKemDecapsulation_onward j ho
  | mlKemEncapsulationReferenced j => exact execMlKemEncapsulationReferenced_onward j ho
  | mlKemEncapsulationInline j => exact execMlKemEncapsulationInline_onward j ho
  | mlDsaKeyGeneration j => exact execMlDsaKeyGeneration_onward j ho
  | mlDsaSign j => exact execMlDsaSign_onward j ho
  | mlDsaVerifyReferenced j => exact execMlDsaVerifyReferenced_onward j ho
  | mlDsaVerifyInline j => exact execMlDsaVerifyInline_onward j ho
  | slhDsaKeyGeneration j => exact execSlhDsaKeyGeneration_onward j ho
  | slhDsaSign j => exact execSlhDsaSign_onward j ho
  | slhDsaVerifyReferenced j => exact execSlhDsaVerifyReferenced_onward j ho
  | slhDsaVerifyInline j => exact execSlhDsaVerifyInline_onward j ho
  | lmsKeyGeneration j => exact execLmsKeyGeneration_onward j ho
  | lmsSign j => exact execLmsSign_onward j ho
  | lmsVerifyReferenced j => exact execLmsVerifyReferenced_onward j ho
  | lmsVerifyInline j => exact execLmsVerifyInline_onward j ho
  | xmssKeyGeneration j => exact execXmssKeyGeneration_onward j ho
  | xmssSign j => exact execXmssSign_onward j ho
  | xmssVerifyReferenced j => exact execXmssVerifyReferenced_onward j ho
  | xmssVerifyInline j => exact execXmssVerifyInline_onward j ho
  | traversalBuild j => exact execTraversalBuild_onward j ho
  | reservationCommitDone r ok => exact execReservationCommitDone_onward r ok ho
  | firstReservation r ok => exact execFirstReservation_onward r ok ho
  | hqcKeyGeneration j => exact execHqcKeyGeneration_onward j ho
  | hqcDecapsulation j => exact execHqcDecapsulation_onward j ho
  | hqcEncapsulationReferenced j => exact execHqcEncapsulationReferenced_onward j ho
  | hqcEncapsulationInline j => exact execHqcEncapsulationInline_onward j ho
  | mcelieceKeyGeneration j => exact execMcelieceKeyGeneration_onward j ho
  | mcelieceDecapsulation j => exact execMcelieceDecapsulation_onward j ho
  | mcelieceEncapsulationReferenced j => exact execMcelieceEncapsulationReferenced_onward j ho
  | mcelieceEncapsulationInline j => exact execMcelieceEncapsulationInline_onward j ho
  | hybridKemKeyGeneration j => exact execHybridKemKeyGeneration_onward j ho
  | hybridKemDecapsulation j => exact execHybridKemDecapsulation_onward j ho
  | hybridKemEncapsulationReferenced j => exact execHybridKemEncapsulationReferenced_onward j ho
  | hybridKemEncapsulationInline j => exact execHybridKemEncapsulationInline_onward j ho
  | decapsulationRaw j => exact execDecapsulationRaw_onward j ho
  | encapsulationRawReferenced j => exact execEncapsulationRawReferenced_onward j ho
  | encapsulationRawInline j => exact execEncapsulationRawInline_onward j ho
  | hybridSigKeyGeneration j => exact execHybridSigKeyGeneration_onward j ho
  | hybridSign j => exact execHybridSign_onward j ho
  | hybridVerifyReferenced j => exact execHybridVerifyReferenced_onward j ho
  | hybridVerifyInline j => exact execHybridVerifyInline_onward j ho
  | eccKeyGeneration j => exact execEccKeyGeneration_onward j ho
  | eccSign j => exact execEccSign_onward j ho
  | eccVerifyReferenced j => exact execEccVerifyReferenced_onward j ho
  | eccVerifyInline j => exact execEccVerifyInline_onward j ho
  | keyAgreement j => exact execKeyAgreement_onward j ho
  | rsaKeyGeneration j => exact execRsaKeyGeneration_onward j ho
  | rsaSignPkcs1V15 j => exact execRsaSignPkcs1V15_onward j ho
  | rsaSignPss j => exact execRsaSignPss_onward j ho
  | rsaVerifyV15Referenced j => exact execRsaVerifyV15Referenced_onward j ho
  | rsaVerifyPssReferenced j => exact execRsaVerifyPssReferenced_onward j ho
  | rsaVerifyV15Inline j => exact execRsaVerifyV15Inline_onward j ho
  | rsaVerifyPssInline j => exact execRsaVerifyPssInline_onward j ho
  | oaepDecrypt j => exact execOaepDecrypt_onward j ho
  | gcmEncrypt j => exact execGcmEncrypt_onward j ho
  | gcmDecrypt j => exact execGcmDecrypt_onward j ho
  | gmacGenerate j => exact execGmacGenerate_onward j ho
  | gmacVerify j => exact execGmacVerify_onward j ho
  | cmacGenerate j => exact execCmacGenerate_onward j ho
  | cmacVerify j => exact execCmacVerify_onward j ho
  | ctr j => exact execCtr_onward j ho
  | kwWrap j => exact execKwWrap_onward j ho
  | kwUnwrap j => exact execKwUnwrap_onward j ho
  | kwpWrap j => exact execKwpWrap_onward j ho
  | kwpUnwrap j => exact execKwpUnwrap_onward j ho
  | chacha20Poly1305Encrypt j => exact execChacha20Poly1305Encrypt_onward j ho
  | chacha20Poly1305Decrypt j => exact execChacha20Poly1305Decrypt_onward j ho
  | sha2Hash j => exact execSha2Hash_onward j ho
  | sha3Hash j => exact execSha3Hash_onward j ho
  | xof j => exact execXof_onward j ho
  | hmacGenerate j => exact execHmacGenerate_onward j ho
  | hmacVerify j => exact execHmacVerify_onward j ho
  | kmacGenerate j => exact execKmacGenerate_onward j ho
  | kmacVerify j => exact execKmacVerify_onward j ho
  | hkdf j => exact execHkdf_onward j ho
  | hkdfExpand j => exact execHkdfExpand_onward j ho
  | sp800108Counter j => exact execSp800108Counter_onward j ho
  | sp800108Feedback j => exact execSp800108Feedback_onward j ho
  | sp800108Kmac j => exact execSp800108Kmac_onward j ho
  | oneStepHash j => exact execOneStepHash_onward j ho
  | oneStepHmac j => exact execOneStepHmac_onward j ho
  | oneStepKmac j => exact execOneStepKmac_onward j ho
  | sessionCreate j => exact execSessionCreate_onward j ho
  | sessionDestroy j => exact execSessionDestroy_onward j ho
  | sessionRead j => exact execSessionRead_onward j ho
  | sessionOpen j => exact execSessionOpen_onward j ho
  | tagGenerate j => exact execTagGenerate_onward j ho
  | tagVerify j => exact execTagVerify_onward j ho
  | rekey j => exact execRekey_onward j ho
  | rngGenerate j => exact execRngGenerate_onward j ho
  | rngGeneratePr j => exact execRngGeneratePr_onward j ho
  | rngReseed j => exact execRngReseed_onward j ho
  | noOp j => exact execNoOp_onward j ho
  | clearFlags j => exact execClearFlags_onward j ho
  | generate j => exact execGenerate_onward j ho
  | importKey j => exact execImportKey_onward j ho
  | wrap j => exact execWrap_onward j ho
  | unwrap j => exact execUnwrap_onward j ho
  | deriveKey j => exact execDeriveKey_onward j ho
  | rewrap j ok => exact execRewrap_onward j ok ho
  | destroy j => exact execDestroy_onward j ho
  | load j => exact execLoad_onward j ho
  | evict j => exact execEvict_onward j ho
  | blobStore j => exact execBlobStore_onward j ho
  | loadList j => exact execLoadList_onward j ho
  | readingVerify j => exact execReadingVerify_onward j ho
  | statement j => exact execStatement_onward j ho
  | identify j => exact execIdentify_onward j ho
  | logRead j => exact execLogRead_onward j ho
  | statementCounterCommit ok => exact execStatementCounterCommit_onward ok ho
  | kernelCall j => exact execKernelCall_onward j ho
  | vsetl e f => exact execVsetl_onward e f ho
  | vcfg e f => exact execVcfg_onward e f ho
  | vsetq e f => exact execVsetq_onward e f ho
  | sop e f => exact execSop_onward e f ho
  | smovv e f => exact execSmovv_onward e f ho
  | smpop e f => exact execSmpop_onward e f ho
  | mop e f => exact execMop_onward e f ho
  | vld e f => exact execVld_onward e f ho
  | vst e f => exact execVst_onward e f ho
  | vout e f => exact execVout_onward e f ho
  | vrel e f => exact execVrel_onward e f ho
  | vadd e f => exact execVadd_onward e f ho
  | vsub e f => exact execVsub_onward e f ho
  | vaddm e f => exact execVaddm_onward e f ho
  | vsubm e f => exact execVsubm_onward e f ho
  | vmul e f => exact execVmul_onward e f ho
  | vmulw e f => exact execVmulw_onward e f ho
  | vmacw e f => exact execVmacw_onward e f ho
  | vdot e f => exact execVdot_onward e f ho
  | vmont e f => exact execVmont_onward e f ho
  | vmulm e f => exact execVmulm_onward e f ho
  | vmodr e f => exact execVmodr_onward e f ho
  | vcsub e f => exact execVcsub_onward e f ho
  | vand e f => exact execVand_onward e f ho
  | vor e f => exact execVor_onward e f ho
  | vxor e f => exact execVxor_onward e f ho
  | vshl e f => exact execVshl_onward e f ho
  | vshr e f => exact execVshr_onward e f ho
  | vrotl e f => exact execVrotl_onward e f ho
  | vmov e f => exact execVmov_onward e f ho
  | vbfly e f => exact execVbfly_onward e f ho
  | vexch e f => exact execVexch_onward e f ho
  | vperm e f => exact execVperm_onward e f ho
  | vcvt e f => exact execVcvt_onward e f ho
  | vbitpk e f => exact execVbitpk_onward e f ho
  | vbitup e f => exact execVbitup_onward e f ho
  | vcomp e f => exact execVcomp_onward e f ho
  | vcmp e f => exact execVcmp_onward e f ho
  | vsel e f => exact execVsel_onward e f ho
  | vkinit e f => exact execVkinit_onward e f ho
  | vkabs e f => exact execVkabs_onward e f ho
  | vksqz e f => exact execVksqz_onward e f ho
  | vsampu e f => exact execVsampu_onward e f ho
  | vsampb e f => exact execVsampb_onward e f ho
  | vsampball e f => exact execVsampball_onward e f ho
  | vcbd e f => exact execVcbd_onward e f ho
  | vref e f => exact execVref_onward e f ho
  | vsand e f => exact execVsand_onward e f ho
  | va2b e f => exact execVa2b_onward e f ho
  | vb2a e f => exact execVb2a_onward e f ho
  | vszero e f => exact execVszero_onward e f ho
  | vunsh e f => exact execVunsh_onward e f ho
  | vgather e f => exact execVgather_onward e f ho
  | vscatter e f => exact execVscatter_onward e f ho
  | br e f => exact execBr_onward e f ho
  | call e f => exact execCall_onward e f ho
  | ret e f => exact execRet_onward e f ho
  | vend e f => exact execVend_onward e f ho
  | customerOpcode e opc => exact execCustomerOpcode_onward e opc ho
  | nop e w => exact execNop_onward e w ho
  | alu e w => exact execAlu_onward e w ho
  | alui e w => exact execAlui_onward e w ho
  | ldi e w => exact execLdi_onward e w ho
  | fld e w => exact execFld_onward e w ho
  | srd e w => exact execSrd_onward e w ho
  | swr e w => exact execSwr_onward e w ho
  | immf e w => exact execImmf_onward e w ho
  | microBr e w => exact execMicroBr_onward e w ho
  | microCall e w => exact execMicroCall_onward e w ho
  | microRet e w => exact execMicroRet_onward e w ho
  | microNext e w => exact execMicroNext_onward e w ho
  | kjmp e w => exact execKjmp_onward e w ho
  | kpush e w => exact execKpush_onward e w ho
  | kpop e w => exact execKpop_onward e w ho
  | vissue e w => exact execVissue_onward e w ho
  | vwait e w => exact execVwait_onward e w ho
  | rowmv e w => exact execRowmv_onward e w ho
  | port e w elem => exact execPort_onward e w elem ho
  | kcore e w => exact execKcore_onward e w ho
  | shmap e w => exact execShmap_onward e w ho
  | chk e w => exact execChk_onward e w ho
  | microFault e w => exact execMicroFault_onward e w ho
  | poll e w => exact execPoll_onward e w ho
  | jend e w => exact execJend_onward e w ho
  | modw e w => exact execModw_onward e w ho
  | ostr e w => exact execOstr_onward e w ho
  | install data ok now => exact execInstall_onward data ok now ho
  | removePackage => exact execRemovePackage_onward ho
  | store steps ok => exact execStore_onward steps ok ho
  | defaults now => exact execDefaults_onward now ho
  | rwcWrite off v => exact execRwcWrite_onward off v ho
  | check => exact execCheck_onward ho
  | applyNow => exact execApplyNow_onward ho
  | applyAt => exact execApplyAt_onward ho
  | discard => exact execDiscard_onward ho
  | commitInstant => exact execCommitInstant_onward ho
  | transition steps ok => exact execTransition_onward steps ok ho
  | installCodeKey data ok now => exact execInstallCodeKey_onward data ok now ho
  | installDebugKey data ok now => exact execInstallDebugKey_onward data ok now ho
  | newChallenge => exact execNewChallenge_onward ho
  | present => exact execPresent_onward ho
  | revoke => exact execRevoke_onward ho
  | challengeExpiry => exact execChallengeExpiry_onward ho
  | grantExpiry => exact execGrantExpiry_onward ho
  | halt => exact execHalt_onward ho
  | release => exact execRelease_onward ho
  | dbgStep => exact execDbgStep_onward ho
  | spare spare => exact execSpare_onward spare ho
  | traceOn => exact execTraceOn_onward ho
  | traceOff => exact execTraceOff_onward ho
  | inject => exact execInject_onward ho
  | dbgWinDataRead => exact execDbgWinDataRead_onward ho
  | monitorTrip m count scope steps => exact execMonitorTrip_onward m count scope steps ho
  | shadowWindowExpiry off => exact execShadowWindowExpiry_onward off ho
  | clear holding => exact execClear_onward holding ho
  | test empty => exact execTest_onward empty ho
  | stimulusTestEnd pass => exact execStimulusTestEnd_onward pass ho
  | periodicSelftest => exact execPeriodicSelftest_onward ho
  | monCfgWrite m => exact execMonCfgWrite_onward m ho
  | winterTrip m count => exact execWinterTrip_onward m count ho
  | installAuthority data ok now => exact execInstallAuthority_onward data ok now ho
  | loadTariff data ok now => exact execLoadTariff_onward data ok now ho
  | separate ok now => exact execSeparate_onward ok now ho
  | clearGrant => exact execClearGrant_onward ho
  | clearToken len => exact execClearToken_onward len ho
  | journalLookup hi => exact execJournalLookup_onward hi ho
  | snapSetWrite off v => exact execSnapSetWrite_onward off v ho
  | eventRecord code slice engine detail => exact execEventRecord_onward code slice engine detail ho
  | aggregatorWindowClose unit cause => exact execAggregatorWindowClose_onward unit cause ho
  | heldRecordRelease => exact execHeldRecordRelease_onward ho
  | summary code => exact execSummary_onward code ho
  | commitGroup ok => exact execCommitGroup_onward ok ho
  | sysReset v => exact execSysReset_onward v ho
  | badAccess off write => exact execBadAccess_onward off write ho
  | registerWrite off v => exact execRegisterWrite_onward off v ho
  | activate n => exact execActivate_onward n ho
  | quiesce n => exact execQuiesce_onward n ho
  | quiesceLimit n => exact execQuiesceLimit_onward n ho
  | quiesced n => exact execQuiesced_onward n ho
  | resume n => exact execResume_onward n ho
  | reset n => exact execReset_onward n ho
  | remove n => exact execRemove_onward n ho
  | scrubDone n => exact execScrubDone_onward n ho
  | healthFail src cause startup => exact execHealthFail_onward src cause startup ho
  | noSamples src => exact execNoSamples_onward src ho
  | blockReady => exact execBlockReady_onward ho
  | reseedBackground inst => exact execReseedBackground_onward inst ho
  | reseedDue inst => exact execReseedDue_onward inst ho
  | retest src cause => exact execRetest_onward src cause ho
  | standbyRetest src cause => exact execStandbyRetest_onward src cause ho
  | rootGeneration => exact execRootGeneration_onward ho
  | ovwDone ms => exact execOvwDone_onward ms ho
  | patrolScrub ch corrected bad => exact execPatrolScrub_onward ch corrected bad ho
  | ppsEdge => exact execPpsEdge_onward ho
  | timeLoad hi => exact execTimeLoad_onward hi ho
  | loadExpired => exact execLoadExpired_onward ho
  | holdoverEntry => exact execHoldoverEntry_onward ho
  | anchorWrite => exact execAnchorWrite_onward ho
  | tsyncPulse => exact execTsyncPulse_onward ho
  | xtalRc rc => exact execXtalRc_onward rc ho
  | sleepEntry d3hot => exact execSleepEntry_onward ho
  | wake => exact execWake_onward ho
  | pfailFall width taken => exact execPfailFall_onward width taken ho
  | pfailRise => exact execPfailRise_onward ho
  | mainPowerLoss torn => exact execMainPowerLoss_onward torn ho
  | aonChangeover vbat => exact execAonChangeover_onward vbat ho
  | coldStart d => exact execColdStart_onward d ho
  | smbId => exact execSmbId_onward ho
  | smbTemp celsius => exact execSmbTemp_onward celsius ho
  | smbLcs => exact execSmbLcs_onward ho
  | smbAlarm => exact execSmbAlarm_onward ho
  | smbStatus => exact execSmbStatus_onward ho
  | smbusWrite => exact execSmbusWrite_onward ho
  | smbusTimeout => exact execSmbusTimeout_onward ho
  | extest pins => exact execExtest_onward pins ho
  | idcode => exact execIdcode_onward ho
  | samplePreload pins data => exact execSamplePreload_onward pins data ho
  | clamp => exact execClamp_onward ho
  | highz => exact execHighz_onward ho
  | bypass code => exact execBypass_onward code ho
  | internalFlagSet j k => exact execInternalFlagSet_onward j k ho
  | overwriteReachesGroup g => exact execOverwriteReachesGroup_onward g ho
  | poolLow e => exact execPoolLow_onward e ho
  | monitorRearm m => exact execMonitorRearm_onward m ho
  | aonDomainLost => exact execAonDomainLost_onward ho
  | phaseSlewEnd => exact execPhaseSlewEnd_onward ho
  | nameLoRead off => exact execNameLoRead_onward off ho
  | _ j => -- `Instr.seal`, whose name Lean reads as a keyword
    exact execSeal_onward j ho

/-- The form of the state does not speak of the queue. -/
theorem State.Good.setPending {s : State} (h : s.Good) (l : List Instr) : ({ s with pending := l } : State).Good :=
  ⟨h.cells, h.pool, h.jobs, h.numbers, h.frac, h.opNs, h.counter, h.regs, h.slices, h.engines, h.vces, h.slots, h.sess,
    h.stf, h.epochs, h.mons, h.msix⟩

/-- A step goes onward from the state without the command at the front of its queue. -/
theorem step_onward {s t : State} (h : step s = .next t) : Onward { s with pending := s.pending.tail } t := by
  unfold step at h
  split at h
  case h_1 hp =>
    injection h with h
    have hs : ({ s with pending := s.pending.tail } : State) = s := by rw [hp, List.tail_nil, ← hp]
    rw [hs, ← h]
    exact State.cycle_onward (Onward.refl s)
  case h_2 c rest hp =>
    rw [hp]
    exact exec_onward h

/-- Settles O3: every step goes onward, and what goes onward keeps the form of the state. -/
theorem stepKeepsGood : Obligations.StepKeepsGood := by
  unfold Obligations.StepKeepsGood
  intro s t hs h
  exact (step_onward h).good (hs.setPending _)

end Sys2Proof.Machine
end

section
/-! PROOFS. Writes of BAR0 registers: the gate, the pairs of R20, bad accesses, plain and staged writes. -/

namespace Sys2Proof.Machine

variable {s t : State}

/-! The gate of a write -/

/-- Whether a write is taken depends on power, life cycle, part type and metrology partition alone. -/
theorem State.Takes.of_eq {off : Nat} (h : s.Takes off) (pwr : t.pwr = s.pwr) (lcs : t.lcs = s.lcs)
    (fuses : t.fuses = s.fuses) (mp : t.mp = s.mp) : t.Takes off := by
  have hmp : t.mpInService = s.mpInService := by unfold State.mpInService; rw [fuses, mp]
  have hp : ∀ n, t.present n = s.present n := fun n => by
    unfold State.present State.generalSlices; rw [hmp, fuses]
  refine ⟨pwr ▸ h.up, fun he => ?_, fun n hn => (hp n).trans (h.slice n hn), fun a b => hmp.trans (h.mp a b)⟩
  unfold State.ended at he
  unfold State.endedWrites
  rw [lcs] at he ⊢
  exact h.alive he

/-- The companion of SLC_CTRL belongs to the slice of its page. -/
theorem Reg.sliceOf_inv_slcCtrl (n : Nat) : (Reg.inv (page n + 0xF000)).sliceOf = some n := by
  have hp : 0x1000000 ≤ page n + 0xF000 := by unfold page; omega
  have hn : (page n + 0xF000 - 0x1000000) / 0x10000 = n := by unfold page; omega
  simp only [Reg.sliceOf, if_pos hp, hn]

set_option maxRecDepth 1000 in
/-- A register of a set-up page belongs to the slice of the page. -/
theorem pageReg_sliceOf {n o : Nat} {r : Reg} (h : pageReg n o = some r) : r.sliceOf = some n := by
  unfold pageReg at h
  split at h
  · repeat' split at h
    all_goals cases h <;> rfl
  · split at h
    · dsimp only at h
      split at h <;> cases h <;> rfl
    · split at h <;> cases h
      case h_2 => exact Reg.sliceOf_inv_slcCtrl n
      all_goals rfl

/-- The registers of the slices of a part lie below BAR4. -/
theorem regAt_lt {off : Nat} {r : Reg} (h : regAt off = some r) (hp : ∀ n, r.sliceOf = some n → s.present n = true) :
    off < 0x4000000 := by
  unfold regAt at h
  split at h
  · have h1 := hp _ (pageReg_sliceOf h)
    have hg : s.generalSlices ≤ 64 := by unfold State.generalSlices; split <;> omega
    simp only [State.present, Bool.or_eq_true, Bool.and_eq_true, decide_eq_true_eq] at h1
    rcases h1 with ⟨-, h1⟩ | ⟨h1, -⟩ <;> omega
  · omega

/-- Every register but a companion stands at a whole word. -/
theorem Reg.addr_aligned {r : Reg} (h : ∀ a, r ≠ .inv a) : r.addr % 4 = 0 := by
  cases r <;> simp only [Reg.addr, page, qblock, half] <;> try split
  case inv a => exact absurd rfl (h a)
  all_goals omega

/-- A write that the part takes reaches the register at its offset. -/
theorem State.write_reg {r : Reg} (v : Word) (h : s.Takes r.addr) (hs : s.pwr.st ≠ .sleep)
    (hr : regAt r.addr = some r) (hi : ∀ a, r ≠ .inv a) (hp : ∀ n, r.sliceOf = some n → s.present n = true) :
    s.write r.addr v = s.writeReg r v := by
  have hoff := regAt_lt hr hp
  unfold State.write
  rw [if_neg (by omega), if_neg (by omega), if_neg (by omega), State.gate_awake h hs]
  rw [if_neg (by simp [Reg.addr_aligned hi]), hr]
  dsimp only
  cases hn : r.sliceOf with
  | none => rfl
  | some n => exact if_pos (hp n hn)

/-! Pairs (R20) -/

/-- What the register table says of the halves of a pair that nothing freezes. -/
structure PlainPair (f : Bool → Reg) : Prop where
  at_   : ∀ b, regAt (f b).addr = some (f b)
  name  : ∀ b a, f b ≠ .inv a
  part  : ∀ b, (f b).sliceOf = none
  apart : (f true).addr ≠ (f false).addr
  mask  : (f false).mask = 0xFFFFFFFF
  write : ∀ (s : State) b v, s.writeReg (f b) v = s.writeHalf f b v false

theorem plainPair_of_mem {f : Bool → Reg} (h : f ∈ plainPairs) : PlainPair f := by
  simp only [plainPairs, List.mem_cons, List.not_mem_nil, or_false] at h
  rcases h with rfl | rfl | rfl | rfl | rfl <;>
    exact ⟨by decide, by simp, by decide, by decide, rfl, fun _ _ _ => rfl⟩

theorem PlainPair.write_half {f : Bool → Reg} (p : PlainPair f) (b : Bool) (v : Word) (h : s.Takes (f b).addr)
    (hs : s.pwr.st ≠ .sleep) : s.write (f b).addr v = if b then s.writeHi f v else s.writeLo (f false) v := by
  rw [State.write_reg v h hs (p.at_ b) (p.name b) (by simp [p.part b]), p.write]
  rfl

theorem loHalf_add (lo hi : Word) : loHalf (lo.toNat + 2 ^ 32 * hi.toNat) = lo := by
  apply BitVec.eq_of_toNat_eq
  simp only [loHalf, w32, BitVec.toNat_ofNat]
  omega

theorem hiHalf_add (lo hi : Word) : hiHalf (lo.toNat + 2 ^ 32 * hi.toNat) = hi := by
  apply BitVec.eq_of_toNat_eq
  simp only [hiHalf, w32, BitVec.toNat_ofNat]
  omega

/-- The low half that a write of NAME_HI takes: the one written last, or the one in effect. -/
def State.lowHalf (s : State) (r : Reg) : Word := (mapFind s.loHeld r.addr).getD (s.reg r)

theorem State.lowHalf_writeLo {r : Reg} {v : Word} (h : r.mask = 0xFFFFFFFF) : (s.writeLo r v).lowHalf r = v := by
  unfold State.lowHalf State.writeLo
  rw [mapFind_mapInsert_self, h]
  exact BitVec.and_allOnes

theorem State.pair_writeLo (f : Bool → Reg) (r : Reg) (v : Word) : (s.writeLo r v).pair f = s.pair f := by
  unfold State.pair; rfl

/-- A write of NAME_HI changes the registers of its pair alone. -/
theorem State.reg_writeHi_ne {f : Bool → Reg} {r : Reg} (hi : Word) (h0 : r.addr ≠ (f false).addr)
    (h1 : r.addr ≠ (f true).addr) : (s.writeHi f hi).reg r = s.reg r :=
  (State.reg_setReg_ne _ _ h1).trans (State.reg_setReg_ne _ _ h0)

theorem State.reg_writeHi_lo {f : Bool → Reg} (p : PlainPair f) (hi : Word) :
    (s.writeHi f hi).reg (f false) = s.lowHalf (f false) :=
  (State.reg_setReg_ne _ _ p.apart.symm).trans ((State.reg_setReg ..).trans (loHalf_add ..))

theorem State.reg_writeHi_hi {f : Bool → Reg} (hi : Word) : (s.writeHi f hi).reg (f true) = hi :=
  (State.reg_setReg ..).trans (hiHalf_add ..)

/-- A write of NAME_HI puts the low half it takes and the half written in effect. -/
theorem State.pair_writeHi {f : Bool → Reg} (p : PlainPair f) (hi : Word) :
    (s.writeHi f hi).pair f = (s.lowHalf (f false)).toNat + 2 ^ 32 * hi.toNat := by
  unfold State.pair
  rw [State.reg_writeHi_lo p, State.reg_writeHi_hi]

/-- The low half in effect after a write of NAME_HI is the one that the next such write takes. -/
theorem State.lowHalf_writeHi {f : Bool → Reg} (p : PlainPair f) (hi : Word) :
    (s.writeHi f hi).lowHalf (f false) = s.lowHalf (f false) := by
  rw [State.lowHalf, State.reg_writeHi_lo p, State.writeHi, mapFind_mapErase_self, Option.getD_none]

/-- Settles O34: NAME_LO is only held, NAME_HI takes it, and the next NAME_HI takes the low half in effect. -/
theorem registerPairs : Obligations.RegisterPairs := by
  unfold Obligations.RegisterPairs
  intro f hf s lo hi h0 h1 hs
  have p := plainPair_of_mem hf
  have hlo : (s.writeLo (f false) lo).lowHalf (f false) = lo := State.lowHalf_writeLo p.mask
  have ht : (s.writeLo (f false) lo).Takes (f true).addr := h1.of_eq rfl rfl rfl rfl
  have hu : ((s.writeLo (f false) lo).writeHi f hi).Takes (f true).addr := h1.of_eq rfl rfl rfl rfl
  refine ⟨s.writeLo (f false) lo, (s.writeLo (f false) lo).writeHi f hi, congrArg _ (p.write_half false lo h0 hs),
    State.pair_writeLo .., rfl, congrArg _ (p.write_half true hi ht hs), ?_, fun r hr0 hr1 => ?_,
    ((s.writeLo (f false) lo).writeHi f hi).writeHi f 0, congrArg _ (p.write_half true 0 hu hs), ?_⟩
  · rw [State.pair_writeHi p, hlo]
  · exact State.reg_writeHi_ne hi hr0 hr1
  · rw [State.pair_writeHi p, State.lowHalf_writeHi p, hlo]
    simp

/-! Bad accesses (R18) -/

/-- Settles O33: the access records the event of class 0x4, and a read is answered with 0. -/
theorem badAccesses : Obligations.BadAccesses := by
  unfold Obligations.BadAccesses
  intro s off hup
  constructor
  · show execBadAccess off true s = _
    simp only [execBadAccess, hup, if_true, State.badAccess]
  · show execBadAccess off false s = _
    simp only [execBadAccess, hup, if_true, Bool.false_eq_true, if_false, State.badAccess, State.emit]

/-! Plain, snapshot and staged writes (R22, R27, R574, R628) -/

/-- A plain write, as its two outcomes stand in the statement. -/
theorem State.writePlain_eq (r : Reg) (v : Word) : s.writePlain r v =
    if s.reservedFor r (v &&& r.mask) then s.event 0xA (blockSrc r.addr) 0 (r.sliceOf.getD 0)
    else { s with regs := mapSet r.reset s.regs r.addr (v &&& r.mask) } := rfl

/-- A staged value waits where no commit is armed and the table has room. -/
theorem State.stage_waits {r : Reg} {v : Word} (hc : s.nvm.commit ≠ .armed) (hl : s.nvm.staging.length < 512)
    (hr : s.reservedFor r (v &&& r.mask) = false) : s.stage r v = { s with
      nvm := { s.nvm with staging := mapInsert s.nvm.staging r.addr (v &&& r.mask), commit := .staged } } := by
  have hroom : ¬((mapFind s.nvm.staging r.addr).isNone && decide (s.nvm.staging.length ≥ 512)) = true := by
    simp [hl]
  unfold State.stage
  simp only [hr, hc, Bool.false_eq_true, if_false, if_neg hroom]

/-- Settles O38: the gate is passed, and each kind of register is written as its rule says. -/
theorem plainAndStagedWrites : Obligations.PlainAndStagedWrites := by
  unfold Obligations.PlainAndStagedWrites
  refine ⟨fun s n q i k v hs => ⟨fun r hr ha ht hp => ?_, fun r hr ha ht hres => ?_⟩,
    fun s r v hrwc ha ht hs hp hc hl hres => ?_⟩
  · have hw : s.writeReg r v = s.writePlain r v ∧ ∀ a, r ≠ .inv a := by
      simp only [List.mem_cons, List.not_mem_nil, or_false] at hr
      rcases hr with rfl | rfl | rfl | rfl | rfl | rfl | rfl | rfl <;>
        simp [State.writeReg, Reg.isRws, Reg.isRwc]
    rw [← State.writePlain_eq, ← hw.1, ← State.write_reg v ht hs ha hw.2 hp]
    rfl
  · have hw : s.snapWrite r v = (s.setReg r (v &&& r.mask)).event 0xD srcEvr 7 0 0xFF (leBytes 1 i) := by
      simp only [List.mem_cons, List.not_mem_nil, or_false] at hr
      rcases hr with rfl | rfl | rfl <;> simp only [State.snapWrite, hres, Bool.false_eq_true, if_false]
    show execSnapSetWrite r.addr v s = _
    simp only [execSnapSetWrite, ha, State.gate_awake ht hs, hw, State.setReg]
  · show execRwcWrite r.addr v s = _
    simp only [execRwcWrite, ha, hrwc, Bool.true_and, State.gate_awake ht hs, State.stage_waits hc hl hres]
    cases hn : r.sliceOf with
    | none => rfl
    | some n => simp only [hp n hn, Bool.true_or, if_true]

end Sys2Proof.Machine
end

section
/-! PROOFS. Shadowed registers: the statements speak of the SLC_CTRL of every slice number, and from number 768 on its
offset lies in BAR4, where a write meets no shadowed register. -/

namespace Sys2Proof.Machine

/-- A write of BAR4 past the MSI-X table, on an awake part, changes nothing (R654). -/
theorem State.write_past_msix {s : State} {off : Nat} (v : Word) (h0 : 0x4008000 ≤ off) (h1 : off < 0x5000000)
    (hs : s.pwr.st ≠ .sleep) : s.write off v = s := by
  have hm : s.writeMsix (off - 0x4000000) v = s := by
    unfold State.writeMsix
    exact if_pos (by omega)
  unfold State.write
  rw [if_neg (by omega), if_neg (by omega), if_pos (by omega), State.wakeUp_eq hs, hm, ite_self]

/-- A READY part in RUN and in life-cycle state 5, as production test left it otherwise. -/
def readyPart : State :=
  { State.reset with pwr := { st := .run, inReset := false, ready := true }, lcs := { code := 5 } }

/-- Offsets outside the slices and the metrology block are taken by the ready part. -/
theorem readyPart_takes {off : Nat} (h : 0x4000000 ≤ off) : readyPart.Takes off := by
  refine ⟨rfl, fun he => absurd he (by decide), fun n hn => ?_, fun _ hb => absurd hb (by omega)⟩
  unfold sliceOfOffset at hn
  rw [if_neg (by omega), if_neg (by omega), if_neg (by omega)] at hn
  cases hn

/-- The SLC_CTRL of slice number 768, its companion, and their offsets in BAR4. -/
theorem slcCtrl_768 : regAt (Reg.slcCtrl 768).addr = some (.slcCtrl 768) ∧
    regAt ((Reg.slcCtrl 768).addr + 4) = some (.inv (Reg.slcCtrl 768).addr) ∧ (Reg.slcCtrl 768).addr = 0x400F000 := by
  decide

/-- Refutes O37: a first write at the SLC_CTRL of slice number 768 is not held. -/
theorem not_shadowedWrites : ¬ Obligations.ShadowedWrites := by
  unfold Obligations.ShadowedWrites
  intro h
  obtain ⟨hr, hi, ha⟩ := slcCtrl_768
  obtain ⟨hold, -⟩ := h readyPart (.slcCtrl 768) 0 rfl hr hi (readyPart_takes (by omega)) (readyPart_takes (by omega))
    (by decide) rfl
  have hw : exec (.registerWrite (Reg.slcCtrl 768).addr 0) readyPart = .next readyPart :=
    congrArg _ (State.write_past_msix 0 (by omega) (by omega) (by decide))
  rw [hw] at hold
  injection hold with hold
  exact absurd (congrArg State.held hold) (by simp [readyPart, State.reset, mapInsert])

/-- Refutes O36: a write at the companion of the SLC_CTRL of slice number 768, with nothing held, records no event. -/
theorem not_shadowMismatch : ¬ Obligations.ShadowMismatch := by
  unfold Obligations.ShadowMismatch
  intro h
  obtain ⟨hr, hi, ha⟩ := slcCtrl_768
  obtain ⟨-, -, free⟩ := h readyPart (.slcCtrl 768) 0 0 0 rfl hr hi
  have hw : exec (.registerWrite ((Reg.slcCtrl 768).addr + 4) 0) readyPart = .next readyPart :=
    congrArg _ (State.write_past_msix 0 (by omega) (by omega) (by decide))
  have he := free (readyPart_takes (by omega)) (by decide)
  rw [hw, State.wakeUp_eq (by decide)] at he
  injection he with he
  exact absurd (congrArg (fun s => s.evr.next) he) (by decide +kernel)

end Sys2Proof.Machine
end

section
/-! PROOFS. Reads of 64-bit values: the low half, and the captured upper half (R21). -/

namespace Sys2Proof.Machine

variable {s : State} {off : Nat}

/-! Where 64-bit values stand -/

/-- The read-only 64-bit values of the blocks, by offset of NAME_LO. -/
def counterOffsets : List Nat := [0x20008, 0x50008, 0x70030, 0x80010, 0xA0008, 0xA0010, 0xB0030, 0xD0028]

/-- The pairs of R20 outside the slices. -/
def blockPairs : List (Bool → Reg) := [.commitAt, .timNext, .pkgAddr, .ownerAddr, .rdSeq, .clrUpto, .mpAddr]

set_option maxRecDepth 2000 in
/-- A 64-bit value of a block is a counter or a pair. -/
theorem wide_cases {x : Nat} (h : s.wide off = some x) :
    off ∈ counterOffsets ∨ ∃ f ∈ blockPairs, off = (f false).addr := by
  unfold State.wide at h
  split at h
  · cases h
  · split at h
    case h_1 | h_2 | h_3 | h_4 | h_5 | h_6 | h_7 | h_8 => exact .inl (by decide)
    case h_9 | h_10 | h_11 | h_12 | h_13 | h_14 | h_15 => exact .inr (by decide)
    case h_16 => cases h

/-- What the register table says of the offset of a counter: no writable register there, in neither half. -/
structure CounterAt (off : Nat) : Prop where
  low  : regAt off = none
  high : regAt (off + 4) = none
  next : ∀ s : State, s.wide (off + 4) = none
  wide : ∀ s : State, s.wide off ≠ none
  align : off % 8 = 0
  lt    : off + 4 < 0x4000000

theorem counterAt_of_mem (h : off ∈ counterOffsets) : CounterAt off := by
  simp only [counterOffsets, List.mem_cons, List.not_mem_nil, or_false] at h
  rcases h with rfl | rfl | rfl | rfl | rfl | rfl | rfl | rfl <;>
    exact ⟨by decide, by decide, fun _ => rfl, fun _ => Option.some_ne_none _, by decide, by decide⟩

/-- The block of an offset does not answer: it is that of the metrology partition, which is out of service (R520). -/
def State.silent (s : State) (off : Nat) : Bool := 0xB0000 ≤ off && off < 0xC0000 && !s.mpInService

/-- What the register table says of the two halves of a pair outside the slices. -/
structure BlockPair (f : Bool → Reg) : Prop where
  at_    : ∀ b, regAt (f b).addr = some (f b)
  part   : ∀ b, (f b).sliceOf = none
  next   : (f true).addr = (f false).addr + 4
  align  : (f false).addr % 8 = 0
  lt     : (f false).addr + 4 < 0x4000000
  quiet  : ∀ s : State, s.silent (f true).addr = s.silent (f false).addr
  low    : ∀ s : State, s.regWord (f false) = some (s.lowHalf (f false))
  high   : ∀ s : State, s.regWord (f true) = some (s.reg (f true))
  wide   : ∀ s : State, s.wide (f false).addr = some (if s.silent (f false).addr then 0 else s.pair f)

theorem blockPair_of_mem {f : Bool → Reg} (h : f ∈ blockPairs) : BlockPair f := by
  simp only [blockPairs, List.mem_cons, List.not_mem_nil, or_false] at h
  have hmp : ∀ s : State, s.wide 0xB0040 = some (if s.silent 0xB0040 then 0 else s.pair .mpAddr) := fun s => by
    show some (if s.mpInService then s.pair .mpAddr else 0) = some (if !s.mpInService then 0 else s.pair .mpAddr)
    cases s.mpInService <;> rfl
  rcases h with rfl | rfl | rfl | rfl | rfl | rfl | rfl
  case inr.inr.inr.inr.inr.inr =>
    exact ⟨by decide, by decide, by decide, by decide, by decide, fun _ => rfl, fun _ => rfl, fun _ => rfl, hmp⟩
  all_goals
    exact ⟨by decide, by decide, by decide, by decide, by decide, fun _ => rfl, fun _ => rfl, fun _ => rfl, fun _ => rfl⟩

/-- A 64-bit counter of an engine: the engine and the offset of NAME_LO in its block (R295). -/
structure EngineCounter (off e o : Nat) : Prop where
  at_   : engineAt off = some (e, o)
  ofs   : o = 0x20 ∨ o = 0x28
  align : off % 8 = 0

theorem EngineCounter.range {e o : Nat} (h : EngineCounter off e o) : 0x100000 ≤ off ∧ off < 0x1D9000 := by
  have := h.at_
  unfold engineAt at this
  repeat' split at this
  case isFalse.isFalse.isFalse.isFalse.isFalse => cases this
  all_goals omega

/-- Four bytes on, in the same of the blocks of `m` bytes that begin at `b`. -/
theorem block_add_four {a b m : Nat} (hb : b ≤ a) (h : (a - b) % m + 4 < m) :
    (a + 4 - b) / m = (a - b) / m ∧ (a + 4 - b) % m = (a - b) % m + 4 := by
  have ha : a + 4 - b = m * ((a - b) / m) + ((a - b) % m + 4) := by
    rw [← Nat.add_assoc, Nat.div_add_mod]
    omega
  rw [ha, Nat.mul_add_div (by omega), Nat.div_eq_of_lt h, Nat.mul_add_mod, Nat.mod_eq_of_lt h]
  exact ⟨rfl, rfl⟩

theorem EngineCounter.high {e o : Nat} (h : EngineCounter off e o) : engineAt (off + 4) = some (e, o + 4) := by
  obtain ⟨ha, ho, hal⟩ := h
  unfold engineAt at ha ⊢
  repeat' split at ha
  case isFalse.isFalse.isFalse.isFalse.isFalse => cases ha
  all_goals
    obtain ⟨rfl, rfl⟩ := Prod.mk.inj (Option.some.inj ha)
    repeat rw [if_neg (by omega)]
    rw [if_pos (by omega)]
  case isTrue =>
    obtain ⟨hd, hm⟩ := block_add_four (a := off) (b := 0x100000) (m := 0x4000) (by omega) (by omega)
    rw [hd, hm]
  all_goals
    simp only [Option.some.injEq, Prod.mk.injEq]
    omega

theorem EngineCounter.regAt {e o : Nat} (h : EngineCounter off e o) : regAt off = none ∧ regAt (off + 4) = none := by
  have := h.range
  unfold Machine.regAt
  constructor <;> rw [if_neg (by omega), if_neg (by omega)]

theorem EngineCounter.wide {e o : Nat} (h : EngineCounter off e o) (s : State) :
    s.wide off = none ∧ s.wide (off + 4) = none := by
  have := h.range
  unfold State.wide
  rw [if_pos (by omega), if_pos (by omega)]
  exact ⟨rfl, rfl⟩

/-- The value of a counter of an engine; that of an absent unit reads 0. -/
def State.engineCount (s : State) (e o : Nat) : Nat :=
  if (s.engine e).unit = .absent then 0 else if o = 0x20 then (s.engine e).jobs else s.busyOf e

theorem State.engineWord_low (s : State) (e : Nat) {o : Nat} (h : o = 0x20 ∨ o = 0x28) :
    s.engineWord e o = loHalf (s.engineCount e o) := by
  by_cases ha : (s.engine e).unit = .absent
  · simp only [State.engineWord, State.engineCount, ha, if_true]; rfl
  · rcases h with rfl | rfl <;> simp only [State.engineWord, State.engineCount, ha, if_false] <;> rfl

theorem State.engineWord_high (s : State) (e : Nat) {o : Nat} (h : o = 0x20 ∨ o = 0x28) :
    s.engineWord e (o + 4) = hiHalf (s.engineCount e o) := by
  by_cases ha : (s.engine e).unit = .absent
  · simp only [State.engineWord, State.engineCount, ha, if_true]; rfl
  · rcases h with rfl | rfl <;> simp only [State.engineWord, State.engineCount, ha, if_false] <;> rfl

/-! Reads of the two halves -/

/-- A 64-bit value of a block or of an engine, and what it is now. -/
inductive State.Value64 (s : State) (off : Nat) : Nat → Prop where
  | counter {x : Nat} (c : CounterAt off) (h : s.wide off = some x) : s.Value64 off x
  | pair {f : Bool → Reg} (p : BlockPair f) (h : off = (f false).addr) :
    s.Value64 off (if s.silent off then 0 else s.pair f)
  | engine {e o : Nat} (c : EngineCounter off e o) :
    s.Value64 off (s.engineCount e o)

theorem State.Value64.of_wide {x : Nat} (h : s.wide off = some x) : s.Value64 off x := by
  rcases wide_cases h with hc | ⟨f, hf, rfl⟩
  · exact .counter (counterAt_of_mem hc) h
  · have p := blockPair_of_mem hf
    rw [p.wide, Option.some.injEq] at h
    exact h ▸ .pair p rfl

theorem State.Value64.align {x : Nat} (h : s.Value64 off x) : off % 8 = 0 := by
  cases h with
  | counter c => exact c.align
  | pair p h => exact h ▸ p.align
  | engine c => exact c.align

/-- Another state has a value at the same offset. -/
theorem State.Value64.other {x : Nat} (h : s.Value64 off x) (t : State) : ∃ y, t.Value64 off y := by
  cases h with
  | counter c =>
    obtain ⟨y, hy⟩ := Option.ne_none_iff_exists'.1 (c.wide t)
    exact ⟨y, .counter c hy⟩
  | pair p h => exact ⟨_, .pair p h⟩
  | engine c => exact ⟨_, .engine c⟩

/-- The word of a register that no slice's absence hides. -/
theorem State.rawRead_reg {r : Reg} {w : Word} (hr : regAt off = some r) (hp : r.sliceOf = none)
    (hw : s.regWord r = some w) : s.rawRead off =
      if off % 8 = 4 then (mapFind s.loCap (off - 4)).getD (if s.silent off then 0 else w)
      else if s.silent off then 0 else w := by
  unfold State.rawRead State.silent
  simp only [hr, hp, hw, Bool.true_and]
  cases (decide (0xB0000 ≤ off) && decide (off < 0xC0000) && !s.mpInService) <;> rfl

/-- A read of NAME_HI: the captured half where there is one, else the half as it is now. -/
theorem State.Value64.rawRead_high {x : Nat} (h : s.Value64 off x) :
    s.rawRead (off + 4) = (mapFind s.loCap off).getD (hiHalf x) := by
  have h4 : (off + 4) % 8 = 4 := by have := h.align; omega
  cases h with
  | counter c h =>
    unfold State.rawRead
    simp only [c.high, c.next, h4, if_true, Nat.add_sub_cancel, h]
  | @pair f p h =>
    have ha : off + 4 = (f true).addr := by rw [h, p.next]
    have hx : (if s.silent (off + 4) then 0 else s.reg (f true)) = hiHalf (if s.silent off then 0 else s.pair f) := by
      rw [ha, p.quiet, ← h]
      split
      · rfl
      · exact (hiHalf_add ..).symm
    rw [State.rawRead_reg (ha ▸ p.at_ true) (p.part true) (p.high s), if_pos h4, hx, Nat.add_sub_cancel]
  | @engine e o c =>
    have ho : o + 4 = 0x24 ∨ o + 4 = 0x2C := by have := c.ofs; omega
    unfold State.rawRead
    simp only [c.regAt.2, (c.wide s).1, (c.wide s).2, h4, if_true, Nat.add_sub_cancel, c.high, ho,
      State.engineWord_high s e c.ofs]

/-- A read of NAME_LO: of a pair the low half written last, else the low half as it is now. -/
theorem State.Value64.rawRead_low {x : Nat} (h : s.Value64 off x)
    (hl : regAt off = none ∨ s.mpInService = false → mapFind s.loHeld off = none) :
    s.rawRead off = (mapFind s.loHeld off).getD (loHalf x) := by
  have h8 : ¬ off % 8 = 4 := by have := h.align; omega
  cases h with
  | counter c h =>
    unfold State.rawRead
    simp only [c.low, h, hl (.inl c.low), Option.getD_none]
  | @pair f p h =>
    rw [State.rawRead_reg (h ▸ p.at_ false) (p.part false) (p.low s), if_neg h8]
    split
    case isTrue hq =>
      have hm : s.mpInService = false := by
        unfold State.silent at hq
        simp only [Bool.and_eq_true, Bool.not_eq_true'] at hq
        exact hq.2
      rw [hl (.inr hm)]
      rfl
    case isFalse =>
      rw [State.lowHalf, ← h]
      exact congrArg _ (loHalf_add ..).symm
  | @engine e o c =>
    have ho : ¬(o = 0x24 ∨ o = 0x2C) := by have := c.ofs; omega
    unfold State.rawRead
    simp only [c.regAt.1, (c.wide s).1, h8, if_false, c.at_, hl (.inl c.regAt.1), Option.getD_none, ho,
      State.engineWord_low s e c.ofs]

/-! The reads of a READY, awake part -/

/-- A READY part outside LOST and SCRAP answers every offset. -/
theorem State.bar0_up (hu : s.up = true) (he : s.ended = false) : s.bar0 off = s.rawRead off := by
  have hr : s.pwr.ready = true := hu
  unfold State.bar0
  simp only [hr, he, Bool.false_and, Bool.not_true, Bool.false_eq_true, if_false, ite_self]

theorem State.Value64.lt {x : Nat} (h : s.Value64 off x) : off + 4 < 0x4000000 := by
  cases h with
  | counter c => exact c.lt
  | pair p h => exact h ▸ p.lt
  | engine c => have := c.range; omega

/-- The offset of a 64-bit value is one of NAME_LO. -/
theorem State.Value64.isLo {x : Nat} (h : s.Value64 off x) : s.isLo off = true := by
  have h8 := h.align
  unfold State.isLo
  cases h with
  | counter c h => simp [h8, h]
  | pair p h =>
    subst h
    simp [h8, p.wide]
  | engine c => rcases c.ofs with h | h <;> simp [h8, c.at_, h]

/-- A read by a READY, awake part outside LOST and SCRAP. -/
theorem execNameLoRead_up (hu : s.up = true) (hs : s.pwr.st ≠ .sleep) (he : s.ended = false) (hoff : off < 0x4000000) :
    execNameLoRead off s = .next (if s.isLo off then s.readLo off else s.readWord off) := by
  have hoff : ¬ 0x4000000 ≤ off := by omega
  unfold execNameLoRead
  simp only [if_neg hoff, hu, he, State.wakeUp_eq hs, if_true, Bool.false_and, Bool.false_eq_true, if_false]

/-- A read of NAME_LO is answered with the low half and captures the upper one. -/
theorem State.Value64.read_low {x : Nat} (h : s.Value64 off x) (hu : s.up = true) (hs : s.pwr.st ≠ .sleep)
    (he : s.ended = false) (hl : regAt off = none ∨ s.mpInService = false → mapFind s.loHeld off = none) :
    exec (.nameLoRead off) s = .next (({ s with loCap := mapInsert s.loCap off (hiHalf x) }).emit
      (.readReply ((mapFind s.loHeld off).getD (loHalf x)))) := by
  have hlt := h.lt
  have hv : ({ s with loCap := mapErase s.loCap off } : State).Value64 off x := by
    cases h with
    | counter c h => exact .counter c h
    | pair p h => exact .pair p h
    | engine c => exact .engine c
  have hhi : ({ s with loCap := mapErase s.loCap off } : State).bar0 (off + 4) = hiHalf x := by
    rw [State.bar0_up (s := { s with loCap := mapErase s.loCap off }) hu he, hv.rawRead_high, mapFind_mapErase_self,
      Option.getD_none]
  show execNameLoRead off s = _
  rw [execNameLoRead_up hu hs he (by omega), h.isLo, if_pos rfl]
  unfold State.readLo
  rw [hhi, State.bar0_up hu he, h.rawRead_low hl]

/-- A read of NAME_HI with a captured half is answered with it, and takes it. -/
theorem State.Value64.read_high {x : Nat} {c : Word} (h : s.Value64 off x) (hu : s.up = true) (hs : s.pwr.st ≠ .sleep)
    (he : s.ended = false) (hc : mapFind s.loCap off = some c) :
    exec (.nameLoRead (off + 4)) s = .next (({ s with loCap := mapErase s.loCap off }).emit (.readReply c)) := by
  have h4 : (off + 4) % 8 = 4 := by have := h.align; omega
  have hlo : s.isLo (off + 4) = false := by simp [State.isLo, h4]
  show execNameLoRead (off + 4) s = _
  rw [execNameLoRead_up hu hs he h.lt, hlo, if_neg Bool.false_ne_true]
  unfold State.readWord
  rw [State.bar0_up hu he, h.rawRead_high, hc, if_pos h4, Nat.add_sub_cancel]
  rfl

/-- Settles O35: the low half is read and the upper captured; the read of NAME_HI takes what was captured. -/
theorem capturedHalf : Obligations.CapturedHalf := by
  unfold Obligations.CapturedHalf
  intro s off x hu hs he h8 hx hl
  have hv : s.Value64 off x := by
    rcases hx with hw | ⟨e, hp, ⟨ha, rfl⟩ | ⟨ha, rfl⟩⟩
    · exact .of_wide hw
    · have h := State.Value64.engine (s := s) ⟨ha, .inl rfl, h8⟩
      simpa only [State.engineCount, hp, if_false, if_true] using h
    · have h := State.Value64.engine (s := s) ⟨ha, .inr rfl, h8⟩
      simpa [State.engineCount, hp] using h
  refine ⟨_, hv.read_low hu hs he hl, rfl, fun u hcap hu' hs' he' _ => ?_⟩
  obtain ⟨y, hy⟩ := hv.other u
  have hc : mapFind u.loCap off = some (hiHalf x) := hcap ▸ mapFind_mapInsert_self ..
  exact ⟨_, hy.read_high hu' hs' he' hc, rfl, mapFind_mapErase_self ..⟩

end Sys2Proof.Machine
end

section
/-! PROOFS. The actions of DBG_ACT (R541): what frost, unstaging and the exchange leave of the engines, and each action
under its right and without it. -/

namespace Sys2Proof.Machine

variable {s t : State} {e i : Nat}

/-! What the operations on an engine leave of the engines -/

theorem State.engine_eq_of_engines (h : t.engines = s.engines) : t.engine i = s.engine i := by
  unfold State.engine; rw [h]

theorem State.recordAction_eq (s : State) (ok : Bool) (act arg : Nat) :
    s.recordAction ok act arg = { s with evr := (s.recordAction ok act arg).evr } := by
  unfold State.recordAction
  split <;> exact s.intake_eq _

@[simp] theorem State.recordAction_engine (ok : Bool) (act arg : Nat) :
    (s.recordAction ok act arg).engine i = s.engine i :=
  State.engine_eq_of_engines (by rw [State.recordAction_eq])

@[simp] theorem State.event_engine (c u w n k : Nat) (d : Bytes) : (s.event c u w n k d).engine i = s.engine i :=
  State.engine_eq_of_engines (s.event_engines ..)

@[simp] theorem State.loadConsts_engine (k : Nat) : (s.loadConsts k).engine i = s.engine i := by
  unfold State.loadConsts
  split <;> rfl

/-- The two engines differ at most in what frost clears. -/
def Engine.FrostOnly (x y : Engine) : Prop := y = { x with
  restEnd := y.restEnd, build := y.build, cur := y.cur, next := y.next, lend := y.lend, lendIn := y.lendIn }

theorem Engine.FrostOnly.refl (x : Engine) : x.FrostOnly x := rfl

theorem Engine.FrostOnly.trans {x y z : Engine} (h : x.FrostOnly y) (g : y.FrostOnly z) : x.FrostOnly z := by
  unfold Engine.FrostOnly at *
  rw [g, h]

/-- A change of one engine that frost allows. -/
theorem State.onEngine_frostOnly (s : State) (e i : Nat) {f : Engine → Engine}
    (hf : ∀ x : Engine, x.FrostOnly (f x)) :
    (s.engine i).FrostOnly ((s.onEngine e f).engine i) := by
  by_cases h : i = e
  · subst h
    rw [State.engine_onEngine]
    exact hf _
  · rw [State.engine_onEngine_ne _ _ h]
    exact .refl _

/-- The end of a lend clears the lend alone. -/
theorem State.endLends_frostOnly (s : State) (e i : Nat) : (s.engine i).FrostOnly ((s.endLends e).engine i) := by
  unfold State.endLends
  generalize enginesOf .hse = l
  induction l generalizing s with
  | nil => exact .refl _
  | cons h l ih =>
    refine .trans ?_ (ih _)
    dsimp only
    split
    · exact s.onEngine_frostOnly h i fun _ => rfl
    · exact .refl _

/-- Frost of a VCE, and of another unit. -/
theorem State.frostEngine_vce (h : clsOf e = .vce) : s.frostEngine e =
    ({ s.onEngine e fun x => { x with restEnd := 0 } with vces := mapErase s.vces e }.onEngine e
      fun x => { x with build := none }).endLends e := by
  unfold State.frostEngine
  rw [h]
  rfl

theorem State.frostEngine_other (h : clsOf e ≠ .vce) : s.frostEngine e =
    (s.onEngine e fun x => { x with restEnd := 0 }).onEngine e
      fun x => { x with cur := {}, next := {}, lend := none, lendIn := none } := by
  unfold State.frostEngine
  dsimp only
  split
  · contradiction
  · rfl

/-- Frost of an engine clears no more than `Engine.FrostOnly` names, on any engine. -/
theorem State.frostEngine_frostOnly (s : State) (e i : Nat) : (s.engine i).FrostOnly ((s.frostEngine e).engine i) := by
  have h1 : (s.engine i).FrostOnly ((s.onEngine e fun x => { x with restEnd := 0 }).engine i) :=
    s.onEngine_frostOnly e i fun _ => rfl
  by_cases h : clsOf e = .vce
  · rw [State.frostEngine_vce h]
    refine h1.trans (.trans ?_ (State.endLends_frostOnly _ e i))
    exact State.onEngine_frostOnly { s.onEngine e fun x => { x with restEnd := 0 } with vces := mapErase s.vces e } e i
      fun _ => rfl
  · rw [State.frostEngine_other h]
    exact h1.trans (State.onEngine_frostOnly _ e i fun _ => rfl)

/-- No HSE carries out a lend for VCE `e`. -/
def State.noLends (s : State) (e : Nat) : Prop := ∀ k < 71, (s.engine k).lend.map (·.1) ≠ some e

/-- A change of an engine that leaves its lend. -/
theorem State.noLends.onEngine (h : s.noLends e) (k : Nat) {f : Engine → Engine} (hf : ∀ x, (f x).lend = x.lend) :
    (s.onEngine k f).noLends e := by
  intro j hj
  by_cases hjk : j = k
  · rw [hjk, State.engine_onEngine, hf, ← hjk]
    exact h j hj
  · rw [State.engine_onEngine_ne _ _ hjk]
    exact h j hj

theorem State.endLends_of_noLends (h : s.noLends e) : s.endLends e = s := by
  have hl : ∀ k ∈ enginesOf .hse, k < 71 := by decide
  unfold State.endLends
  generalize enginesOf .hse = l at hl
  induction l with
  | nil => rfl
  | cons k l ih =>
    rw [List.foldl_cons, if_neg (h k (hl k (List.mem_cons_self ..)))]
    exact ih fun k hk => hl k (List.mem_cons_of_mem _ hk)

/-- Where no HSE serves it, frost of an engine leaves the others. -/
theorem State.frostEngine_engine_ne (h : s.noLends e) (hi : i ≠ e) : (s.frostEngine e).engine i = s.engine i := by
  by_cases hc : clsOf e = .vce
  · have h1 : (s.onEngine e fun x => { x with restEnd := 0 }).noLends e := h.onEngine e fun _ => rfl
    have h2 : ({ s.onEngine e fun x => { x with restEnd := 0 } with vces := mapErase s.vces e }.onEngine e
        fun x => { x with build := none }).noLends e := State.noLends.onEngine h1 e fun _ => rfl
    rw [State.frostEngine_vce hc, State.endLends_of_noLends h2, State.engine_onEngine_ne _ _ hi]
    exact State.engine_onEngine_ne s (fun x => { x with restEnd := 0 }) hi
  · rw [State.frostEngine_other hc, State.engine_onEngine_ne _ _ hi, State.engine_onEngine_ne _ _ hi]

/-- The engine from which its staged job has gone. -/
theorem State.unstage_engine_self (s : State) (e : Nat) : (s.unstage e).engine e = { s.engine e with
    incoming := none, loaded := ((s.unstage e).engine e).loaded, next := ((s.unstage e).engine e).next } := by
  unfold State.unstage
  split
  case h_1 h => rw [← h]
  case h_2 =>
    dsimp only
    rw [State.engine_eq_of_engines (State.onJob_engines ..)]
    split
    · rw [State.engine_eq_of_engines (State.onVce_engines ..), State.engine_onEngine]
    · rw [State.engine_onEngine, State.engine_onEngine]

theorem State.unstage_engine_ne (h : i ≠ e) : (s.unstage e).engine i = s.engine i := by
  unfold State.unstage
  split
  · rfl
  · dsimp only
    rw [State.engine_eq_of_engines (State.onJob_engines ..)]
    split
    · rw [State.engine_eq_of_engines (State.onVce_engines ..), State.engine_onEngine_ne _ _ h]
    · rw [State.engine_onEngine_ne _ _ h, State.engine_onEngine_ne _ _ h]

/-- Unstaging leaves the lends. -/
theorem State.noLends.unstage (h : s.noLends e) (k : Nat) : (s.unstage k).noLends e := by
  intro j hj
  by_cases hjk : j = k
  · rw [hjk, State.unstage_engine_self, ← hjk]
    exact h j hj
  · rw [State.unstage_engine_ne hjk]
    exact h j hj

/-- Erasing a block of NVM leaves the engines. -/
theorem State.retireBlock_engines (s : State) (p b : Nat) : (s.retireBlock p b).engines = s.engines := by
  unfold State.retireBlock
  dsimp only
  split
  · exact s.event_engines ..
  · split <;> split <;> simp only [State.event_engines]

theorem State.level_engines (s : State) (p b : Nat) : (s.level p b).engines = s.engines := by
  unfold State.level
  dsimp only
  split
  · rfl
  · split
    · split
      · simp only [State.event_engines]
      · rfl
    · rfl

theorem State.eraseBlock_engines (s : State) (p b : Nat) : (s.eraseBlock p b).engines = s.engines := by
  unfold State.eraseBlock
  dsimp only
  split
  · rfl
  · split
    · exact State.retireBlock_engines ..
    · exact State.level_engines ..

@[simp] theorem State.recordMap_engine : s.recordMap.engine i = s.engine i :=
  State.engine_eq_of_engines (State.eraseBlock_engines ..)

/-- An engine that is ungated. -/
theorem State.ungate_engine_self (s : State) (e : Nat) :
    (s.ungate e).engine e = { s.engine e with gated := false, thawing := false, idleAt := s.el } := by
  have h := (s.loadConsts e).engine_onEngine e fun x => { x with gated := false, thawing := false, idleAt := s.el }
  rw [State.loadConsts_engine] at h
  unfold State.ungate
  dsimp only
  split <;> exact h

theorem State.ungate_engine_ne (h : i ≠ e) : (s.ungate e).engine i = s.engine i := by
  have h := (s.loadConsts e).engine_onEngine_ne
    (fun x => { x with gated := false, thawing := false, idleAt := s.el }) h
  rw [State.loadConsts_engine] at h
  unfold State.ungate
  dsimp only
  split <;> exact h

/-- A halted engine takes no more jobs, and the job that it runs stays. -/
theorem State.haltEngine_engine (s : State) (e : Nat) : let x := (s.haltEngine e).engine e
    x.unit = .quarantined ∧ x.halted = true ∧ x.incoming = none ∧ x.running = (s.engine e).running := by
  let u := ((s.unstage e).quarantine e).onEngine e fun x => { x with halted := true }
  have hu : u.engine e = { (s.unstage e).engine e with unit := .quarantined, halted := true } := by
    simp only [u, State.quarantine, State.engine_onEngine, State.event_engine]
  rw [State.unstage_engine_self] at hu
  have hx : (u.engine e).FrostOnly ((s.haltEngine e).engine e) := by
    unfold State.haltEngine
    dsimp only
    split
    · exact u.frostEngine_frostOnly e e
    · exact .refl _
  dsimp only
  rw [hx, hu]
  exact ⟨rfl, rfl, rfl, rfl⟩

/-- A released engine is ACTIVE, and where no HSE serves it the others are as before. -/
theorem State.release_engine_self (s : State) (e : Nat) : let x := (((s.frostEngine e).loadConsts e).returned e).engine e
    x.unit = .active ∧ x.halted = false := by
  simp only [State.returned, State.event_engine, State.engine_onEngine, and_self]

theorem State.release_engine_ne (h : s.noLends e) (hi : i ≠ e) :
    (((s.frostEngine e).loadConsts e).returned e).engine i = s.engine i := by
  rw [State.returned, State.event_engine, State.engine_onEngine_ne _ _ hi, State.loadConsts_engine,
    State.frostEngine_engine_ne h hi]

/-- The engine that gives its place to a spare. -/
theorem State.exchange_engine_self {p : Nat} (hp : e ≠ p) : let x := (s.exchange e p).engine e
    x.unit = .spare ∧ x.incoming = none := by
  have hx := (s.unstage e).frostEngine_frostOnly e e
  rw [State.unstage_engine_self] at hx
  simp only [State.exchange, State.event_engine, State.ungate_engine_ne hp, State.recordMap_engine,
    State.engine_onEngine_ne _ _ hp, State.engine_onEngine, true_and]
  rw [hx]

/-- The spare that takes the place of an engine. -/
theorem State.exchange_engine_spare (s : State) (e p : Nat) : let x := (s.exchange e p).engine p
    x.unit = .active ∧ x.logical = (s.engine e).logical ∧ x.gated = false := by
  simp only [State.exchange, State.event_engine, State.ungate_engine_self, State.recordMap_engine,
    State.engine_onEngine, and_self]

theorem State.exchange_engine_ne {p : Nat} (h : s.noLends e) (he : i ≠ e) (hp : i ≠ p) :
    (s.exchange e p).engine i = s.engine i := by
  simp only [State.exchange, State.event_engine, State.ungate_engine_ne hp, State.recordMap_engine,
    State.engine_onEngine_ne _ _ hp, State.engine_onEngine_ne _ _ he, State.frostEngine_engine_ne (h.unstage e) he,
    State.unstage_engine_ne he]

/-- A report of a fault leaves the engines. -/
theorem State.closeWindow_engines (s : State) (u c : Nat) : (s.closeWindow u c).engines = s.engines := by
  unfold State.closeWindow
  split
  · rfl
  · exact State.intake_engines ..

@[simp] theorem State.reportUnit_engine (k c n : Nat) (d : Bytes) : (s.reportUnit k c n d).engine i = s.engine i := by
  refine State.engine_eq_of_engines ?_
  unfold State.reportUnit State.report
  dsimp only
  split <;> split <;> try split
  all_goals simp only [State.closeWindow_engines]

/-- On an engine that runs no job a fault meets none. -/
theorem State.faultJob_idle (h : (s.engine e).running = none) (st : Status) (retry : Bool) :
    s.faultJob e st retry = s := by
  unfold State.faultJob
  rw [h]

/-- Without a bad result slot nothing is read back. -/
theorem State.readBack_nil (s : State) (e : Nat) (st : Status) : s.readBack e st [] = s := by
  have hbad : (s.engine e).results.filter (fun r => ([] : List Nat).contains r.2) = [] :=
    List.filter_eq_nil_iff.2 fun _ _ => Bool.false_ne_true
  simp only [State.readBack, hbad, List.length_nil, State.markRows, List.range_zero, List.foldl_nil]

/-- The engine of a counted and reported fault. -/
theorem State.countFault_engine (s : State) (e c : Nat) : (s.countFault e c).engine e = { s.engine e with
    fcause := c % 256, fcount := sat 0xFFFF ((s.engine e).fcount + 1), saving := false } :=
  s.engine_onEngine ..

/-- A machine check of a VCE that runs no job and has no bad result slot shows its cause (R291). -/
theorem State.machineCheck_fcause (c a : Nat) (h : (s.engine e).running = none) :
    ((s.machineCheck e c a).engine e).fcause = c % 256 := by
  have hkeeps : ∀ u : State, (((u.unstage e).frostEngine e).engine e).fcause = (u.engine e).fcause := fun u => by
    rw [(u.unstage e).frostEngine_frostOnly e e, State.unstage_engine_self]
  have hidle : ∀ n d, (((s.countFault e c).reportUnit e c n d).engine e).running = none := fun n d => by
    rw [State.reportUnit_engine, State.countFault_engine]
    exact h
  unfold State.machineCheck
  simp only [State.faultJob_idle (hidle _ _), State.readBack_nil]
  split
  · rw [State.loadConsts_engine, hkeeps, State.reportUnit_engine, State.countFault_engine]
  · simp only [State.quarantine, State.event_engine, State.engine_onEngine, hkeeps, State.reportUnit_engine,
      State.countFault_engine]

/-! The actions (R541) -/

/-- An action of DBG_ACT that was accepted, and whether its right is held. -/
theorem State.dbgAction_some {w : Word} {act : Nat} (h : mapFind s.accepted Reg.dbgAct.addr = some w)
    (hc : fld w 31 28 = act) (bit : Nat) : s.dbgAction act bit =
      some (fld w 15 0, s.dbg.active && bitAt s.dbg.rights bit, cmdTaken s Reg.dbgAct.addr) := by
  unfold State.dbgAction
  rw [State.takeCommand_some h]
  exact if_pos hc

section
variable {a : Nat} {u : State}

theorem execHalt_right (h : s.dbgAction 1 1 = some (a, true, u)) (ha : a < 71) (hu : (u.engine a).unit = .active)
    (hv : u.reserved a = false) (hm : u.holdsMetrology a = false) :
    execHalt s = .next ((u.haltEngine a).recordAction true 1 a) := by
  simp [execHalt, h, ha, hu, hv, hm]

theorem execRelease_right (h : s.dbgAction 2 1 = some (a, true, u)) (hh : (u.engine a).halted = true) :
    ∃ v : State, v.engines = u.engines ∧
      execRelease s = .next ((((v.frostEngine a).loadConsts a).returned a).recordAction true 2 a) :=
  ⟨{ u with dbg := { u.dbg with kat := u.dbg.kat.filter fun k => decide (k.1 ≠ a) } }, rfl, by
    simp only [execRelease, h, hh, Bool.and_self, if_true]⟩

/-- The halted VCE as STEP leaves it: its known-answer job is advanced to `r`. -/
def State.stepped (u : State) (e k : Nat) (r : Vce) : State :=
  { u with dbg := { u.dbg with kat := some (e, k) } }.onVce e fun _ => r

theorem execDbgStep_advances {k : Nat} {v r : Vce} (h : s.dbgAction 3 2 = some (a, true, u)) (ha : 0 < a)
    (hv : u.haltedVce = some e) (hk : u.katOn e = (k, v)) (hr : u.stepVce a v = (r, none)) :
    execDbgStep s = .next ((u.stepped e k r).recordAction true 3 a) := by
  simp only [execDbgStep, h, hv, hk, hr, decide_eq_true ha, Bool.and_self, if_true, State.stepped]

theorem execDbgStep_checks {k c : Nat} {v r : Vce} (h : s.dbgAction 3 2 = some (a, true, u)) (ha : 0 < a)
    (hv : u.haltedVce = some e) (hk : u.katOn e = (k, v)) (hr : u.stepVce a v = (r, some c)) :
    execDbgStep s = .next ((((u.stepped e k r).machineCheck e c r.upc).onVce e
      fun v => { v with entered := false }).recordAction true 3 a) := by
  simp only [execDbgStep, h, hv, hk, hr, decide_eq_true ha, Bool.and_self, if_true, State.stepped]

/-- SPARE waits for an engine that runs a job or holds a result (R289). -/
theorem execSpare_waits {p : Nat} (h : s.dbgAction 4 6 = some (a, true, u)) (ha : a < 71) (hp : p < 71)
    (hu : (u.engine a).unit = .active) (hs : (u.engine p).unit = .spare) (hc : clsOf a = clsOf p)
    (hw : (u.engine a).running ≠ none ∨ (u.engine a).results ≠ []) : execSpare p s = .next (s.unstage a) := by
  rcases hw with hw | hw <;> simp [execSpare, h, ha, hp, hu, hs, hc, hw]

theorem execSpare_exchanges {p : Nat} (h : s.dbgAction 4 6 = some (a, true, u)) (ha : a < 71) (hp : p < 71)
    (hu : (u.engine a).unit = .active) (hs : (u.engine p).unit = .spare) (hc : clsOf a = clsOf p)
    (hr : (u.engine a).running = none) (hz : (u.engine a).results = []) :
    execSpare p s = .next ((u.exchange a p).recordAction true 4 a) := by
  simp [execSpare, h, ha, hp, hu, hs, hc, hr, hz]

theorem execTraceOn_right (h : s.dbgAction 5 3 = some (a, true, u)) :
    execTraceOn s = .next (({ u with dbg := { u.dbg with traceOn := true } }).recordAction true 5 a) := by
  simp only [execTraceOn, h, if_true]

theorem execTraceOff_right (h : s.dbgAction 6 3 = some (a, true, u)) :
    execTraceOff s = .next (({ u with dbg := { u.dbg with traceOn := false } }).recordAction true 6 a) := by
  simp only [execTraceOff, h, if_true]

theorem execInject_right (h : s.dbgAction 7 7 = some (a, true, u)) (hs : u.sealedSource a = false)
    (hc : codeCls a ≠ 0xF) :
    execInject s = .next ((u.intake { u.mkRec a 0 0xFF [] with injected := true }).recordAction true 7 a) := by
  simp [execInject, h, hs, hc]

/-- Without its right an action is recorded, and does nothing else. -/
theorem exec_without_right {c : Instr × Nat × Nat}
    (hc : c ∈ [(Instr.halt, 1, 1), (.release, 2, 1), (.dbgStep, 3, 2), (.spare 0, 4, 6), (.traceOn, 5, 3),
      (.traceOff, 6, 3), (.inject, 7, 7)])
    (h : s.dbgAction c.2.1 c.2.2 = some (a, false, u)) : exec c.1 s = .next (u.recordAction false c.2.1 a) := by
  simp only [List.mem_cons, List.not_mem_nil, or_false] at hc
  rcases hc with rfl | rfl | rfl | rfl | rfl | rfl | rfl
  case inr.inr.inl =>
    show execDbgStep s = _
    unfold execDbgStep
    rw [h]
    dsimp only
    split <;> rfl
  case inl => show execHalt s = _; simp [execHalt, h]
  case inr.inl => show execRelease s = _; simp [execRelease, h]
  case inr.inr.inr.inl => show execSpare 0 s = _; simp [execSpare, h]
  case inr.inr.inr.inr.inl => show execTraceOn s = _; simp [execTraceOn, h]
  case inr.inr.inr.inr.inr.inl => show execTraceOff s = _; simp [execTraceOff, h]
  case inr.inr.inr.inr.inr.inr => show execInject s = _; simp [execInject, h]

end

/-- The VCE that STEP advances is halted and runs no job. -/
theorem State.haltedVce_idle (h : s.haltedVce = some e) : (s.engine e).running = none := by
  have := List.find?_some h
  simp only [Bool.and_eq_true, Option.isNone_iff_eq_none] at this
  exact this.2

/-- The debug window returns the word it selects and goes on to the next (R542). -/
theorem execDbgWinDataRead_up (hu : s.up = true) (he : s.ended = false) (hs : s.pwr.st ≠ .sleep) :
    execDbgWinDataRead s = .next s.windowRead := by
  have hr : s.pwr.ready = true := hu
  simp only [execDbgWinDataRead, hr, he, State.wakeUp_eq hs, Bool.not_true, Bool.false_and, Bool.false_eq_true, if_false]

/-- Settles O53: each action under its right, then without it, then the debug window. -/
theorem debugActions : Obligations.DebugActions := by
  unfold Obligations.DebugActions
  intro s w a u
  refine ⟨fun h hd => ?_, fun c hc h hw hr => ?_, fun hu he hs => ?_⟩
  · have hact : ∀ {act bit}, fld w 31 28 = act → bitAt s.dbg.rights bit = true →
        s.dbgAction act bit = some (a, true, u) := fun hc hr => by
      rw [State.dbgAction_some h hc, hd, hr]; rfl
    refine ⟨?halt, ?release, ?step, ?spare, ?on, ?off, ?inject⟩
    case halt =>
      intro hc hr ha hu hv hm
      refine ⟨_, execHalt_right (hact hc hr) ha hu hv hm, ?_⟩
      simp only [State.recordAction_engine]
      exact u.haltEngine_engine a
    case release =>
      intro hc hr hh hl
      obtain ⟨v, hv, hex⟩ := execRelease_right (hact hc hr) hh
      have hve : ∀ i, v.engine i = s.engine i := fun _ => State.engine_eq_of_engines hv
      have hl : v.noLends a := fun i hi => by rw [hve]; exact hl i hi
      obtain ⟨h1, h2⟩ := v.release_engine_self a
      refine ⟨_, hex, ?_⟩
      simp only [State.recordAction_engine]
      exact ⟨h1, h2, fun i hi => (State.release_engine_ne hl hi).trans (hve i)⟩
    case step =>
      intro e k v r m hc hr ha hv hk hs
      cases m with
      | none =>
        refine ⟨_, execDbgStep_advances (hact hc hr) ha hv hk hs, fun _ => ?_, nofun⟩
        rw [State.recordAction_eq]
        exact ⟨State.vce_onVce { u with dbg := { u.dbg with kat := some (e, k) } } e fun _ => r, rfl⟩
      | some c =>
        refine ⟨_, execDbgStep_checks (hact hc hr) ha hv hk hs, nofun, fun _ hm => ?_⟩
        cases hm
        rw [State.recordAction_engine, State.engine_eq_of_engines (State.onVce_engines ..)]
        exact State.machineCheck_fcause (s := u.stepped e k r) c _ (State.haltedVce_idle hv)
    case spare =>
      intro p hc hr ha hp hu hs hcls
      refine ⟨execSpare_waits (u := u) (hact hc hr) ha hp hu hs hcls, fun hrun hz hl => ?_⟩
      have hne : a ≠ p := fun h => by rw [← h, hu] at hs; cases hs
      obtain ⟨h1, h2⟩ := u.exchange_engine_self hne
      obtain ⟨h3, h4, h5⟩ := u.exchange_engine_spare a p
      refine ⟨_, execSpare_exchanges (u := u) (hact hc hr) ha hp hu hs hcls hrun hz, ?_⟩
      simp only [State.recordAction_engine]
      exact ⟨h3, h4, h5, h1, h2, fun i hia hip => State.exchange_engine_ne (s := u) hl hia hip⟩
    case on => exact fun hc hr => execTraceOn_right (hact hc hr)
    case off => exact fun hc hr => execTraceOff_right (hact hc hr)
    case inject => exact fun hc hr hs hcls => execInject_right (hact hc hr) hs hcls
  · have hno : (s.dbg.active && bitAt s.dbg.rights c.2.2) = false := by rcases hr with hr | hr <;> simp [hr]
    exact exec_without_right hc (by rw [State.dbgAction_some h hw, hno])
  · exact ⟨_, execDbgWinDataRead_up hu he hs, rfl, State.reg_setReg .., fun r hr => s.reg_setReg_ne _ hr⟩

end Sys2Proof.Machine
end

section
/-! PROOFS. Authenticated decryption and key unwrap: plaintext goes out under its tag or integrity value alone. -/

namespace Sys2Proof.Machine

variable {s : State} {j fam op : Nat} {x : Job} {ok : Prop}

/-- The result is OK where `ok` holds, and else TAG_MISMATCH without output. -/
def Result.OpensOnly (r : Result) (ok : Prop) : Prop := (ok → r.status = .ok) ∧ (¬ok → r = fail .tagMismatch)

theorem Result.OpensOnly.opened {r : Result} (h : ok) (hr : r.status = .ok) : r.OpensOnly ok :=
  ⟨fun _ => hr, (absurd h ·)⟩

theorem Result.OpensOnly.mismatch (h : ¬ok) : (fail .tagMismatch).OpensOnly ok := ⟨(absurd · h), fun _ => rfl⟩

/-- The first 16 bytes of the tag of AES-GCM, or of ChaCha20-Poly1305. -/
def aeadTag (chacha : Bool) (key nonce aad c : Bytes) : Bytes :=
  fit 16 (if chacha then Config.chachaTag key nonce aad c else Config.gcmTag key nonce aad c)

/-- The plaintext is there exactly where the first bytes of the tag are those of the input (R172, R173). -/
theorem aeadOpen_isSome {chacha : Bool} {key nonce aad c t : Bytes} :
    (aeadOpen chacha key nonce aad c t).isSome = true ↔ (aeadTag chacha key nonce aad c).take t.length = t := by
  show (if (aeadTag chacha key nonce aad c).take t.length = t then some _ else none).isSome = true ↔ _
  split <;> rename_i h <;> simp [h]

/-- AES-GCM and ChaCha20-Poly1305 decryption succeed under their tag alone. -/
theorem aeadDecJob_opensOnly (chacha : Bool) (x : Job) (s : State) :
    let rest := x.inp.drop (leAt x.block 28 4)
    let t := rest.drop (rest.length - symTag x.block)
    ∃ r, aeadDecJob chacha x s = (r, s) ∧ r.OpensOnly
      ((aeadTag chacha (s.bodyOf x) x.nonce (x.inp.take (leAt x.block 28 4))
        (rest.take (rest.length - symTag x.block))).take t.length = t) := by
  intro rest t
  rw [← aeadOpen_isSome]
  unfold aeadDecJob Job.aadSplit tailSplit splitAt
  dsimp only
  cases aeadOpen chacha (s.bodyOf x) x.nonce (x.inp.take (leAt x.block 28 4))
    (rest.take (rest.length - symTag x.block)) t with
  | some p => exact ⟨_, rfl, .opened rfl rfl⟩
  | none => exact ⟨_, rfl, .mismatch nofun⟩

/-- KW and KWP unwrap succeed under their integrity value alone. -/
theorem kwUnwrapJob_opensOnly (kwp : Bool) (x : Job) (s : State) :
    ∃ r, kwUnwrapJob kwp x s = (r, s) ∧ r.OpensOnly
      ((if kwp then Config.kwpUnwrap (s.bodyOf x) x.inp else Config.kwUnwrap (s.bodyOf x) x.inp).isSome = true) := by
  unfold kwUnwrapJob
  cases (if kwp then Config.kwpUnwrap (s.bodyOf x) x.inp else Config.kwUnwrap (s.bodyOf x) x.inp) with
  | some p => exact ⟨_, rfl, .opened rfl rfl⟩
  | none => exact ⟨_, rfl, .mismatch nofun⟩

/-- A command whose operation has such a result ends its job with it. -/
theorem exec_opensOnly {cmd : Instr} {f : Job → State → Result × State} (h : s.Ends j fam op x)
    (hf : ∃ r, f x s = (r, s) ∧ r.OpensOnly ok) (hc : exec cmd s = .next (s.compute j fam op f)) :
    ∃ r, exec cmd s = .next (s.produce j r) ∧ r.OpensOnly ok := by
  obtain ⟨r, hr, ho⟩ := hf
  exact ⟨r, by rw [hc, State.compute_ends h, hr], ho⟩

/-- Settles O22: what each of the four operations gives, and that its job then ends. -/
theorem nothingOpensWithoutItsTag : Obligations.NothingOpensWithoutItsTag := by
  unfold Obligations.NothingOpensWithoutItsTag
  intro s j x aad rest c t ends
  exact ⟨fun h => exec_opensOnly h (aeadDecJob_opensOnly false x s) rfl,
    fun h => exec_opensOnly h (aeadDecJob_opensOnly true x s) rfl,
    fun h => exec_opensOnly h (kwUnwrapJob_opensOnly false x s) rfl,
    fun h => exec_opensOnly h (kwUnwrapJob_opensOnly true x s) rfl⟩

end Sys2Proof.Machine
end

section
/-! PROOFS. Slices and queues under the updates of the host interface. -/

namespace Sys2Proof.Machine

variable {s t : State} {n m q k : Nat}

/-- What every step of a fold keeps, the fold keeps. -/
theorem foldl_related {α : Type} {R : State → State → Prop} {f : State → α → State} (refl : ∀ s, R s s)
    (trans : ∀ {r s t}, R r s → R s t → R r t) (hf : ∀ s a, R s (f s a)) (l : List α) (s : State) :
    R s (l.foldl f s) := by
  induction l generalizing s with
  | nil => exact refl s
  | cons a l ih => exact trans (hf s a) (ih _)

/-! What an update of a queue or slice leaves of the others -/

theorem State.slice_of_slices (h : t.slices = s.slices) (n : Nat) : t.slice n = s.slice n := by
  unfold State.slice; rw [h]

theorem State.sq_of_slices (h : t.slices = s.slices) (n q : Nat) : t.sq n q = s.sq n q := by
  unfold State.sq; rw [State.slice_of_slices h]

theorem State.cq_of_slices (h : t.slices = s.slices) (n q : Nat) : t.cq n q = s.cq n q := by
  unfold State.cq; rw [State.slice_of_slices h]

theorem State.reg_of_regs (h : t.regs = s.regs) (r : Reg) : t.reg r = s.reg r := by
  unfold State.reg; rw [h]

theorem State.slice_onSq_ne (f : Sq → Sq) (h : m ≠ n) : (s.onSq n q f).slice m = s.slice m :=
  State.slice_onSlice_ne _ _ h

theorem State.slice_onCq_ne (f : Cq → Cq) (h : m ≠ n) : (s.onCq n q f).slice m = s.slice m :=
  State.slice_onSlice_ne _ _ h

theorem State.sq_onSq_ne (f : Sq → Sq) (h : k ≠ q) : (s.onSq n q f).sq n k = s.sq n k := by
  unfold State.onSq State.sq
  rw [State.slice_onSlice, mapGet_mapUpd_ne _ _ _ h]

theorem State.cq_onCq_ne (f : Cq → Cq) (h : k ≠ q) : (s.onCq n q f).cq n k = s.cq n k := by
  unfold State.onCq State.cq
  rw [State.slice_onSlice, mapGet_mapUpd_ne _ _ _ h]

/-- A change of a slice that leaves its SQs leaves every SQ. -/
theorem State.sq_onSlice {f : Slice → Slice} (hf : ∀ x, (f x).sqs = x.sqs) : (s.onSlice n f).sq m q = s.sq m q := by
  unfold State.sq
  by_cases h : m = n
  · rw [h, State.slice_onSlice, hf]
  · rw [State.slice_onSlice_ne _ _ h]

/-- A change of a slice that leaves its CQs leaves every CQ. -/
theorem State.cq_onSlice {f : Slice → Slice} (hf : ∀ x, (f x).cqs = x.cqs) : (s.onSlice n f).cq m q = s.cq m q := by
  unfold State.cq
  by_cases h : m = n
  · rw [h, State.slice_onSlice, hf]
  · rw [State.slice_onSlice_ne _ _ h]

@[simp] theorem State.cq_onSq (f : Sq → Sq) : (s.onSq n q f).cq m k = s.cq m k := State.cq_onSlice fun _ => rfl

@[simp] theorem State.sq_onCq (f : Cq → Cq) : (s.onCq n q f).sq m k = s.sq m k := State.sq_onSlice fun _ => rfl

/-! A request changes what is sent, the interface and the free values alone -/

@[simp] theorem State.request_slices (s : State) (p : Option Nat) (a l : Nat) (o : Out) :
    (s.request p a l o).slices = s.slices := by rw [(s.request_sends p a l o).only]

@[simp] theorem State.request_regs (s : State) (p : Option Nat) (a l : Nat) (o : Out) :
    (s.request p a l o).regs = s.regs := by rw [(s.request_sends p a l o).only]

@[simp] theorem State.request_slice (p : Option Nat) (a l : Nat) (o : Out) : (s.request p a l o).slice n = s.slice n :=
  State.slice_of_slices (s.request_slices ..) n

@[simp] theorem State.request_sq (p : Option Nat) (a l : Nat) (o : Out) : (s.request p a l o).sq n q = s.sq n q :=
  State.sq_of_slices (s.request_slices ..) n q

@[simp] theorem State.request_cq (p : Option Nat) (a l : Nat) (o : Out) : (s.request p a l o).cq n q = s.cq n q :=
  State.cq_of_slices (s.request_slices ..) n q

/-! Reads for a slice: what they leave of its rings -/

/-- From `s` to `t` the part asks for reads for slice `n`: its SQs change in what is read alone. -/
structure State.ReadsFor (n : Nat) (s t : State) : Prop where
  sq    : ∀ q, t.sq n q = { s.sq n q with
    reading := (t.sq n q).reading, readAt := (t.sq n q).readAt, fetched := (t.sq n q).fetched }
  cq    : ∀ q, t.cq n q = s.cq n q
  other : ∀ m, m ≠ n → t.slice m = s.slice m

theorem State.ReadsFor.refl (n : Nat) (s : State) : s.ReadsFor n s := ⟨fun _ => rfl, fun _ => rfl, fun _ _ => rfl⟩

theorem State.ReadsFor.trans {r : State} (h : r.ReadsFor n s) (g : s.ReadsFor n t) : r.ReadsFor n t :=
  ⟨fun q => by rw [g.sq q, h.sq q], fun q => (g.cq q).trans (h.cq q), fun m hm => (g.other m hm).trans (h.other m hm)⟩

theorem State.request_readsFor (s : State) (n : Nat) (p : Option Nat) (a l : Nat) (o : Out) :
    s.ReadsFor n (s.request p a l o) :=
  ⟨fun _ => by rw [State.request_sq], fun _ => s.request_cq .., fun _ _ => s.request_slice ..⟩

/-- A change of the slice outside its queues. -/
theorem State.onSlice_readsFor (s : State) (n : Nat) {f : Slice → Slice} (hs : ∀ x, (f x).sqs = x.sqs)
    (hc : ∀ x, (f x).cqs = x.cqs) : s.ReadsFor n (s.onSlice n f) :=
  ⟨fun _ => by rw [State.sq_onSlice hs], fun _ => State.cq_onSlice hc, fun _ hm => State.slice_onSlice_ne _ _ hm⟩

/-- The next descriptor read is issued (R85). -/
theorem State.readDescs_readsFor (s : State) (n q : Nat) : s.ReadsFor n (s.readDescs n q) := by
  unfold State.readDescs
  dsimp only
  split
  · refine .trans ⟨fun k => ?_, fun _ => State.cq_onSq _, fun _ hm => State.slice_onSq_ne _ hm⟩
      (State.request_readsFor ..)
    by_cases h : k = q
    · rw [h, State.sq_onSq]
    · rw [State.sq_onSq_ne _ h]
  · exact .refl n s

theorem State.readQueues_readsFor (s : State) (n : Nat) : s.ReadsFor n (s.readQueues n) := by
  unfold State.readQueues
  split
  · exact .refl n s
  · exact foldl_related (State.ReadsFor.refl n) State.ReadsFor.trans (fun s q => s.readDescs_readsFor n q) _ s

theorem State.capReleased_readsFor (s : State) (n : Nat) : s.ReadsFor n (s.capReleased n) := by
  unfold State.capReleased
  split
  · exact s.onSlice_readsFor n (fun _ => rfl) fun _ => rfl
  · exact .refl n s

/-- A doorbell read is issued, or noted (R63, R71). -/
theorem State.issueDb_readsFor (s : State) (n : Nat) : s.ReadsFor n (s.issueDb n) := by
  unfold State.issueDb
  split
  · exact s.onSlice_readsFor n (fun _ => rfl) fun _ => rfl
  · refine .trans ?_ (State.request_readsFor ..)
    exact s.onSlice_readsFor n (fun _ => rfl) fun _ => rfl

end Sys2Proof.Machine
end

section
/-! PROOFS. Doorbells: polls, nudges, and the page that arrives. -/

namespace Sys2Proof.Machine

variable {s t : State} {n m q k : Nat}

/-! Polls and nudges (R63 to R71) -/

theorem State.awake_not_sleep (h : s.awake = true) : s.pwr.st ≠ .sleep := by
  intro hs
  simp [State.awake, hs] at h

/-- A slice whose doorbell page is read belongs to a READY part. -/
theorem State.dbRuns_up (h : s.dbRuns n = true) : s.up = true := by
  simp only [State.dbRuns, Bool.and_eq_true] at h
  exact h.1.1.1

/-- The nudge windows of the slices 1 to 62 have one owner each (R68). -/
theorem nudgeOwners_window : ∀ n < 63, 1 ≤ n → nudgeOwners (n * 0x1000) = [n] := by decide

/-- A nudge of an awake part at a window with one owner, whose page is read. -/
theorem State.nudge_window {off : Nat} (ha : s.awake = true) (hr : s.dbRuns n = true) (ho : nudgeOwners off = [n]) :
    s.nudge off = s.issueDb n := by
  simp [State.nudge, State.dbRuns_up hr, ha, ho, State.wakeUp_eq (State.awake_not_sleep ha), hr]

/-- Settles O27: a poll that is due and a nudge both issue the doorbell read. -/
theorem doorbellReads : Obligations.DoorbellReads := by
  unfold Obligations.DoorbellReads
  intro s n ha hr t
  refine ⟨fun hdue => ?_, fun h1 h2 => ?_⟩
  · have hdue : (s.slice n).polled + s.pollInterval n ≤ s.el := hdue
    exact congrArg _ (if_pos (by simp [ha, hr, hdue]))
  · exact congrArg _ (State.nudge_window ha hr (nudgeOwners_window n (by omega) h1))

/-! The page arrives (R62, R67, R71, R85, R86, R102) -/

/-- An SQ after the page with word `w` for it. -/
def Sq.withTail (x : Sq) (en : Bool) (size w : Nat) : Sq :=
  if !en || x.err then x else if w ≥ size then { x with err := true, cause := .tailRange } else { x with tail := w }

/-- A CQ after the page with word `w` for it. -/
def Cq.withHead (x : Cq) (en : Bool) (size w : Nat) : Cq :=
  if !en || x.err then x
  else if w ≥ size then { x with err := true, cause := .headRange }
  else
    let k := (w + size - x.head) % size
    { x with head := w, unrel := x.unrel - k, sent := x.sent.drop k }

/-- From `s` to `t` SQ `q` and CQ `q` of slice `n` alone change. -/
structure State.OnlyQueue (n q : Nat) (s t : State) : Prop where
  regs  : t.regs = s.regs
  sq    : ∀ k, k ≠ q → t.sq n k = s.sq n k
  cq    : ∀ k, k ≠ q → t.cq n k = s.cq n k
  other : ∀ m, m ≠ n → t.slice m = s.slice m

theorem State.OnlyQueue.refl (n q : Nat) (s : State) : s.OnlyQueue n q s :=
  ⟨rfl, fun _ _ => rfl, fun _ _ => rfl, fun _ _ => rfl⟩

theorem State.OnlyQueue.trans {r : State} (h : r.OnlyQueue n q s) (g : s.OnlyQueue n q t) : r.OnlyQueue n q t :=
  ⟨g.regs.trans h.regs, fun k hk => (g.sq k hk).trans (h.sq k hk), fun k hk => (g.cq k hk).trans (h.cq k hk),
    fun m hm => (g.other m hm).trans (h.other m hm)⟩

theorem State.onSq_onlyQueue (s : State) (n q : Nat) (f : Sq → Sq) : s.OnlyQueue n q (s.onSq n q f) :=
  ⟨rfl, fun _ hk => State.sq_onSq_ne f hk, fun _ _ => State.cq_onSq f, fun _ hm => State.slice_onSq_ne f hm⟩

theorem State.onCq_onlyQueue (s : State) (n q : Nat) (f : Cq → Cq) : s.OnlyQueue n q (s.onCq n q f) :=
  ⟨rfl, fun _ _ => State.sq_onCq f, fun _ hk => State.cq_onCq_ne f hk, fun _ hm => State.slice_onCq_ne f hm⟩

/-- The word of an SQ changes that SQ. -/
theorem State.takeTail_queue (s : State) (n q : Nat) (w : Word) : s.OnlyQueue n q (s.takeTail n q w) ∧
    (s.takeTail n q w).sq n q = (s.sq n q).withTail (s.sqEn n q) (s.sqSize n q) w.toNat ∧
    (s.takeTail n q w).cq n q = s.cq n q := by
  unfold State.takeTail Sq.withTail
  split
  · exact ⟨.refl n q s, rfl, rfl⟩
  · split <;> exact ⟨s.onSq_onlyQueue n q _, s.sq_onSq .., State.cq_onSq _⟩

/-- The word of a CQ changes that CQ. -/
theorem State.takeHead_queue (s : State) (n q : Nat) (w : Word) : s.OnlyQueue n q (s.takeHead n q w) ∧
    (s.takeHead n q w).sq n q = s.sq n q ∧
    (s.takeHead n q w).cq n q = (s.cq n q).withHead (s.cqEn n q) (s.cqSize n q) w.toNat := by
  unfold State.takeHead Cq.withHead
  split
  · exact ⟨.refl n q s, rfl, rfl⟩
  · split <;> exact ⟨s.onCq_onlyQueue n q _, State.sq_onCq _, s.cq_onCq ..⟩

/-- The words of the page for the queues `q` of slice `n` are taken. -/
def State.takeWords (s : State) (n : Nat) (ws : List Word) (q : Nat) : State :=
  (s.takeTail n q (dword ws q)).takeHead n q (dword ws (16 + q))

/-- SQ and CQ `q` of slice `n` are in `t` as the page leaves those of `s`. -/
def State.TookWords (n : Nat) (ws : List Word) (q : Nat) (s t : State) : Prop :=
  t.sq n q = (s.sq n q).withTail (s.sqEn n q) (s.sqSize n q) (dword ws q).toNat ∧
  t.cq n q = (s.cq n q).withHead (s.cqEn n q) (s.cqSize n q) (dword ws (16 + q)).toNat

theorem State.takeWords_queue (s : State) (n : Nat) (ws : List Word) (q : Nat) :
    s.OnlyQueue n q (s.takeWords n ws q) ∧ s.TookWords n ws q (s.takeWords n ws q) := by
  obtain ⟨h1, hs1, hc1⟩ := s.takeTail_queue n q (dword ws q)
  obtain ⟨h2, hs2, hc2⟩ := (s.takeTail n q (dword ws q)).takeHead_queue n q (dword ws (16 + q))
  refine ⟨h1.trans h2, hs2.trans hs1, hc2.trans ?_⟩
  unfold State.cqEn State.cqSize
  rw [hc1, State.reg_of_regs h1.regs]

/-- What the words make of a queue depends on that queue and its set-up alone. -/
theorem State.TookWords.of_eq {u : State} {ws : List Word} (g : t.TookWords n ws q u) (hr : t.regs = s.regs)
    (hs : t.sq n q = s.sq n q) (hc : t.cq n q = s.cq n q) : s.TookWords n ws q u := by
  unfold State.TookWords State.sqEn State.sqSize State.cqEn State.cqSize at *
  rwa [hs, hc, State.reg_of_regs hr, State.reg_of_regs hr] at g

/-- The words of the queues of `l` leave the other slices, and the queues that are not in `l`. -/
theorem State.takeWords_foldl_leaves (s : State) (n : Nat) (ws : List Word) (l : List Nat) :
    let t := l.foldl (fun (s : State) q => s.takeWords n ws q) s
    (∀ m, m ≠ n → t.slice m = s.slice m) ∧ ∀ q, q ∉ l → t.sq n q = s.sq n q ∧ t.cq n q = s.cq n q := by
  induction l generalizing s with
  | nil => exact ⟨fun _ _ => rfl, fun _ _ => ⟨rfl, rfl⟩⟩
  | cons a l ih =>
    obtain ⟨h, -⟩ := s.takeWords_queue n ws a
    obtain ⟨ho, hq⟩ := ih (s.takeWords n ws a)
    refine ⟨fun m hm => (ho m hm).trans (h.other m hm), fun q hl => ?_⟩
    obtain ⟨hqa, hql⟩ : q ≠ a ∧ q ∉ l := by simpa using hl
    exact ⟨(hq q hql).1.trans (h.sq q hqa), (hq q hql).2.trans (h.cq q hqa)⟩

/-- Each queue of `l` takes its words. -/
theorem State.takeWords_foldl_takes (n : Nat) (ws : List Word) {l : List Nat} (hl : l.Nodup) (hq : q ∈ l) (s : State) :
    s.TookWords n ws q (l.foldl (fun (s : State) q => s.takeWords n ws q) s) := by
  induction l generalizing s with
  | nil => cases hq
  | cons a l ih =>
    obtain ⟨ha, hl⟩ := List.nodup_cons.1 hl
    obtain ⟨hk, ht⟩ := s.takeWords_queue n ws a
    rcases List.mem_cons.1 hq with rfl | hq
    · obtain ⟨hsq, hcq⟩ := ((s.takeWords n ws q).takeWords_foldl_leaves n ws l).2 q ha
      exact ⟨hsq.trans ht.1, hcq.trans ht.2⟩
    · have hqa : q ≠ a := fun h => ha (h ▸ hq)
      exact (ih hl hq _).of_eq hk.regs (hk.sq q hqa) (hk.cq q hqa)

/-- Slice `n` with its read ended and the words of the page taken. -/
def State.pageTaken (s : State) (n : Nat) (ws : List Word) : State :=
  (List.range 16).foldl (fun (s : State) q => s.takeWords n ws q)
    (s.onSlice n fun x => { x with dbReading := false, dbAgain := false })

/-- The page of an outstanding read is taken; what follows are reads. -/
theorem execDoorbellReadData_eq (ws : List Word) (h : (s.slice n).dbReading = true) :
    exec (.doorbellReadData n ws) s = .next (
      let t := ((s.pageTaken n ws).capReleased n).readQueues n
      if (s.slice n).dbAgain && t.dbRuns n then t.issueDb n else t) := by
  show Host.Outcome.next (if !(s.slice n).dbReading then s else _) = _
  rw [h]
  rfl

theorem execDoorbellReadData_reads (ws : List Word) (h : (s.slice n).dbReading = true) :
    ∃ t, exec (.doorbellReadData n ws) s = .next t ∧ (s.pageTaken n ws).ReadsFor n t := by
  refine ⟨_, execDoorbellReadData_eq ws h, ?_⟩
  have hv := ((s.pageTaken n ws).capReleased_readsFor n).trans (State.readQueues_readsFor _ n)
  dsimp only
  split
  · exact hv.trans (State.issueDb_readsFor _ n)
  · exact hv

/-- Every queue of the slice takes its words. -/
theorem State.pageTaken_takes (s : State) (n : Nat) (ws : List Word) (hq : q < 16) :
    s.TookWords n ws q (s.pageTaken n ws) :=
  (State.takeWords_foldl_takes n ws List.nodup_range (List.mem_range.2 hq) _).of_eq rfl (State.sq_onSlice fun _ => rfl)
    (State.cq_onSlice fun _ => rfl)

/-- The other slices are left. -/
theorem State.pageTaken_slice_ne (s : State) (ws : List Word) (hm : m ≠ n) : (s.pageTaken n ws).slice m = s.slice m :=
  ((State.takeWords_foldl_leaves _ n ws _).1 m hm).trans (State.slice_onSlice_ne _ _ hm)

/-- The word of an enabled SQ without an error (R62, R67). -/
theorem Sq.withTail_running {x : Sq} {size w : Nat} (he : x.err = false) :
    (x.withTail true size w).head = x.head ∧
    if w < size then (x.withTail true size w).tail = w ∧ (x.withTail true size w).err = false
    else (x.withTail true size w).err = true ∧ (x.withTail true size w).cause = .tailRange ∧
      (x.withTail true size w).tail = x.tail := by
  unfold Sq.withTail
  rcases Nat.lt_or_ge w size with hw | hw
  · simp [he, hw, Nat.not_le.2 hw]
  · simp [he, hw, Nat.not_lt.2 hw]

/-- The word of an enabled CQ without an error (R86, R102). -/
theorem Cq.withHead_running {x : Cq} {size w : Nat} (he : x.err = false) :
    if w < size then (x.withHead true size w).head = w ∧ (x.withHead true size w).err = false ∧
      (x.withHead true size w).unrel = x.unrel - (w + size - x.head) % size
    else (x.withHead true size w).err = true ∧ (x.withHead true size w).cause = .headRange := by
  unfold Cq.withHead
  rcases Nat.lt_or_ge w size with hw | hw
  · simp [he, hw, Nat.not_le.2 hw]
  · simp [he, hw, Nat.not_lt.2 hw]

/-- Settles O28: every queue takes its words, and the reads that follow leave the places of the rings. -/
theorem doorbellPageArrives : Obligations.DoorbellPageArrives := by
  unfold Obligations.DoorbellPageArrives
  intro s n ws hr
  obtain ⟨t, ht, hread⟩ := execDoorbellReadData_reads ws hr
  refine ⟨t, ht, fun q hq hen he => ?_, fun q hq hen he => ?_, fun m hm => ?_⟩
  · obtain ⟨h, -⟩ := s.pageTaken_takes n ws hq
    rw [hread.sq q, h, hen]
    exact Sq.withTail_running he
  · obtain ⟨-, h⟩ := s.pageTaken_takes n ws hq
    rw [hread.cq q, h, hen]
    exact Cq.withHead_running he
  · rw [hread.other m hm, s.pageTaken_slice_ne ws hm]

end Sys2Proof.Machine
end

section
/-! PROOFS. The set-up of queues: writes of SLC_SQq_CFG and SLC_CQq_CFG. -/

namespace Sys2Proof.Machine

variable {s : State} {n q : Nat} {v : Word}

/-! Bits of a written word -/

theorem bitAt_and (a b : Word) (i : Nat) : bitAt (a &&& b) i = (bitAt a i && bitAt b i) := BitVec.getLsbD_and

/-- A bit that the frozen fields leave out is that of the word written. -/
theorem bitAt_frozen (old v m : Word) {i : Nat} (hi : i < 32) (hm : bitAt m i = false) :
    bitAt (frozen old v m) i = bitAt v i := by
  unfold bitAt frozen at *
  rw [BitVec.getLsbD_or, BitVec.getLsbD_and, BitVec.getLsbD_and, BitVec.getLsbD_not, hm]
  simp [hi]

/-- A field that the mask covers is that of the word written. -/
theorem fld_and (v m : Word) {hi lo : Nat} (hm : ∀ i < hi + 1 - lo, bitAt m (i + lo) = true) :
    fld (v &&& m) hi lo = fld v hi lo := by
  refine Nat.eq_of_testBit_eq fun i => ?_
  simp only [fld, BitVec.toNat_and, Nat.testBit_mod_two_pow, Nat.testBit_div_two_pow, Nat.testBit_and]
  by_cases hi' : i < hi + 1 - lo
  · have h : m.toNat.testBit (i + lo) = true := hm i hi'
    rw [h, Bool.and_true]
  · simp [hi']

@[simp] theorem Reg.mask_cqCfg (n q : Nat) : (Reg.cqCfg n q).mask = 0xC7FF001F := rfl

@[simp] theorem Reg.mask_sqCfg (n q : Nat) : (Reg.sqCfg n q).mask = 0xF00F001F := rfl

/-- The word in effect, written with EN 0: its other bits stay. -/
theorem bitAt_clearEn (old : Word) {i : Nat} (hi : i < 31) : bitAt (old &&& 0x7FFFFFFF) i = bitAt old i := by
  have h : bitAt (0x7FFFFFFF : Word) i = true := by
    revert i; decide
  rw [bitAt_and, h, Bool.and_true]

theorem bitAt_clearEn_en (old : Word) : bitAt (old &&& 0x7FFFFFFF) 31 = false := by
  rw [bitAt_and]
  exact Bool.and_false _

/-! Writes of the set-up registers by their outcome (R80 to R82) -/

/-- CQ_ENABLE: the set-up is in effect, and the ring starts anew with the entries it still owes. -/
theorem State.writeCqCfg_enables (hres : s.reservedFor (.cqCfg n q) (v &&& (Reg.cqCfg n q).mask) = false)
    (hold : bitAt (s.reg (.cqCfg n q)) 31 = false) (hen : bitAt v 31 = true) (ha : s.sliceState n = .active) :
    s.writeCqCfg n q v = (s.setReg (.cqCfg n q) (v &&& (Reg.cqCfg n q).mask)).onCq n q fun x =>
      { owed := x.owed, gather := x.gather, since := x.since } := by
  have hen : bitAt (v &&& (Reg.cqCfg n q).mask) 31 = true := by rw [bitAt_and, hen, Reg.mask_cqCfg]; decide
  simp only [State.writeCqCfg, hres, hold, hen, ha, Bool.not_true, Bool.false_eq_true, if_false, ne_eq, not_true]

/-- CQ_DISABLE of a CQ that no enabled SQ names: EN is clear. -/
theorem State.writeCqCfg_disables (hres : s.reservedFor (.cqCfg n q) (v &&& (Reg.cqCfg n q).mask) = false)
    (hold : bitAt (s.reg (.cqCfg n q)) 31 = true) (hen : bitAt v 31 = false)
    (hfree : ∀ k < 16, s.sqEn n k = true → s.cqOf n k ≠ q) :
    bitAt ((s.writeCqCfg n q v).reg (.cqCfg n q)) 31 = false := by
  have hen : bitAt (v &&& (Reg.cqCfg n q).mask) 31 = false := by rw [bitAt_and, hen, Bool.false_and]
  have hany : ((List.range 16).any fun k => s.sqEn n k && decide (s.cqOf n k = q)) = false := by
    simpa using hfree
  simp only [State.writeCqCfg, hres, hold, hany, Bool.and_false, Bool.false_eq_true, if_false, if_true,
    State.reg_setReg]
  rw [bitAt_frozen _ _ _ (by decide) (by decide), hen]

/-- SQ_ENABLE: the set-up is in effect, and the ring starts at 0. -/
theorem State.writeSqCfg_enables (hres : s.reservedFor (.sqCfg n q) (v &&& (Reg.sqCfg n q).mask) = false)
    (hold : bitAt (s.reg (.sqCfg n q)) 31 = false) (hen : bitAt v 31 = true) (ha : s.sliceState n = .active)
    (hcq : s.cqEn n (fld v 19 16) = true) (hprot : bitAt v 30 = true → bitAt (s.reg (.perm n)) 0 = true) :
    s.writeSqCfg n q v = (s.setReg (.sqCfg n q) (v &&& (Reg.sqCfg n q).mask)).onSq n q fun _ => {} := by
  have hen : bitAt (v &&& (Reg.sqCfg n q).mask) 31 = true := by rw [bitAt_and, hen, Reg.mask_sqCfg]; decide
  have hcq : s.cqEn n (fld (v &&& (Reg.sqCfg n q).mask) 19 16) = true := by
    rw [fld_and v _ (by rw [Reg.mask_sqCfg]; decide), hcq]
  have hp : (bitAt (v &&& (Reg.sqCfg n q).mask) 30 && !bitAt (s.reg (.sqCfg n q)) 30 && !bitAt (s.reg (.perm n)) 0)
      = false := by
    rw [bitAt_and]
    cases h : bitAt v 30
    · simp only [Bool.false_and]
    · simp only [hprot h, Bool.not_true, Bool.and_false]
  simp only [State.writeSqCfg, hres, hp, hold, hen, hcq, ha, Bool.or_self, Bool.not_true, Bool.false_eq_true, if_false,
    ne_eq, not_true, or_self]

/-- SQ_DISABLE of an enabled SQ: EN is clear, and no read is outstanding. -/
theorem State.writeSqCfg_disables (hres : s.reservedFor (.sqCfg n q) (v &&& (Reg.sqCfg n q).mask) = false)
    (hold : bitAt (s.reg (.sqCfg n q)) 31 = true) (hv : v = s.reg (.sqCfg n q) &&& 0x7FFFFFFF) :
    bitAt ((s.writeSqCfg n q v).reg (.sqCfg n q)) 31 = false ∧ ((s.writeSqCfg n q v).sq n q).reading = false := by
  have hen : bitAt (v &&& (Reg.sqCfg n q).mask) 31 = false := by rw [bitAt_and, hv, bitAt_clearEn_en, Bool.false_and]
  have hp : (bitAt (v &&& (Reg.sqCfg n q).mask) 30 && !bitAt (s.reg (.sqCfg n q)) 30 && !bitAt (s.reg (.perm n)) 0)
      = false := by
    rw [bitAt_and, hv, bitAt_clearEn _ (by decide)]
    cases bitAt (s.reg (.sqCfg n q)) 30 <;> simp
  simp only [State.writeSqCfg, hres, hp, hold, hen, Bool.or_self, Bool.false_eq_true, if_false, if_true, State.sq_onSq,
    and_true]
  show bitAt ((State.setReg _ _ _).reg _) 31 = false
  rw [State.reg_setReg, bitAt_frozen _ _ _ (by decide) (by decide), hen]

/-! The commands, on a part that takes the write -/

theorem execCqEnable_takes (h : s.Takes (Reg.cqCfg n q).addr) (hq : q < 16) (hen : bitAt v 31 = true) :
    exec (.cqEnable n q v) s = .next (s.wakeUp.writeCqCfg n q v) := by
  show execCqEnable n q v s = _
  rw [execCqEnable, if_pos ⟨hq, hen⟩, State.gate_takes h]

theorem execCqDisable_takes (h : s.Takes (Reg.cqCfg n q).addr) (hq : q < 16) (hen : bitAt v 31 = false) :
    exec (.cqDisable n q v) s = .next (s.wakeUp.writeCqCfg n q v) := by
  show execCqDisable n q v s = _
  rw [execCqDisable, if_pos ⟨hq, by rw [hen]; rfl⟩, State.gate_takes h]

theorem execSqEnable_takes (h : s.Takes (Reg.sqCfg n q).addr) (hq : q < 16) (hen : bitAt v 31 = true) :
    exec (.sqEnable n q v) s = .next (s.wakeUp.writeSqCfg n q v) := by
  show execSqEnable n q v s = _
  rw [execSqEnable, if_pos ⟨hq, hen⟩, State.gate_takes h]

theorem execSqDisable_takes (h : s.Takes (Reg.sqCfg n q).addr) (hq : q < 16) (hen : bitAt v 31 = false) :
    exec (.sqDisable n q v) s = .next (s.wakeUp.writeSqCfg n q v) := by
  show execSqDisable n q v s = _
  rw [execSqDisable, if_pos ⟨hq, by rw [hen]; rfl⟩, State.gate_takes h]

/-- Settles O31: the four writes, each by its outcome. -/
theorem queueSetUp : Obligations.QueueSetUp := by
  unfold Obligations.QueueSetUp
  intro s n q v hq ha w
  refine ⟨?cqEnable, ?sqEnable, ?sqDisable, ?cqDisable⟩
  case cqEnable =>
    intro h hen hold hres
    refine ⟨_, execCqEnable_takes h hq hen, ?_⟩
    rw [State.writeCqCfg_enables hres hold hen ha, State.cq_onCq]
    exact ⟨State.reg_setReg .., rfl, rfl, rfl, rfl⟩
  case sqEnable =>
    intro h hen hold hres hcq hprot
    refine ⟨_, execSqEnable_takes h hq hen, ?_⟩
    rw [State.writeSqCfg_enables hres hold hen ha hcq hprot]
    exact ⟨State.reg_setReg .., State.sq_onSq ..⟩
  case sqDisable =>
    intro h hold hv hres
    exact ⟨_, execSqDisable_takes h hq (hv ▸ bitAt_clearEn_en _), State.writeSqCfg_disables hres hold hv⟩
  case cqDisable =>
    intro h hold hv hres hfree
    have hen : bitAt v 31 = false := hv ▸ bitAt_clearEn_en _
    exact ⟨_, execCqDisable_takes h hq hen, State.writeCqCfg_disables hres hold hen hfree⟩

end Sys2Proof.Machine
end

section
/-! PROOFS. What the part sends for a completion queue: requests, messages, and the writes of its entries. -/

namespace Sys2Proof.Machine

variable {s t : State} {n q v : Nat}

/-! Requests -/

/-- A cached page needs no translation request (R57). -/
theorem State.translate_cached {p : Option Nat} {a : Nat} (l : List Nat)
    (h : (s.translation (pasidKey p) a).isSome = true) : s.translate p (a :: l) = s.translate p l := by
  rw [State.translate]
  exact if_pos h

/-- The host denies a page that was asked for. -/
theorem State.translate_refused {p : Option Nat} {a : Nat} (l : List Nat)
    (h : (s.translation (pasidKey p) a).isSome = false) (hd : Config.atsDenied (pasidKey p) a s.freeCtr = true) :
    s.translate p (a :: l) = (false, { s.emit (.translate p a) with freeCtr := s.freeCtr + 1 }) := by
  rw [State.translate, h]
  exact if_pos hd

/-- The host grants a page that was asked for. -/
theorem State.translate_granted {p : Option Nat} {a : Nat} (l : List Nat)
    (h : (s.translation (pasidKey p) a).isSome = false) (hd : Config.atsDenied (pasidKey p) a s.freeCtr = false) :
    s.translate p (a :: l) = ((s.emit (.translate p a)).cachePage (pasidKey p) a).translate p l := by
  rw [State.translate, h]
  exact if_neg (Bool.eq_false_iff.1 hd)

/-- A translation that is denied was asked for. -/
theorem State.translate_denied {p : Option Nat} {l : List Nat} (s : State) (h : (s.translate p l).1 = false) :
    ∃ o, (s.translate p l).2.out = s.out ++ o ∧ o ≠ [] := by
  induction l generalizing s with
  | nil => cases h
  | cons a l ih =>
    cases hc : (s.translation (pasidKey p) a).isSome
    · cases hd : Config.atsDenied (pasidKey p) a s.freeCtr
      · rw [State.translate_granted l hc hd] at h ⊢
        obtain ⟨o, ho, -⟩ := ih _ h
        exact ⟨_, ho.trans (List.append_assoc ..), List.cons_ne_nil _ _⟩
      · rw [State.translate_refused l hc hd]
        exact ⟨_, rfl, List.cons_ne_nil _ _⟩
    · rw [State.translate_cached l hc] at h ⊢
      exact ih s h

/-- A request sends something, if only the translation request that is denied. -/
theorem State.request_out (s : State) (p : Option Nat) (a l : Nat) (o : Out) :
    ∃ x, (s.request p a l o).out = s.out ++ x ∧ x ≠ [] := by
  unfold State.request
  split
  · exact ⟨_, rfl, List.cons_ne_nil _ _⟩
  · dsimp only
    obtain ⟨x, hx⟩ := (s.translate_sends p (pagesOf a l)).out
    split <;> rename_i u hu
    · rw [hu] at hx
      exact ⟨x ++ [_], by rw [← List.append_assoc, hx]; rfl, by simp⟩
    · have h := s.translate_denied (p := p) (l := pagesOf a l)
      rw [hu] at h
      exact h rfl

/-- Translations do not depend on the slices. -/
theorem State.translate_onSlice (p : Option Nat) (l : List Nat) (f : Slice → Slice) (s : State) :
    (s.onSlice n f).translate p l = ((s.translate p l).1, (s.translate p l).2.onSlice n f) := by
  induction l generalizing s with
  | nil => rfl
  | cons a l ih =>
    cases hc : (s.translation (pasidKey p) a).isSome
    · cases hd : Config.atsDenied (pasidKey p) a s.freeCtr
      · rw [State.translate_granted l hc hd, State.translate_granted (s := s.onSlice n f) l hc hd]
        exact ih ((s.emit (.translate p a)).cachePage (pasidKey p) a)
      · rw [State.translate_refused l hc hd, State.translate_refused (s := s.onSlice n f) l hc hd]
        rfl
    · rw [State.translate_cached l hc, State.translate_cached (s := s.onSlice n f) l hc]
      exact ih s

/-- Neither does what a request sends. -/
theorem State.request_onSlice (p : Option Nat) (a l : Nat) (o : Out) (f : Slice → Slice) (s : State) :
    (s.onSlice n f).request p a l o = (s.request p a l o).onSlice n f := by
  unfold State.request
  dsimp only
  rw [State.translate_onSlice, State.onSlice_hif]
  cases s.hif.ats
  · rfl
  · generalize s.translate p (pagesOf a l) = u
    obtain ⟨b, u⟩ := u
    cases b <;> rfl

/-! Messages (R53, R103, R654) -/

/-- The pending bit of vector `v` is written. -/
def State.setPba (s : State) (v : Nat) (b : Bool) : State :=
  { s with hif := { s.hif with pba := mapSet false s.hif.pba v b } }

@[simp] theorem State.setPba_pba (s : State) (v : Nat) (b : Bool) : mapGet false (s.setPba v b).hif.pba v = b :=
  mapGet_mapSet_self false s.hif.pba v b

theorem State.setPba_pba_ne (s : State) {v i : Nat} (b : Bool) (h : i ≠ v) :
    mapGet false (s.setPba v b).hif.pba i = mapGet false s.hif.pba i :=
  mapGet_mapSet_ne false s.hif.pba b h

@[simp] theorem State.setPba_msix (s : State) (v i : Nat) (b : Bool) : (s.setPba v b).msix i = s.msix i := rfl

@[simp] theorem State.setPba_out (s : State) (v : Nat) (b : Bool) : (s.setPba v b).out = s.out := rfl

theorem State.message_masked (h : (s.msix v).mask = true) : s.message v = s.setPba v true := by
  unfold State.message
  exact if_pos h

theorem State.message_unmasked (h : (s.msix v).mask = false) :
    s.message v = s.emit (.message v ((s.msix v).lo.toNat / 4 * 4 + 2 ^ 32 * (s.msix v).hi.toNat) (s.msix v).data) := by
  unfold State.message
  exact if_neg (Bool.eq_false_iff.1 h)

@[simp] theorem State.message_slices (s : State) (v : Nat) : (s.message v).slices = s.slices := by
  unfold State.message
  dsimp only
  split <;> rfl

/-- At most one message goes out. -/
theorem State.message_out (s : State) (v : Nat) : ∃ l, (s.message v).out = s.out ++ l ∧ l.length ≤ 1 := by
  cases h : (s.msix v).mask
  · exact ⟨[_], by rw [State.message_unmasked h]; rfl, Nat.le_refl 1⟩
  · exact ⟨[], by rw [State.message_masked h, List.append_nil, State.setPba_out], Nat.zero_le 1⟩

/-- The moderation condition holds: no entry is unannounced, and the message of the vector goes (R103). -/
theorem State.signal_now (hi : bitAt (s.reg (.cqCfg n q)) 30 = true) (hu : (s.cq n q).unsig ≠ 0) :
    s.signal n q true =
      (s.onCq n q fun c => { c with unsig := 0 }).message (fld (s.reg (.cqCfg n q)) 26 16) := by
  simp [State.signal, hi, hu]

/-- Announcing changes the count of unannounced entries, and sends at most one message. -/
theorem State.signal_spec (s : State) (n q : Nat) (now : Bool) :
    ((s.signal n q now).cq n q = { s.cq n q with unsig := ((s.signal n q now).cq n q).unsig }) ∧
    ∃ l, (s.signal n q now).out = s.out ++ l ∧ l.length ≤ 1 := by
  have hs : s.cq n q = { s.cq n q with unsig := (s.cq n q).unsig } ∧ ∃ l, s.out = s.out ++ l ∧ l.length ≤ 1 :=
    ⟨rfl, [], (List.append_nil _).symm, Nat.zero_le 1⟩
  unfold State.signal
  dsimp only
  split
  · exact hs
  · split
    · refine ⟨?_, State.message_out _ _⟩
      rw [State.cq_of_slices (State.message_slices ..), State.cq_onCq]
    · exact hs

/-! Writes of entries (R100, R101) -/

/-- A CQ after a write of the entries `es`, `k` of them, at elapsed time `el`; `wrap`: up to the end of the ring. -/
def Cq.wrote (c : Cq) (wrap : Bool) (el k : Nat) (es : List Entry) : Cq :=
  { c with
    tail := if wrap then 0 else c.tail + k, phase := if wrap then !c.phase else c.phase, owed := c.owed - k
    unrel := c.unrel + k, sent := c.sent ++ es, oldest := if c.unsig = 0 then el else c.oldest, unsig := c.unsig + k }

/-- How many of the entries the next write takes: up to the end of the block and of the ring. -/
def State.groupSize (s : State) (n q : Nat) (es : List Entry) : Nat :=
  min es.length (min (4 - (s.cq n q).tail % 4) (s.cqSize n q - (s.cq n q).tail))

/-- One write of the entries `es`, `k` of them, at TAIL. -/
def State.writeGroup (s : State) (n q k : Nat) (es : List Entry) : State :=
  let a := s.pair (.cqBase n q) + 32 * (s.cq n q).tail
  let t := s.request (s.pasidOf n) a (32 * k)
    (.cqWrite n q (s.pasidOf n) a (es.map fun x => x.words' (s.sq n x.sq).head (s.cq n q).phase))
  t.onCq n q fun c => c.wrote (decide ((s.cq n q).tail + k ≥ s.cqSize n q)) t.el k es

@[simp] theorem State.writeEntries_nil (fuel : Nat) (s : State) (n q : Nat) : s.writeEntries fuel n q [] = s := by
  cases fuel <;> rfl

/-- Entries are written group by group, each announced where the condition holds. -/
theorem State.writeEntries_succ (fuel : Nat) (s : State) (n q : Nat) {es : List Entry} (h : es ≠ []) :
    State.writeEntries (fuel + 1) s n q es =
      ((s.writeGroup n q (s.groupSize n q es) (es.take (s.groupSize n q es))).signal n q
        ((es.take (s.groupSize n q es)).any Entry.prot)).writeEntries fuel n q (es.drop (s.groupSize n q es)) := by
  cases es with
  | nil => exact absurd rfl h
  | cons e es => rfl

/-- From `s` to `t` entries of CQ `q` are written: what it gathers, its head and its error stay. -/
structure State.WritesCq (n q : Nat) (s t : State) : Prop where
  gather : (t.cq n q).gather = (s.cq n q).gather
  head   : (t.cq n q).head = (s.cq n q).head
  err    : (t.cq n q).err = (s.cq n q).err
  cause  : (t.cq n q).cause = (s.cq n q).cause
  out    : s.out <+: t.out

theorem State.WritesCq.refl (n q : Nat) (s : State) : s.WritesCq n q s := ⟨rfl, rfl, rfl, rfl, List.prefix_rfl⟩

theorem State.WritesCq.trans {r : State} (h : r.WritesCq n q s) (g : s.WritesCq n q t) : r.WritesCq n q t :=
  ⟨g.gather.trans h.gather, g.head.trans h.head, g.err.trans h.err, g.cause.trans h.cause, h.out.trans g.out⟩

theorem State.writeGroup_cq (s : State) (n q k : Nat) (es : List Entry) :
    ∃ el, (s.writeGroup n q k es).cq n q = (s.cq n q).wrote (decide ((s.cq n q).tail + k ≥ s.cqSize n q)) el k es := by
  unfold State.writeGroup
  dsimp only
  rw [State.cq_onCq, State.request_cq]
  exact ⟨_, rfl⟩

theorem State.writeGroup_writesCq (s : State) (n q k : Nat) (es : List Entry) :
    s.WritesCq n q (s.writeGroup n q k es) := by
  obtain ⟨el, h⟩ := s.writeGroup_cq n q k es
  refine ⟨by rw [h]; rfl, by rw [h]; rfl, by rw [h]; rfl, by rw [h]; rfl, ?_⟩
  exact (s.request_sends ..).out

theorem State.signal_writesCq (s : State) (n q : Nat) (now : Bool) : s.WritesCq n q (s.signal n q now) := by
  obtain ⟨h, l, hl, -⟩ := s.signal_spec n q now
  exact ⟨by rw [h], by rw [h], by rw [h], by rw [h], hl ▸ List.prefix_append ..⟩

theorem State.writeEntries_writesCq (s : State) (fuel n q : Nat) (es : List Entry) :
    s.WritesCq n q (s.writeEntries fuel n q es) := by
  induction fuel generalizing s es with
  | zero => exact .refl n q s
  | succ fuel ih =>
    by_cases h : es = []
    · rw [h, State.writeEntries_nil]
      exact .refl n q s
    · rw [State.writeEntries_succ _ _ _ _ h]
      exact ((s.writeGroup_writesCq ..).trans (State.signal_writesCq ..)).trans (ih ..)

/-- Entries that fit one write go out in one. -/
theorem State.writeEntries_oneGroup {es : List Entry} (hne : es ≠ []) (hk : s.groupSize n q es = es.length) :
    s.writeEntries es.length n q es = (s.writeGroup n q es.length es).signal n q (es.any Entry.prot) := by
  obtain ⟨k, hl⟩ := Nat.exists_eq_succ_of_ne_zero (mt List.length_eq_zero_iff.1 hne)
  have h := State.writeEntries_succ k s n q hne
  rw [hk, List.take_length, List.drop_length, State.writeEntries_nil] at h
  rwa [hl] at h ⊢

/-- The state from which the entries gathered are written. -/
def State.ungathered (s : State) (n q : Nat) : State := s.onCq n q fun c => { c with gather := [] }

@[simp] theorem State.ungathered_cq (s : State) (n q : Nat) :
    (s.ungathered n q).cq n q = { s.cq n q with gather := [] } := State.cq_onCq ..

/-- What was gathered for a CQ that is not stopped is written. -/
theorem State.flushCq_writes (hg : (s.cq n q).gather ≠ []) (he : (s.cq n q).err = false) :
    s.flushCq n q = (s.ungathered n q).writeEntries (s.cq n q).gather.length n q (s.cq n q).gather := by
  simp [State.flushCq, State.ungathered, hg, he]

/-- A CQ that is not stopped gathers nothing after a flush, and keeps its head. -/
theorem State.flushCq_cq (he : (s.cq n q).err = false) : ((s.flushCq n q).cq n q).gather = [] ∧
    ((s.flushCq n q).cq n q).head = (s.cq n q).head ∧ ((s.flushCq n q).cq n q).err = false ∧
    ((s.flushCq n q).cq n q).cause = (s.cq n q).cause := by
  by_cases hg : (s.cq n q).gather = []
  · have h : s.flushCq n q = s := by simp [State.flushCq, hg]
    rw [h]
    exact ⟨hg, rfl, he, rfl⟩
  · rw [State.flushCq_writes hg he]
    have h := (s.ungathered n q).writeEntries_writesCq (s.cq n q).gather.length n q (s.cq n q).gather
    rw [h.gather, h.head, h.err, h.cause, State.ungathered_cq]
    exact ⟨rfl, rfl, he, rfl⟩

end Sys2Proof.Machine
end

section
/-! PROOFS. Waking from SLEEP: the part and its slices stay as they were, but for the DRBG instances. -/

namespace Sys2Proof.Machine

variable {s t : State} {n q : Nat}

/-- From `s` to `t` instances of DRBGs change, and what seeds them. -/
structure State.Reseeds (s t : State) : Prop where
  only  : t = { s with rng := t.rng, slices := t.slices }
  slice : ∀ n, t.slice n = { s.slice n with drbg := (t.slice n).drbg }

theorem State.Reseeds.refl (s : State) : s.Reseeds s := ⟨rfl, fun _ => rfl⟩

theorem State.Reseeds.trans {r : State} (h : r.Reseeds s) (g : s.Reseeds t) : r.Reseeds t :=
  ⟨by rw [g.only, h.only], fun n => by rw [g.slice n, h.slice n]⟩

theorem State.setDrbg_reseeds (s : State) (i : Nat) (d : Drbg) : s.Reseeds (s.setDrbg i d) := by
  unfold State.setDrbg
  split
  case h_7 =>
    refine ⟨rfl, fun n => ?_⟩
    by_cases h : n = i - 256
    · rw [h, State.slice_onSlice]
    · rw [State.slice_onSlice_ne _ _ h]
  all_goals exact ⟨rfl, fun _ => rfl⟩

theorem State.poolSeed_reseeds (s : State) (i : Nat) : s.Reseeds (s.poolSeed i) := by
  unfold State.poolSeed State.takePool
  split
  next h =>
    split at h <;> cases h
    refine .trans ?_ (State.setDrbg_reseeds ..)
    exact ⟨rfl, fun _ => rfl⟩
  next => exact .refl s

theorem State.fromD0_reseeds (s : State) (i : Nat) : s.Reseeds (s.fromD0 i) := by
  have hp : ∀ c : Prop, [Decidable c] → s.Reseeds (if c then s.poolSeed 0 else s) := fun c _ => by
    split
    · exact s.poolSeed_reseeds 0
    · exact .refl s
  unfold State.fromD0
  split
  · exact .refl s
  · exact ((hp _).trans (State.setDrbg_reseeds ..)).trans (State.setDrbg_reseeds ..)

theorem State.reseedAll_reseeds (s : State) : s.Reseeds s.reseedAll := by
  refine foldl_related State.Reseeds.refl State.Reseeds.trans (fun s i => ?_) _ s
  unfold State.reseed
  split
  · split
    · exact s.poolSeed_reseeds i
    · exact s.fromD0_reseeds i
  · exact .refl s

/-- The part wakes: power state, instances and journal apart, everything stays (R478, R591). -/
theorem State.wakeUp_only (s : State) :
    s.wakeUp = { s with pwr := s.wakeUp.pwr, rng := s.wakeUp.rng, slices := s.wakeUp.slices, evr := s.wakeUp.evr } := by
  unfold State.wakeUp
  split
  · have h := (State.reseedAll_reseeds { s with pwr := { s.pwr with st := .run, dozeAt := s.el } }).only
    unfold State.event
    rw [State.intake_eq, h]
  · rfl

@[simp] theorem State.wakeUp_hif (s : State) : s.wakeUp.hif = s.hif := by rw [s.wakeUp_only]

theorem State.wakeUp_slice (s : State) (n : Nat) :
    s.wakeUp.slice n = { s.slice n with drbg := (s.wakeUp.slice n).drbg } := by
  unfold State.wakeUp
  split
  · rw [State.slice_of_slices (State.event_slices ..)]
    exact (State.reseedAll_reseeds { s with pwr := { s.pwr with st := .run, dozeAt := s.el } }).slice n
  · rfl

@[simp] theorem State.wakeUp_sq (s : State) (n q : Nat) : s.wakeUp.sq n q = s.sq n q := by
  unfold State.sq; rw [s.wakeUp_slice]

@[simp] theorem State.wakeUp_cq (s : State) (n q : Nat) : s.wakeUp.cq n q = s.cq n q := by
  unfold State.cq; rw [s.wakeUp_slice]

end Sys2Proof.Machine
end

section
/-! PROOFS. What falls due at the host interface: gathered entries, moderated messages, unmasked vectors, invalidations. -/

namespace Sys2Proof.Machine

variable {s : State} {n q v : Nat}

/-! Gathered entries (R100, R101) -/

theorem execCoalesceTimeout_due (hg : (s.cq n q).gather ≠ [])
    (hd : (s.cq n q).since + fld (s.reg .hifCoal) 10 0 ≤ s.el) :
    exec (.coalesceTimeout n q) s = .next (s.flushCq n q) := by
  show execCoalesceTimeout n q s = _
  simp [execCoalesceTimeout, hg, hd]

/-- What is gathered goes out. -/
theorem State.flushCq_sends (hg : (s.cq n q).gather ≠ []) (he : (s.cq n q).err = false) :
    ∃ o, (s.flushCq n q).out = s.out ++ o ∧ o ≠ [] := by
  obtain ⟨k, hk⟩ := Nat.exists_eq_succ_of_ne_zero (mt List.length_eq_zero_iff.1 hg)
  rw [State.flushCq_writes hg he, hk, State.writeEntries_succ _ _ _ _ hg]
  generalize (s.ungathered n q).groupSize n q (s.cq n q).gather = m
  obtain ⟨x, hx, hne⟩ : ∃ x, ((s.ungathered n q).writeGroup n q m ((s.cq n q).gather.take m)).out = s.out ++ x ∧
      x ≠ [] :=
    (s.ungathered n q).request_out ..
  obtain ⟨y, hy⟩ := ((State.signal_writesCq _ n q _).trans (State.writeEntries_writesCq ..)).out
  exact ⟨x ++ y, by rw [← List.append_assoc, ← hx]; exact hy.symm, by simp [hne]⟩

/-- The entries gathered lie within one block of 128 bytes and before the end of the ring. -/
def State.GatheredFits (s : State) (n q : Nat) : Prop :=
  (s.cq n q).tail % 4 + (s.cq n q).gather.length ≤ 4 ∧
  (s.cq n q).tail + (s.cq n q).gather.length ≤ s.cqSize n q

theorem State.GatheredFits.groupSize (h : s.GatheredFits n q) :
    (s.ungathered n q).groupSize n q (s.cq n q).gather = (s.cq n q).gather.length := by
  obtain ⟨hb, hr⟩ := h
  have hs : (s.ungathered n q).cqSize n q = s.cqSize n q := rfl
  rw [State.groupSize, State.ungathered_cq, hs]
  dsimp only
  omega

/-- What a write of gathered entries sends. -/
theorem State.writeGroup_ungathered_out (s : State) (n q k : Nat) (es : List Entry) :
    let a := s.pair (.cqBase n q) + 32 * (s.cq n q).tail
    ((s.ungathered n q).writeGroup n q k es).out = (s.request (s.pasidOf n) a (32 * k)
      (.cqWrite n q (s.pasidOf n) a (es.map fun x => x.words' (s.sq n x.sq).head (s.cq n q).phase))).out := by
  have hp : (s.ungathered n q).pasidOf n = s.pasidOf n := by
    unfold State.pasidOf State.ungathered State.onCq
    rw [State.slice_onSlice]
  have hs : ∀ k, (s.ungathered n q).sq n k = s.sq n k := fun k => State.sq_onCq _
  have hb : (s.ungathered n q).pair (.cqBase n q) = s.pair (.cqBase n q) := rfl
  simp only [State.writeGroup, State.onCq_out, State.ungathered_cq, hp, hs, hb]
  unfold State.ungathered State.onCq
  rw [State.request_onSlice]
  rfl

/-- TAIL and the phase after a write up to the end of the ring at most (R100). -/
theorem Cq.wrote_tail (c : Cq) {size el k : Nat} {es : List Entry} (hk : c.tail + k ≤ size) :
    (c.wrote (decide (c.tail + k ≥ size)) el k es).tail = (c.tail + k) % size ∧
    (c.wrote (decide (c.tail + k ≥ size)) el k es).phase = if c.tail + k = size then !c.phase else c.phase := by
  rcases Nat.lt_or_eq_of_le hk with h | h
  · simp [Cq.wrote, Nat.not_le.2 h, Nat.mod_eq_of_lt h, Nat.ne_of_lt h]
  · simp [Cq.wrote, h]

/-- Entries that fit one write go out in one, after which at most one message goes. -/
theorem State.flushCq_oneWrite (hg : (s.cq n q).gather ≠ []) (he : (s.cq n q).err = false) (hf : s.GatheredFits n q) :
    let c := s.cq n q
    let t := s.flushCq n q
    let a := s.pair (.cqBase n q) + 32 * c.tail
    (t.cq n q).sent = c.sent ++ c.gather ∧
    (t.cq n q).tail = (c.tail + c.gather.length) % s.cqSize n q ∧
    (t.cq n q).phase = (if c.tail + c.gather.length = s.cqSize n q then !c.phase else c.phase) ∧
    ∃ l, t.out = (s.request (s.pasidOf n) a (32 * c.gather.length)
      (.cqWrite n q (s.pasidOf n) a (c.gather.map fun x => x.words' (s.sq n x.sq).head c.phase))).out ++ l ∧
      l.length ≤ 1 := by
  intro c t a
  have ht : t = ((s.ungathered n q).writeGroup n q c.gather.length c.gather).signal n q (c.gather.any Entry.prot) :=
    (State.flushCq_writes hg he).trans (State.writeEntries_oneGroup hg hf.groupSize)
  obtain ⟨hcq, l, hl, hone⟩ := State.signal_spec ((s.ungathered n q).writeGroup n q c.gather.length c.gather) n q
    (c.gather.any Entry.prot)
  obtain ⟨el, hw⟩ := (s.ungathered n q).writeGroup_cq n q c.gather.length c.gather
  rw [← ht, hw] at hcq
  rw [← ht, State.writeGroup_ungathered_out] at hl
  obtain ⟨htail, hphase⟩ := ((s.ungathered n q).cq n q).wrote_tail (el := el) (es := c.gather)
    (size := s.cqSize n q) (k := c.gather.length) (by rw [State.ungathered_cq]; exact hf.2)
  rw [State.ungathered_cq] at hcq htail hphase
  rw [hcq]
  exact ⟨rfl, htail, hphase, l, hl, hone⟩

/-! Moderated messages (R103) -/

theorem execModerationAge_due (ht : fld (s.reg (.cqMod n q)) 9 0 ≠ 0)
    (hd : (s.cq n q).oldest + fld (s.reg (.cqMod n q)) 9 0 * 1000 ≤ s.el) :
    exec (.moderationAge n q) s = .next (s.signal n q true) := by
  show execModerationAge n q s = _
  simp [execModerationAge, ht, hd]

/-- The message of the vector is sent, or waits where the vector is masked, and no entry is unannounced. -/
theorem State.signal_announces (hi : bitAt (s.reg (.cqCfg n q)) 30 = true) (hu : (s.cq n q).unsig ≠ 0) :
    let v := fld (s.reg (.cqCfg n q)) 26 16
    let t := s.signal n q true
    (t.cq n q).unsig = 0 ∧
    if (s.msix v).mask then t.out = s.out ∧ mapGet false t.hif.pba v = true
    else t.out = s.out ++ [.message v ((s.msix v).lo.toNat / 4 * 4 + 2 ^ 32 * (s.msix v).hi.toNat) (s.msix v).data] := by
  intro v t
  have ht : t = (s.onCq n q fun c => { c with unsig := 0 }).message v := State.signal_now hi hu
  refine ⟨by rw [ht, State.cq_of_slices (State.message_slices ..), State.cq_onCq], ?_⟩
  have hm : (s.onCq n q fun c => { c with unsig := 0 }).msix v = s.msix v := rfl
  split <;> rename_i h
  · rw [ht, State.message_masked (hm ▸ h)]
    exact ⟨rfl, State.setPba_pba ..⟩
  · rw [ht, State.message_unmasked (hm ▸ Bool.eq_false_iff.2 h)]
    rfl

/-! Unmasked vectors (R654) -/

theorem execVectorUnmask_up (hu : s.up = true) (hv : v < 2048) : exec (.vectorUnmask v) s = .next (s.unmask v) := by
  show execVectorUnmask v s = _
  simp [execVectorUnmask, hu, hv]

/-- The state with vector `v` unmasked. -/
def State.unmasked (s : State) (v : Nat) : State :=
  { s with hif := { s.hif with msix := mapUpd {} s.hif.msix v fun m => { m with mask := false } } }

@[simp] theorem State.unmasked_msix (s : State) (v : Nat) : (s.unmasked v).msix v = { s.msix v with mask := false } :=
  mapGet_mapUpd_self ({} : Msix) s.hif.msix v fun m => { m with mask := false }

theorem State.unmasked_msix_ne {i : Nat} (s : State) (h : i ≠ v) : (s.unmasked v).msix i = s.msix i :=
  mapGet_mapUpd_ne ({} : Msix) s.hif.msix (fun m => { m with mask := false }) h

/-- Without a message that waits, the vector is unmasked. -/
theorem State.unmask_idle (h : mapGet false s.hif.pba v = false) : s.unmask v = s.unmasked v := by
  unfold State.unmask
  exact if_neg (Bool.eq_false_iff.1 h)

/-- The message that waits is sent, and its pending bit cleared. -/
theorem State.unmask_pending (h : mapGet false s.hif.pba v = true) : s.unmask v =
    ((s.unmasked v).setPba v false).emit
      (.message v ((s.msix v).lo.toNat / 4 * 4 + 2 ^ 32 * (s.msix v).hi.toNat) (s.msix v).data) := by
  have hu : s.unmask v = ((s.unmasked v).setPba v false).message v := by
    unfold State.unmask
    exact if_pos h
  have hm := State.message_unmasked (s := (s.unmasked v).setPba v false) (v := v)
  rw [State.setPba_msix, State.unmasked_msix] at hm
  exact hu.trans (hm rfl)

/-- The vector is unmasked, and the message that waits goes out; the other vectors stay. -/
theorem State.unmask_spec (s : State) (v : Nat) :
    (s.unmask v).msix v = { s.msix v with mask := false } ∧
    (s.unmask v).out = s.out ++ (if mapGet false s.hif.pba v then
      [.message v ((s.msix v).lo.toNat / 4 * 4 + 2 ^ 32 * (s.msix v).hi.toNat) (s.msix v).data] else []) ∧
    mapGet false (s.unmask v).hif.pba v = false ∧
    ∀ i, i ≠ v → (s.unmask v).msix i = s.msix i ∧
      mapGet false (s.unmask v).hif.pba i = mapGet false s.hif.pba i := by
  cases h : mapGet false s.hif.pba v
  · rw [State.unmask_idle h]
    exact ⟨s.unmasked_msix v, (List.append_nil _).symm, h, fun i hi => ⟨s.unmasked_msix_ne hi, rfl⟩⟩
  · rw [State.unmask_pending h]
    exact ⟨s.unmasked_msix v, rfl, State.setPba_pba .., fun i hi =>
      ⟨s.unmasked_msix_ne hi, State.setPba_pba_ne _ _ hi⟩⟩

/-- Settles O32: each clause by the operation that its command carries out. -/
theorem entriesAndMessages : Obligations.EntriesAndMessages := by
  unfold Obligations.EntriesAndMessages
  refine ⟨?gathered, ?moderated, fun s v hu hv => ⟨_, execVectorUnmask_up hu hv, s.unmask_spec v⟩, ?invalidated⟩
  case gathered =>
    intro s n q hg he hd c
    exact ⟨_, execCoalesceTimeout_due hg hd, (State.flushCq_cq he).1, State.flushCq_sends hg he, fun h1 h2 =>
      State.flushCq_oneWrite hg he ⟨h1, h2⟩⟩
  case moderated =>
    intro s n q ht hi hu hd v
    exact ⟨_, execModerationAge_due ht hd, State.signal_announces hi hu⟩
  case invalidated =>
    intro s p r hu hl
    show execAtsInvalidation p r s = _
    simp only [execAtsInvalidation, hu, hl, Bool.not_true, Bool.or_self, Bool.false_eq_true, if_false]
    rw [State.wakeUp_hif]
    rfl

end Sys2Proof.Machine
end

section
/-! PROOFS. Failed accesses: what stops, and the write of 1 to ERR that clears it. -/

namespace Sys2Proof.Machine

variable {s t : State} {n q j : Nat} {c : HCause}

/-! The jobs of the table -/

theorem State.job_of_sch (h : t.sch = s.sch) (j : Nat) : t.job? j = s.job? j := by
  unfold State.job?; rw [h]

/-- From `s` to `t` no job leaves the table. -/
structure State.KeepsJobs (s t : State) : Prop where
  job : ∀ j, (s.job? j).isSome = true → (t.job? j).isSome = true

theorem State.KeepsJobs.of_sch (h : t.sch = s.sch) : s.KeepsJobs t := ⟨fun j hj => by rwa [State.job_of_sch h]⟩

theorem State.KeepsJobs.trans {r : State} (h : r.KeepsJobs s) (g : s.KeepsJobs t) : r.KeepsJobs t :=
  ⟨fun j hj => g.job j (h.job j hj)⟩

theorem State.KeepsJobs.ite (c : Prop) [Decidable c] (h : s.KeepsJobs t) : s.KeepsJobs (if c then t else s) := by
  split
  · exact h
  · exact .of_sch rfl

theorem State.onJob_keepsJobs (s : State) (k : Nat) (f : Job → Job) : s.KeepsJobs (s.onJob k f) := by
  refine ⟨fun j hj => ?_⟩
  by_cases h : j = k
  · rwa [h, State.job_onJob, Option.isSome_map, ← h]
  · rwa [State.job_onJob_ne _ _ h]

theorem State.unstage_keepsJobs (s : State) (e : Nat) : s.KeepsJobs (s.unstage e) := by
  unfold State.unstage
  split
  · exact .of_sch rfl
  · refine .trans ?_ (State.onJob_keepsJobs ..)
    split <;> exact .of_sch rfl

theorem State.endLends_sch (s : State) (e : Nat) : (s.endLends e).sch = s.sch := by
  refine foldl_related (R := fun s t => t.sch = s.sch) (fun _ => rfl) (fun h g => g.trans h) (fun s h => ?_) _ s
  split <;> rfl

theorem State.dropRunning_sch (s : State) (e : Nat) : (s.dropRunning e).sch = s.sch := by
  have hl : (s.leaveRunning e).sch = s.sch := by
    unfold State.leaveRunning
    split
    · rfl
    · dsimp only
      split <;> rfl
  unfold State.dropRunning State.frostJob
  split
  · exact (State.endLends_sch ..).trans ((State.onVce_sch ..).trans hl)
  · exact (State.onEngine_sch ..).trans hl

theorem State.freeResult_sch (s : State) (e j : Nat) : (s.freeResult e j).sch = s.sch := by
  unfold State.freeResult
  split
  · rfl
  · dsimp only
    split <;> rfl

theorem State.lapse_sch (s : State) (j : Nat) : (s.lapse j).sch = s.sch := rfl

/-- A job that leaves its engines stays in the table. -/
theorem State.offEngines_keepsJobs (s : State) (j : Nat) (fails : Option Nat) : s.KeepsJobs (s.offEngines j fails) := by
  have hu : ∀ (s : State) (e : Nat) (c : Prop) [Decidable c], s.KeepsJobs (if c then s.unstage e else s) :=
    fun s e c _ => .ite c (s.unstage_keepsJobs e)
  have hd : ∀ (s : State) (e : Nat) (c : Prop) [Decidable c], s.KeepsJobs (if c then s.dropRunning e else s) :=
    fun s e c _ => .ite c (.of_sch (s.dropRunning_sch e))
  unfold State.offEngines
  refine foldl_related (R := State.KeepsJobs) (fun _ => .of_sch rfl) State.KeepsJobs.trans (fun s e => ?_) _ s
  exact ((hu _ _ _).trans (hd _ e _)).trans (.of_sch (State.freeResult_sch _ e j))

/-- A release buffer entry is all that a job takes (R229). -/
theorem State.takeRb_job {x : Job} (h : s.job? j = some x) : ∃ b, (s.takeRb j).job? j = some { x with rbEntry := b } := by
  unfold State.takeRb
  rw [h]
  dsimp only
  split
  · exact ⟨_, h⟩
  · split
    · exact ⟨true, by rw [State.putJob, State.job_onJob, h]; rfl⟩
    · exact ⟨_, by rw [State.job_of_sch (State.event_sch ..), h]⟩

/-- Completing a job puts it to DONE with the result (R198). -/
theorem State.finish_job {x : Job} {r : Result} (h : s.job? j = some x) (hx : x.stage ≠ .done)
    (hr : r.status ≠ .abortedTamper) :
    ∃ y, (s.finish j r).job? j = some y ∧ y.stage = .done ∧ y.result = r := by
  have hs : (s.job? j).isSome = true := by rw [h, Option.isSome_some]
  have hk : ((s.offEngines j none).job? j).isSome = true := (s.offEngines_keepsJobs j none).job j hs
  obtain ⟨z, hz⟩ := Option.isSome_iff_exists.1 hk
  rw [← State.job_of_sch (State.lapse_sch _ j)] at hz
  unfold State.finish
  rw [h]
  simp only [if_neg hx, if_neg hr]
  generalize hu : State.onJob _ j _ = u
  have huj := congrArg (fun u : State => u.job? j) hu
  simp only [State.job_onJob, hz, Option.map_some] at huj
  obtain ⟨b, hb⟩ := State.takeRb_job huj.symm
  exact ⟨_, hb, rfl, rfl⟩

/-! Failed accesses (R59, R60) -/

@[simp] theorem State.accessFault_slices (s : State) (n c p i : Nat) : (s.accessFault n c p i).slices = s.slices :=
  s.event_slices ..

@[simp] theorem State.accessFault_sch (s : State) (n c p i : Nat) : (s.accessFault n c p i).sch = s.sch :=
  s.event_sch ..

theorem State.logAer_slices (s : State) (c : HCause) : (s.logAer c).slices = s.slices := by
  unfold State.logAer
  split
  · rfl
  · exact State.event_slices ..

theorem State.logAer_sch (s : State) (c : HCause) : (s.logAer c).sch = s.sch := by
  unfold State.logAer
  split
  · rfl
  · exact State.event_sch ..

/-- A job's access that fails: a job not yet DONE completes with BUFFER_FAULT, and the result of one whose output was
written becomes BUFFER_FAULT (R60, R104). -/
theorem State.accessFails_jobPart {p : Part} (c : HCause) (h : accessRuns s (.jobPart j p)) :
    accessStops s (s.accessFails (.jobPart j p) c) (.jobPart j p) c := by
  obtain ⟨x, hx, hrun⟩ := h
  have hf := State.job_of_sch (s.accessFault_sch x.slice c.code p.code x.qid) j
  unfold State.accessFails
  dsimp only
  rw [hx]
  by_cases hd : x.stage = .done
  · have hout := hrun.resolve_left (not_not_intro hd)
    simp only [hd, ne_eq, not_true, if_false, if_pos hout]
    exact ⟨{ x with result := fail .bufferFault (bufferDetail c p) }, by simp [State.putJob, hf, hx, hd], hd, rfl⟩
  · simp only [ne_eq, hd, not_false_iff, if_true]
    exact State.finish_job (hf.trans hx) hd nofun

/-- A failed access in progress stops its queue or ends its job. -/
theorem State.accessFails_stops {a : Access} (c : HCause) (h : accessRuns s a) :
    accessStops s (s.accessFails a c) a c := by
  cases a with
  | jobPart j p => exact State.accessFails_jobPart c h
  | descriptor n q =>
    have ha : s.accessFails (.descriptor n q) c = _ := if_pos h
    rw [ha]
    unfold accessStops
    dsimp only
    rw [State.sq_of_slices (State.accessFault_slices ..), State.sq_onSq]
    exact ⟨rfl, rfl, rfl, rfl⟩
  | doorbell n =>
    have ha : s.accessFails (.doorbell n) c = _ := if_pos h
    rw [ha]
    unfold accessStops
    dsimp only
    rw [State.slice_of_slices (State.accessFault_slices ..), State.slice_onSlice]
    exact ⟨rfl, rfl, rfl⟩
  | completion n q k =>
    obtain ⟨hk, hl⟩ := h
    have ha : s.accessFails (.completion n q k) c = _ := if_neg (by simp; omega)
    rw [ha]
    unfold accessStops
    dsimp only
    rw [State.cq_of_slices (State.accessFault_slices ..), State.cq_onCq]
    exact ⟨rfl, rfl, rfl⟩

/-- Whether an access is in progress is read from the slices and the jobs. -/
theorem accessRuns_congr {a : Access} (hs : t.slices = s.slices) (hj : t.sch = s.sch) :
    accessRuns t a ↔ accessRuns s a := by
  cases a <;> simp only [accessRuns, State.job_of_sch hj, State.sq_of_slices hs, State.slice_of_slices hs,
    State.cq_of_slices hs]

/-- What its failure must keep is read from the slices. -/
theorem accessStops_congr {u : State} {a : Access} (hs : t.slices = s.slices) :
    accessStops t u a c ↔ accessStops s u a c := by
  cases a <;> simp only [accessStops, State.sq_of_slices hs, State.cq_of_slices hs]

/-- An access fails after something was recorded of it. -/
theorem State.accessFails_after {a : Access} (c : HCause) (hs : t.slices = s.slices) (hj : t.sch = s.sch)
    (h : accessRuns s a) : accessStops s (t.accessFails a c) a c :=
  (accessStops_congr hs).1 (State.accessFails_stops c ((accessRuns_congr hs hj).2 h))

theorem execHostAccessFail_completed {a : Access} (hc : failCause c a.isRead = true) :
    exec (.hostAccessFail a c) s = .next ((s.logAer c).accessFails a c) := by
  have ht : c ≠ .translation := fun h => by rw [h] at hc; cases hc
  show execHostAccessFail a c s = _
  rw [execHostAccessFail, if_neg ht, if_pos hc]

theorem execHostAccessFail_denied {a : Access} (hd : s.hif.denied.any (s.requestOf a) = true) :
    exec (.hostAccessFail a .translation) s =
      .next (({ s with hif := { s.hif with denied := s.hif.denied.filter fun o => !s.requestOf a o } }).accessFails a
        .translation) := by
  show execHostAccessFail a .translation s = _
  rw [execHostAccessFail, if_pos rfl, if_pos hd]

theorem execCompletionTimeout_due {a : Access} (hr : a.isRead = true) (hn : s.hif.noTimeout = false)
    (hd : (s.issuedAt a).any (fun t => decide (t + timeoutNs s.hif.timeout ≤ s.el)) = true) :
    exec (.completionTimeout a) s = .next ((s.logAer .timeout).accessFails a .timeout) := by
  show execCompletionTimeout a s = _
  rw [execCompletionTimeout, if_pos (by rw [hr, hn, hd]; rfl)]

/-! The write of 1 to ERR (R61) -/

/-- The SQ resumes where its ring stands. -/
theorem State.clearSq_spec (h : (s.sq n q).err = true) :
    let t := s.clearSq n q
    (t.sq n q).err = false ∧ (t.sq n q).cause = .none ∧ (t.sq n q).head = (s.sq n q).head ∧
      (t.sq n q).tail = (s.sq n q).tail := by
  intro t
  have hr : (s.onSq n q fun x => { x with err := false, cause := .none, fetched := [] }).ReadsFor n t := by
    show State.ReadsFor n _ (s.clearSq n q)
    unfold State.clearSq
    rw [if_pos h]
    dsimp only
    split
    · exact .refl n _
    · exact State.readDescs_readsFor _ n q
  rw [hr.sq q, State.sq_onSq]
  exact ⟨rfl, rfl, rfl, rfl⟩

/-- The CQ resumes and writes the entries it holds. -/
theorem State.clearCq_spec (h : (s.cq n q).err = true) :
    let t := s.clearCq n q
    (t.cq n q).err = false ∧ (t.cq n q).cause = .none ∧ (t.cq n q).gather = [] ∧
      (t.cq n q).head = (s.cq n q).head := by
  intro t
  have ht : t = (s.onCq n q fun x => { x with err := false, cause := .none }).flushCq n q := if_pos h
  have hq := s.cq_onCq n q fun x => { x with err := false, cause := .none }
  obtain ⟨hg, hh, he, hc⟩ := State.flushCq_cq (congrArg Cq.err hq)
  rw [ht]
  exact ⟨he, hc.trans (by rw [hq]), hg, hh.trans (by rw [hq])⟩

/-- Polling and nudges resume. -/
theorem State.clearDb_spec (h : (s.slice n).dbErr = true) :
    ((s.clearDb n).slice n).dbErr = false ∧ ((s.clearDb n).slice n).dbCause = .none := by
  have ht : s.clearDb n = s.onSlice n fun x => { x with dbErr := false, dbCause := .none } := if_pos h
  rw [ht, State.slice_onSlice]
  exact ⟨rfl, rfl⟩

theorem execSqErrClear_takes (h : s.Takes (Reg.sqStatus n q).addr) (hq : q < 16) :
    exec (.sqErrClear n q) s = .next (s.wakeUp.clearSq n q) := by
  show execSqErrClear n q s = _
  rw [execSqErrClear, if_pos hq, State.gate_takes h]

theorem execCqErrClear_takes (h : s.Takes (Reg.cqStatus n q).addr) (hq : q < 16) :
    exec (.cqErrClear n q) s = .next (s.wakeUp.clearCq n q) := by
  show execCqErrClear n q s = _
  rw [execCqErrClear, if_pos hq, State.gate_takes h]

theorem execDbErrClear_takes (h : s.Takes (Reg.dbStatus n).addr) : exec (.dbErrClear n) s = .next (s.wakeUp.clearDb n) := by
  show execDbErrClear n s = _
  rw [execDbErrClear, State.gate_takes h]

/-- Settles O30: the three ways in which an access fails, then the three writes that clear a stop. -/
theorem failedAccesses : Obligations.FailedAccesses := by
  unfold Obligations.FailedAccesses
  refine ⟨fun s a c ha => ⟨fun hc => ?completed, fun hd => ?denied, fun hr hn hd => ?timeout⟩,
    fun s n q hq => ⟨fun h he => ?sq, fun h he => ?cq, fun h he => ?db⟩⟩
  case completed =>
    exact ⟨_, execHostAccessFail_completed hc, State.accessFails_after c (s.logAer_slices c) (s.logAer_sch c) ha⟩
  case denied => exact ⟨_, execHostAccessFail_denied hd, State.accessFails_after .translation rfl rfl ha⟩
  case timeout =>
    exact ⟨_, execCompletionTimeout_due hr hn hd,
      State.accessFails_after .timeout (s.logAer_slices _) (s.logAer_sch _) ha⟩
  case sq =>
    rw [← s.wakeUp_sq] at he ⊢
    exact ⟨_, execSqErrClear_takes h hq, State.clearSq_spec he⟩
  case cq =>
    rw [← s.wakeUp_cq] at he ⊢
    exact ⟨_, execCqErrClear_takes h hq, State.clearCq_spec he⟩
  case db =>
    have he : (s.wakeUp.slice n).dbErr = true := by rw [s.wakeUp_slice]; exact he
    exact ⟨_, execDbErrClear_takes h, State.clearDb_spec he⟩

end Sys2Proof.Machine
end

section
/-! PROOFS. What operations of the opcode table give: an output of a fixed length, or a verdict alone. -/

namespace Sys2Proof.Machine

variable {s : State} {j fam op n : Nat} {x : Job} {cmd : Instr} {f : Job → State → Result × State} {r : Result}

/-! Lengths of byte strings -/

@[simp] theorem fit_length (n : Nat) (b : Bytes) : (fit n b).length = n := by
  rw [fit, List.length_take, List.length_append, List.length_replicate]
  omega

@[simp] theorem xorBytes_length (a b : Bytes) : (xorBytes a b).length = min a.length b.length := by
  induction a generalizing b with
  | nil => simp [xorBytes]
  | cons u a ih =>
    cases b with
    | nil => simp [xorBytes]
    | cons v b => simp [xorBytes, ih]

/-- The secret of a decapsulation has the length of its KEM, whatever the key and the ciphertext (R123, R145). -/
theorem kemDec_length (fam set : Nat) (sk c : Bytes) : (kemDec fam set sk c).length = (kemOf fam set).ssLen := by
  unfold kemDec
  dsimp only
  split <;> exact fit_length ..

/-! The end of an operation that leaves the rest of the part as it was -/

/-- A command whose operation gives `r` and changes nothing ends its job with `r`. -/
theorem exec_produces (h : s.Ends j fam op x) (hc : exec cmd s = .next (s.compute j fam op f)) (hf : f x s = (r, s)) :
    exec cmd s = .next (s.produce j r) := by
  rw [hc, State.compute_ends h, hf]

/-- The operation gives OK with `n` bytes of output, and changes nothing itself. -/
def GivesBytes (f : Job → State → Result × State) (x : Job) (s : State) (n : Nat) : Prop :=
  ∃ b : Bytes, b.length = n ∧ f x s = ({ out := b }, s)

theorem exec_givesBytes (h : s.Ends j fam op x) (hc : exec cmd s = .next (s.compute j fam op f))
    (hf : GivesBytes f x s n) : ∃ b : Bytes, b.length = n ∧ exec cmd s = .next (s.produce j { out := b }) := by
  obtain ⟨b, hb, hr⟩ := hf
  exact ⟨b, hb, exec_produces h hc hr⟩

/-- The operation gives a verdict, and changes nothing itself. -/
def GivesVerdict (f : Job → State → Result × State) : Prop := ∀ x s, ∃ ok : Bool, f x s = (verdict ok, s)

theorem exec_givesVerdict (h : s.Ends j fam op x) (hc : exec cmd s = .next (s.compute j fam op f))
    (hf : GivesVerdict f) :
    exec cmd s = .next (s.produce j {}) ∨ exec cmd s = .next (s.produce j (fail .verifyFail)) := by
  obtain ⟨ok, hr⟩ := hf x s
  have hp := exec_produces h hc hr
  cases ok with
  | true => exact .inl hp
  | false => exact .inr hp

/-! Decapsulations (R114, R123, R145, R148) -/

/-- A secret for the host is its clear bytes after the public part (R114). -/
theorem State.giveSecret_host (h : x.dest = 0) (pub secret : Bytes) (imported : Bool) :
    s.giveSecret x pub secret imported = ({ out := pub ++ secret }, s) := if_pos h

theorem kemDecJob_givesBytes (h : x.dest = 0) : GivesBytes kemDecJob x s (kemOf x.desc.fam x.desc.set).ssLen :=
  ⟨_, kemDec_length .., State.giveSecret_host h ..⟩

theorem hkemDecJob_givesBytes (h : x.dest = 0) : GivesBytes hkemDecJob x s 32 :=
  ⟨_, fit_length .., State.giveSecret_host h ..⟩

/-- The decapsulation of a KEM of its own family. -/
theorem exec_kemDec (h : s.Ends j fam 1 x) (hd : x.dest = 0) (hn : (kemOf fam x.desc.set).ssLen = n)
    (hc : exec cmd s = .next (s.compute j fam 1 kemDecJob)) :
    ∃ b : Bytes, b.length = n ∧ exec cmd s = .next (s.produce j { out := b }) := by
  have hg := kemDecJob_givesBytes (s := s) hd
  rw [h.fam, hn] at hg
  exact exec_givesBytes h hc hg

/-! Verifications (R115, R129, R133, R140, R164, R169, R173, R517) -/

/-- A stateful signature whose typecodes disagree with the key fails; else the algorithm decides (R140). -/
theorem stfCheck_verdict (x : Job) (pk b : Bytes) : ∃ ok : Bool, stfCheck x pk b = verdict ok := by
  unfold stfCheck
  cases stfSigIn x.desc.fam x.desc.set pk b with
  | none => exact ⟨false, rfl⟩
  | some n => exact ⟨_, rfl⟩

theorem stfVerifyJob_givesVerdict : GivesVerdict stfVerifyJob := fun x s =>
  (stfCheck_verdict x (s.keyOf x).pubKey x.inp).imp fun _ h => congrArg (·, s) h

theorem stfInlineJob_givesVerdict : GivesVerdict stfInlineJob := by
  intro x s
  unfold stfInlineJob
  cases x.stfPkLen with
  | none => exact ⟨false, rfl⟩
  | some n => exact (stfCheck_verdict x (x.inp.take n) (x.inp.drop n)).imp fun _ h => congrArg (·, s) h

/-- Settles O21: no KEM's decapsulation can fail, and each verification gives a verdict alone. -/
theorem decapsulationsAndVerdicts : Obligations.DecapsulationsAndVerdicts := by
  unfold Obligations.DecapsulationsAndVerdicts
  refine ⟨?decaps, ?verdicts⟩
  case decaps =>
    simp only [decapsulations, List.forall_mem_cons]
    refine ⟨fun s j x h hd => exec_kemDec h hd rfl rfl, fun s j x h hd => exec_kemDec h hd rfl rfl,
      fun s j x h hd => exec_kemDec h hd rfl rfl,
      fun s j x h hd => exec_givesBytes h rfl (hkemDecJob_givesBytes hd), nofun⟩
  case verdicts =>
    simp only [verifications, List.forall_mem_cons]
    refine ⟨?_, ?_, ?_, ?_, ?lms, ?lmsInline, ?xmss, ?xmssInline, ?_, ?_, ?_, ?_, ?_, ?_, ?_, ?_, ?_, ?_, ?_, ?_, ?_, nofun⟩
    case lms | xmss => exact fun s j x h => exec_givesVerdict h rfl stfVerifyJob_givesVerdict
    case lmsInline | xmssInline => exact fun s j x h => exec_givesVerdict h rfl stfInlineJob_givesVerdict
    all_goals exact fun s j x h => exec_givesVerdict h rfl fun _ _ => ⟨_, rfl⟩

/-! Lengths of outputs (R125, R131, R150, R161, R168, R172, R175) -/

/-- Settles O23: each output is cut or counted to its length. -/
theorem outputLengths : Obligations.OutputLengths := by
  unfold Obligations.OutputLengths
  simp only [lengthRows, List.forall_mem_cons]
  refine ⟨?xof, ?ctr, ?kw, ?kwp, ?mldsa, ?slh, ?ecc, ?rsa, ?pss, ?hybrid, nofun⟩
  case xof => exact fun s j x h => exec_givesBytes h rfl ⟨_, by rw [List.length_map, List.length_range], rfl⟩
  case ctr =>
    exact fun s j x h => exec_givesBytes h rfl
      ⟨_, by rw [xorBytes_length, List.length_map, List.length_range, Nat.min_self], rfl⟩
  case hybrid =>
    exact fun s j x h => exec_givesBytes h rfl ⟨_, by rw [List.length_append, fit_length, fit_length], rfl⟩
  all_goals exact fun s j x h => exec_givesBytes h rfl ⟨_, fit_length .., rfl⟩

end Sys2Proof.Machine
end

section
/-! PROOFS. The end of LOAD_LIST: a job that reaches a secret blob while SHARE cannot serve waits for the harvest in KEYLOAD
(R431), which `State.listWaits` does not speak of. -/

namespace Sys2Proof.Machine

/-- A LOAD_LIST of the blob at offset 0 of the window of slice 1, at the last step of its plan. -/
def listJob : Job :=
  { slice := 1, stage := .active, desc := { opc := 0x30A0 }, input := some (zeros 8), steps := [{ st := .running }] }

/-- The ready part with that job and a window of 2 MiB, and no randomness yet: what lies at offset 0 counts as a secret. -/
def harvestPart : State :=
  { readyPart with
    regs := [((Reg.winSize 1).addr, 1)], sch := { readyPart.sch with jobs := [(0, listJob)], nextJob := 1 } }

theorem harvestPart_ends : harvestPart.Ends 0 0x30 10 listJob := ⟨by decide +kernel, by decide, by decide⟩

/-- LOAD_LIST at its end, in a part where SHARE cannot serve, waits for the harvest before the first secret blob (R431). -/
theorem execLoadList_awaits {s : State} {j : Nat} {x : Job} (h : s.Ends j 0x30 10 x) (hr : s.listResumes j = s)
    (ho : x.desc.opc = 0x30A0) (hw : s.listWaits x = false) (hs : s.canServe 4 = false)
    (hb : s.reachesSecret x.slice x.offsets = true) : exec (.loadList j) s = .next (s.awaitHarvest j x) := by
  show execLoadList j s = _
  unfold execLoadList
  dsimp only
  rw [hr, h.at_]
  dsimp only
  rw [if_neg (by simp [ho, hw]), if_pos (by simp [hs, hb])]

/-- The job waits, without a result. -/
theorem harvestPart_loadList : exec (.loadList 0) harvestPart = .next (harvestPart.awaitHarvest 0 listJob) :=
  execLoadList_awaits harvestPart_ends (by decide +kernel) rfl (by decide +kernel) (by decide +kernel) (by decide +kernel)

/-- Refutes O19: of LOAD_LIST the statement asks only that no group makes its reads wait; this one, which waits for the harvest,
gives no result. -/
theorem not_opcodeRowsRun : ¬ Obligations.OpcodeRowsRun := by
  unfold Obligations.OpcodeRowsRun
  rintro ⟨-, hall⟩
  obtain ⟨-, -, hlist⟩ := hall harvestPart 0 listJob
  have he := hlist harvestPart_ends
  rw [harvestPart_loadList] at he
  injection he with he
  exact absurd (congrArg (fun s => (s.job? 0).bind Job.computed) he) (by decide +kernel)

end Sys2Proof.Machine
end

section
/-! PROOFS. Records of stateful keys: where they stand, and what their updates make of them. -/

namespace Sys2Proof.Machine

variable {s t : State} {i j n : Nat} {x : Job} {r v : StfRecord}

/-! Records and their places -/

theorem State.record_of_kmg (h : t.kmg = s.kmg) (n : Nat) : t.record? n = s.record? n := by
  unfold State.record?; rw [h]

theorem State.recordOf_of_kmg (h : t.kmg = s.kmg) (keyId : Bytes) : t.recordOf keyId = s.recordOf keyId := by
  unfold State.recordOf; rw [h]

theorem State.slot_of_kmg (h : t.kmg = s.kmg) (i : Nat) : t.slot i = s.slot i := by
  unfold State.slot; rw [h]

@[simp] theorem State.record_putRecord (s : State) (n : Nat) (r : StfRecord) : (s.putRecord n r).record? n = some r :=
  mapFind_mapInsert_self ..

@[simp] theorem State.record_onRecord (s : State) (n : Nat) (f : StfRecord → StfRecord) :
    (s.onRecord n f).record? n = (s.record? n).map f := by
  unfold State.onRecord
  split
  · rw [‹s.record? n = _›]
    exact mapFind_mapInsert_self ..
  · rw [‹s.record? n = none›]
    rfl

/-- A record that is there reads the same by default. -/
theorem State.getRecord (h : s.record? n = some r) : mapGet {} s.kmg.stf n = r := by
  unfold State.record? at h
  rw [mapGet, h, Option.getD_some]

/-- The first entry that satisfies `p` stands at `n`, also after another such value has been put there. -/
theorem find?_mapInsert {α : Type} {p : Nat × α → Bool} {m : SMap α} {a : α}
    (h : (m.find? p).map Prod.fst = some n) (ha : p (n, a) = true) :
    ((mapInsert m n a).find? p).map Prod.fst = some n := by
  induction m with
  | nil => cases h
  | cons b m ih =>
    obtain ⟨i, w⟩ := b
    unfold mapInsert
    by_cases hlt : n < i
    · rw [if_pos hlt, List.find?_cons_of_pos ha]
      rfl
    · rw [if_neg hlt]
      by_cases hi : n = i
      · rw [if_pos hi, List.find?_cons_of_pos ha]
        rfl
      · rw [if_neg hi]
        by_cases hp : p (i, w) = true
        · rw [List.find?_cons_of_pos hp] at h
          exact absurd (Option.some.inj h).symm hi
        · rw [List.find?_cons_of_neg hp] at h ⊢
          exact ih h

/-- The open record of a key stays its record where its value stays open and keeps its KEY_ID. -/
theorem State.recordOf_putRecord (h : s.recordOf v.keyId = some n) (hv : v.valid = true) (hc : v.close = 0) :
    (s.putRecord n v).recordOf v.keyId = some n :=
  find?_mapInsert h (by simp [hv, hc])

/-! A leaf (R136) -/

/-- A leaf given out moves NEXT on by one, and leaves the log. -/
theorem StfRecord.giveLeaf_spec (r : StfRecord) (hold : Bool) :
    (r.giveLeaf hold).next = r.next + 1 ∧ (r.giveLeaf hold).log = r.log := by
  unfold StfRecord.giveLeaf
  dsimp only
  split <;> exact ⟨rfl, rfl⟩

/-- A key with a leaf left below RESV_END gives it to the job. -/
theorem State.startLeaf_gives (hk : x.key = some i) (hn : s.recordOf (s.slot i).keyId = some n)
    (hr : s.record? n = some r) (ht : r.next ≠ r.total) (hl : r.next < r.log.getLastD 0) :
    s.startLeaf j x = (s.onRecord n fun r => r.giveLeaf s.commitsHeld).onJob j fun x => { x with leaf := some r.next } := by
  unfold State.startLeaf
  rw [hk, Option.bind_some, hn]
  dsimp only
  rw [State.getRecord hr, if_neg ht, if_neg (Nat.ne_of_lt hl)]

end Sys2Proof.Machine
end

section
/-! PROOFS. What the start of a job leaves of the keys and of the job itself: neither the randomness it draws nor the engine it
takes changes what a stateful signature goes by (R116, R117, R199). -/

namespace Sys2Proof.Machine

variable {s t : State} {i j k n : Nat} {x y : Job}

/-! Draws -/

/-- From `s` to `t` the job table, and the keys with their records, stay. -/
structure State.SameTables (s t : State) : Prop where
  sch : t.sch = s.sch
  kmg : t.kmg = s.kmg

theorem State.SameTables.refl (s : State) : s.SameTables s := ⟨rfl, rfl⟩

theorem State.SameTables.trans {u : State} (h : s.SameTables t) (g : t.SameTables u) : s.SameTables u :=
  ⟨g.sch.trans h.sch, g.kmg.trans h.kmg⟩

theorem State.setDrbg_sameTables (s : State) (i : Nat) (d : Drbg) : s.SameTables (s.setDrbg i d) := by
  unfold State.setDrbg
  split <;> exact ⟨rfl, rfl⟩

theorem State.seed_sameTables (s : State) (i : Nat) (b : Bytes) : s.SameTables (s.seed i b) := s.setDrbg_sameTables ..

theorem State.request1_sameTables (s : State) (i n : Nat) : s.SameTables (s.request1 i n).2 := s.setDrbg_sameTables ..

theorem State.poolSeed_sameTables (s : State) (i : Nat) : s.SameTables (s.poolSeed i) := by
  unfold State.poolSeed State.takePool
  cases s.rng.pool with
  | nil => exact .refl s
  | cons b l =>
    have h : s.SameTables { s with rng := { s.rng with pool := l } } := ⟨rfl, rfl⟩
    exact h.trans (State.seed_sameTables ..)

theorem State.fromD0_sameTables (s : State) (i : Nat) : s.SameTables (s.fromD0 i) := by
  unfold State.fromD0
  split
  · exact .refl s
  · refine .trans ?_ ((State.request1_sameTables _ 0 48).trans (State.seed_sameTables ..))
    split
    · exact s.poolSeed_sameTables 0
    · exact .refl s

theorem State.serve_sameTables (s : State) (i : Nat) : s.SameTables (s.serve i) := by
  unfold State.serve
  split
  · exact s.fromD0_sameTables i
  · exact .refl s

theorem State.generate_sameTables (s : State) (i n : Nat) : s.SameTables (s.generate i n).2 := by
  unfold State.generate
  generalize requestSizes n = l
  generalize ([] : Bytes) = b
  induction l generalizing s b with
  | nil => exact .refl s
  | cons m l ih => exact ((s.serve_sameTables i).trans (State.request1_sameTables _ i m)).trans (ih _ _)

theorem State.freshSlice_sameTables (s : State) (n : Nat) (b : Bytes) : s.SameTables (s.freshSlice n b) := by
  unfold State.freshSlice
  refine .trans ?_ (State.seed_sameTables ..)
  split
  · exact .refl s
  · exact s.fromD0_sameTables _

/-- The state of a draw that an equation names. -/
theorem State.SameTables.of_snd {α : Type} {p : α × State} {a : α} (e : p = (a, t)) (h : s.SameTables p.2) :
    s.SameTables t := by subst e; exact h

/-- A draw that is made where `c` holds. -/
theorem State.generateIf_sameTables {c : Prop} [Decidable c] {b : Bytes}
    (e : (if c then s.generate i n else ([], s)) = (b, t)) : s.SameTables t := by
  refine .of_snd e ?_
  split
  · exact s.generate_sameTables i n
  · exact .refl s

theorem State.loadKernel_sameTables (s : State) (e : Nat) (x : Job) (k slot : Nat) :
    s.SameTables (s.loadKernel e x k slot) := ⟨rfl, rfl⟩

theorem State.writePlace_sameTables (s : State) (p : Nat × Nat) : s.SameTables (s.writePlace p) := ⟨rfl, rfl⟩

theorem State.takeHalf_sameTables (s : State) (e j : Nat) (x : Job) : s.SameTables (s.takeHalf e j x) := by
  unfold State.takeHalf
  extract_lets _ s1 _ s2
  have h2 : s1.SameTables s2 := by
    dsimp only [s2]
    split
    · exact s1.writePlace_sameTables _
    · exact .refl s1
  have h1 : s.SameTables s1 := ⟨rfl, rfl⟩
  exact (h1.trans h2).trans ⟨rfl, rfl⟩

/-! The job -/

/-- The two records of a job agree in what a stateful signature goes by when it takes its leaf. -/
structure Job.SignsAs (x y : Job) : Prop where
  desc : y.desc = x.desc
  key  : y.key = x.key
  leaf : y.leaf = x.leaf
  wait : y.waitCommit = x.waitCommit

theorem Job.SignsAs.refl (x : Job) : x.SignsAs x := ⟨rfl, rfl, rfl, rfl⟩

theorem Job.SignsAs.trans {z : Job} (h : x.SignsAs y) (g : y.SignsAs z) : x.SignsAs z :=
  ⟨g.desc.trans h.desc, g.key.trans h.key, g.leaf.trans h.leaf, g.wait.trans h.wait⟩

/-- From `s` to `t` the keys stay, and job `j`, held as `x`, keeps what it goes by. -/
structure State.KeepsSigner (s t : State) (j : Nat) (x : Job) : Prop where
  kmg : t.kmg = s.kmg
  job : ∃ y, t.job? j = some y ∧ x.SignsAs y

theorem State.KeepsSigner.refl (hj : s.job? j = some x) : s.KeepsSigner s j x := ⟨rfl, x, hj, .refl x⟩

/-- Then the tables stay. -/
theorem State.KeepsSigner.tables {u : State} (h : s.KeepsSigner t j x) (g : t.SameTables u) : s.KeepsSigner u j x := by
  obtain ⟨hk, y, hy, hxy⟩ := h
  exact ⟨g.kmg.trans hk, y, by rw [State.job_of_sch g.sch, hy], hxy⟩

/-- Then something else of the job changes. -/
theorem State.KeepsSigner.onJob {f : Job → Job} (h : s.KeepsSigner t j x) (hf : ∀ y : Job, y.SignsAs (f y)) :
    s.KeepsSigner (t.onJob j f) j x := by
  obtain ⟨hk, y, hy, hxy⟩ := h
  exact ⟨(t.onJob_kmg j f).trans hk, f y, by rw [State.job_onJob, hy]; rfl, hxy.trans (hf y)⟩

/-- The draw of an attempt leaves the keys, and of the job all but what it has drawn. -/
theorem State.drawFor_keepsSigner (hj : s.job? j = some x) (z : Job) : s.KeepsSigner (s.drawFor j z) j x := by
  unfold State.drawFor
  split
  · exact .refl hj
  · extract_lets l s1
    have h1 : s.SameTables s1 := by
      dsimp only [s1]
      split
      · exact s.freshSlice_sameTables ..
      · exact .refl s
    split
    rename_i b s2 e2
    split
    rename_i m s3 e3
    split
    rename_i c s4 e4
    split
    rename_i d s5 e5
    have h2 : s1.SameTables s2 := by
      refine .of_snd e2 ?_
      split
      · exact .refl s1
      · exact s1.generate_sameTables ..
    have h5 : s.SameTables s5 := h1.trans <| h2.trans <| (State.generateIf_sameTables e3).trans <|
      (State.generateIf_sameTables e4).trans (State.generateIf_sameTables e5)
    exact .onJob (.tables (.refl hj) ⟨h5.sch, h5.kmg⟩) fun _ => ⟨rfl, rfl, rfl, rfl⟩

/-- A stateful signature that begins on an engine takes its leaf as the last thing it does. -/
theorem State.beginOn_startTakes {e slot : Nat} {p : PStep} (hj : s.job? j = some x) (hp : x.steps[k]? = some p)
    (hr : p.restore = false) : ∃ t, s.beginOn e j k slot = t.startTakes j ∧ s.KeepsSigner t j x := by
  have hd := State.drawFor_keepsSigner hj x
  have hr' : ¬((x.steps[k]?).getD {}).restore = true := by simp [hp, hr]
  generalize hu : s.beginOn e j k slot = u
  unfold State.beginOn at hu
  split at hu
  · next h => rw [hj] at h; cases h
  · next z h =>
    obtain rfl := Option.some.inj (hj.symm.trans h)
    extract_lets p' s1 x1 s2 s3 s4 t1 s5 s6 at hu
    rw [if_neg hr'] at hu
    have h3 : s.KeepsSigner s3 j x := (hd.tables (u := s2) ⟨rfl, rfl⟩).onJob fun _ => ⟨rfl, rfl, rfl, rfl⟩
    have h4 : s.KeepsSigner s4 j x := h3.onJob fun _ => ⟨rfl, rfl, rfl, rfl⟩
    have h5 : s4.SameTables s5 := by
      dsimp only [s5]
      rw [if_neg hr']
      split
      · exact s4.loadKernel_sameTables ..
      · exact s4.takeHalf_sameTables ..
    exact ⟨s6, hu.symm, (h4.tables h5).tables ⟨rfl, rfl⟩⟩

end Sys2Proof.Machine
end

section
/-! PROOFS. Leaves of stateful keys, from the start of a signature over the commits of RESV_END to the builds of traversal
states. -/

namespace Sys2Proof.Machine

variable {s t : State} {i j k n : Nat} {x : Job} {r : StfRecord}

/-! A signature starts (R136, R199) -/

/-- A stateful signature that begins on an engine, and whose key has a leaf left below RESV_END, gets it (R136). -/
theorem State.beginOn_leaf {e slot : Nat} {p : PStep} (hj : s.job? j = some x) (hp : x.steps[k]? = some p)
    (hr : p.restore = false) (hf : x.desc.fam = 4 ∨ x.desc.fam = 5) (ho : x.desc.op = 1) (hl : x.leaf = none)
    (hw : x.waitCommit = false) (hk : x.key = some i) (hn : s.recordOf (s.slot i).keyId = some n)
    (hq : s.record? n = some r) (ht : r.next ≠ r.total) (hb : r.next < r.log.getLastD 0) :
    ∃ y q, (s.beginOn e j k slot).job? j = some y ∧ y.leaf = some r.next ∧
      (s.beginOn e j k slot).record? n = some q ∧ q.next = r.next + 1 ∧ q.log = r.log := by
  obtain ⟨t, hs, hkmg, y, hy, hxy⟩ := State.beginOn_startTakes (e := e) (slot := slot) hj hp hr
  have hu : t.startTakes j = t.startLeaf j y := by
    unfold State.startTakes
    simp only [hy, hxy.desc, hf, ho, hxy.leaf, hl, hxy.wait, hw, and_self, if_true, Option.isNone_none, Bool.not_false,
      Bool.and_self]
  have hg : t.startLeaf j y = _ := State.startLeaf_gives (hxy.key.trans hk)
    (by rw [State.recordOf_of_kmg hkmg, State.slot_of_kmg hkmg, hn]) ((State.record_of_kmg hkmg n).trans hq) ht hb
  obtain ⟨hnext, hlog⟩ := r.giveLeaf_spec t.commitsHeld
  rw [hs, hu, hg]
  refine ⟨_, _, by rw [State.job_onJob, State.job_of_sch (State.onRecord_sch ..), hy]; rfl, rfl, ?_, hnext, hlog⟩
  rw [State.record_of_kmg (State.onJob_kmg ..), State.record_onRecord, State.record_of_kmg hkmg, hq]
  rfl

/-- JOB_START of such a step: its engine may start it, and nothing that it needs is lost (R199, R219, R681). -/
theorem State.startStep_begins {p : PStep} {slot : Nat} (hj : s.job? j = some x) (hp : x.steps[k]? = some p)
    (ha : s.awake = true) (hs : s.schStopped = false) (hx : x.stage = .active) (hw : x.waitCommit = false)
    (hc : p.cls ≠ none) (hi : (s.engine p.engine).incoming = some (j, k)) (hm : (s.engine p.engine).mayStart = true)
    (hg : s.imageWaits k x = false) (hl : x.prot = true ∨ s.lendFirst p.engine = false)
    (hf : (s.engine p.engine).freeSlot = some slot) (hn : s.startLoss j k x p = none) :
    s.startStep j k = s.beginOn p.engine j k slot := by
  unfold State.startStep
  rw [hj]
  dsimp only
  rw [hp]
  dsimp only
  have h1 : (!s.awake || s.schStopped || decide (x.stage ≠ .active) || x.waitCommit) = false := by simp [ha, hs, hx, hw]
  have h2 : ¬p.cls.isNone = true := by simpa using hc
  rw [if_neg (by rw [h1]; decide), if_neg h2, if_pos ⟨hi, hm, by simp [hg], hl.imp id (by simp [·])⟩, hf, hn]
  rfl

/-- Only a job of a session needs a context to be read at its first start (R409). -/
theorem State.startLoss_none {p : PStep} (hr : p.restore = false) (hf : x.desc.fam ≠ 0x20) : s.startLoss j k x p = none := by
  unfold State.startLoss State.lostContext
  rw [if_neg (by simp [hr]), if_neg (fun h => hf h.1)]
  rfl

/-! Commits of RESV_END (R450, R453, R454) -/

/-- The record after its pending commit: its target stands in the log. -/
def StfRecord.committed (r : StfRecord) : StfRecord :=
  { r with log := r.log ++ [r.target], pending := false, heldBack := false }

/-- The record after a commit that could not be programmed. -/
def StfRecord.uncommitted (r : StfRecord) : StfRecord := { r with pending := false, heldBack := false, firstOf := none }

theorem State.programResv_room (h : r.log.length < 9) :
    s.programResv n r r.target = some (s.putRecord n r.committed) := if_pos h

theorem State.record_commitFailed (s : State) (n : Nat) (r : StfRecord) :
    (s.commitFailed n r).record? n = some r.uncommitted :=
  (State.record_of_kmg (State.event_kmg ..) n).trans (s.record_putRecord n r.uncommitted)

theorem State.job_commitFailed (s : State) (n j : Nat) (r : StfRecord) : (s.commitFailed n r).job? j = s.job? j :=
  State.job_of_sch (State.event_sch ..) j

/-- RESERVATION_COMMIT_DONE of a pending commit whose record has a free log word. -/
theorem execReservationCommitDone_pending (hr : s.record? n = some r) (hv : r.valid = true) (hc : r.close = 0)
    (hp : r.pending = true) (hb : r.heldBack = false) (hf : r.firstOf = none) (hl : r.log.length < 9) (ok : Bool) :
    exec (.reservationCommitDone n ok) s = .next
      ((if ok then s.putRecord n r.committed else s.commitFailed n r).commitEnds r.keyId (s.commitWaiter r) ok) := by
  show execReservationCommitDone n ok s = _
  unfold execReservationCommitDone
  rw [hr]
  dsimp only
  rw [if_pos (by simp [hv, hc, hp, hb, hf])]
  cases ok with
  | true => simp only [if_true, State.programResv_room hl]
  | false => rfl

/-- The job that waited for a programmed commit gets NEXT as its leaf (R136). -/
theorem State.commitEnds_leaf (hr : s.record? n = some r) (hn : s.recordOf r.keyId = some n) (hj : s.job? j = some x) :
    (s.commitEnds r.keyId (some j) true).job? j = some { x with leaf := some r.next, waitCommit := false } := by
  unfold State.commitEnds
  simp only [Bool.not_true, Bool.false_eq_true, if_false, hn, State.getRecord hr, State.job_onJob,
    State.job_of_sch (State.onRecord_sch ..), hj, Option.map_some]

/-- FIRST_RESERVATION once the generating job's entry is issued (R450, R453). -/
theorem execFirstReservation_issued (hr : s.record? n = some r) (hv : r.valid = true) (hc : r.close = 0)
    (hf : r.firstOf = some j) (hj : s.job? j = none) (hh : s.commitsHeld = false) (ok : Bool) :
    exec (.firstReservation n ok) s = .next (if ok then
      s.putRecord n { r with log := [min 64 r.total], pending := false, firstOf := none } else s.commitFailed n r) := by
  show execFirstReservation n ok s = _
  unfold execFirstReservation
  rw [hr]
  dsimp only
  rw [if_pos (by simp [hv, hc, hf, hj, hh])]

/-! Builds of traversal states (R139) -/

/-- The cycles of the build for job `x`: what the parameter set costs, or a free value where the manual states none (R139). -/
def State.buildCycles (s : State) (x : Job) : Nat :=
  (buildCost x.desc.fam x.desc.set (stfField x.desc.fam (s.bodyOf x))).getD (Config.freeNat s.freeCtr)

/-- TRAVERSAL_BUILD for a job that waits, on the idle VCE `e`: it holds it for the cycles of the build. -/
theorem execTraversalBuild_begins {e : Nat} (hj : s.job? j = some x) (hx : x.stage = .active) (ha : s.awake = true)
    (ht : s.traversalReady x = false) (hk : x.key = some i) (hn : s.recordOf (s.slot i).keyId = some n)
    (he : s.idleVce x.prot = some e) (hb : ∀ k < 71, (s.engine k).build.map (·.1) ≠ some n) :
    exec (.traversalBuild j) s = .next (({ s with freeCtr := s.freeCtr + 1 }).onEngine e fun y => { y with
      build := some (n, s.el + ceilDiv (s.buildCycles x * 4) 5), since := s.el }) := by
  have hnone : ¬(allEngines.any fun i => ((s.engine i).build.map (·.1)) = some n) = true := by
    simpa [allEngines] using hb
  show execTraversalBuild j s = _
  unfold execTraversalBuild
  rw [hj]
  dsimp only
  rw [if_pos (by simp [hx, ht, ha]), hk, Option.bind_some, hn, he]
  dsimp only
  rw [if_neg hnone]
  rfl

/-- A build whose time has come leaves the key ready to sign and the VCE free. -/
theorem State.endBuild_built {e a : Nat} (hb : (s.engine e).build = some (n, a)) (ha : a ≤ s.tim.elapsed)
    (hr : s.record? n = some r) :
    (s.endBuild e).record? n = some { r with built := true } ∧ ((s.endBuild e).engine e).build = none := by
  have hlt : ¬s.el < a := Nat.not_lt.2 ha
  unfold State.endBuild
  rw [hb]
  dsimp only
  rw [if_neg hlt]
  refine ⟨?_, ?_⟩
  · rw [State.record_of_kmg (State.onSlice_kmg ..), State.record_of_kmg (State.onEngine_kmg ..),
      State.record_of_kmg (State.writePlace_sameTables ..).kmg, State.record_onRecord, hr]
    rfl
  · rw [State.engine_eq_of_engines (State.onSlice_engines ..), State.engine_onEngine]

/-- Settles O44: a leaf at the start, the end of a commit and of a first reservation, and a build from its begin to its end. -/
theorem statefulLeaves : Obligations.StatefulLeaves := by
  unfold Obligations.StatefulLeaves
  refine ⟨?start, fun s n ok r hr hv hc =>
    ⟨fun hp hb hf hl => ⟨fun hw => ?noWaiter, fun j x hw hj hx hn => ?waiter⟩, ?first⟩, ?build,
    fun s e n a r hb ha hr => State.endBuild_built hb ha hr⟩
  case start =>
    intro s j k i n x p r hj hp ha hs hx _ hf ho hl hw hc hi hm hslot hr hg hlend hk hn hq ht hb
    obtain ⟨slot, hslot⟩ := Option.ne_none_iff_exists'.1 hslot
    have hfam : x.desc.fam ≠ 0x20 := by omega
    have hbegin := State.startStep_begins hj hp ha hs hx hw hc hi hm hg hlend hslot (State.startLoss_none hr hfam)
    obtain ⟨y, q, hy, hleaf, hrec, hnext, hlog⟩ :=
      State.beginOn_leaf (e := p.engine) (slot := slot) hj hp hr hf ho hl hw hk hn hq ht hb
    exact ⟨_, y, q, congrArg Host.Outcome.next hbegin, hy, hleaf, hrec, hnext, hlog⟩
  case noWaiter =>
    have he := execReservationCommitDone_pending hr hv hc hp hb hf hl ok
    rw [hw] at he
    cases ok with
    | true => exact ⟨_, _, he, s.record_putRecord n _, rfl, rfl, rfl⟩
    | false => exact ⟨_, _, he, s.record_commitFailed n r, rfl, rfl, rfl⟩
  case waiter =>
    have he := execReservationCommitDone_pending hr hv hc hp hb hf hl ok
    rw [hw] at he
    cases ok with
    | true =>
      have hleaf := State.commitEnds_leaf (s.record_putRecord n r.committed) (State.recordOf_putRecord hn hv hc) hj
      exact ⟨_, _, he, hleaf, rfl, rfl⟩
    | false =>
      have hj' := (s.job_commitFailed n j r).trans hj
      obtain ⟨y, hy, hdone, hres⟩ := State.finish_job (r := fail .statefulBusy 1) hj' hx (by decide)
      exact ⟨_, y, he, hy, hdone, hres⟩
  case first =>
    intro j hf hj hh
    have he := execFirstReservation_issued hr hv hc hf hj hh ok
    cases ok with
    | true => exact ⟨_, _, he, s.record_putRecord n _, rfl, rfl, rfl⟩
    | false => exact ⟨_, _, he, s.record_commitFailed n r, rfl, rfl, rfl⟩
  case build =>
    intro s j i n e x hj hx ha ht hk hn he hb
    refine ⟨_, s.buildCycles x, execTraversalBuild_begins hj hx ha ht hk hn he hb,
      congrArg Engine.build (State.engine_onEngine ..), fun c hc => ?_, fun k hk => State.engine_onEngine_ne _ _ hk, rfl⟩
    rw [State.buildCycles, hc, Option.getD_some]

end Sys2Proof.Machine
end

section
/-! PROOFS. The anti-replay window of a session, and the receipts that it refuses. -/

namespace Sys2Proof.Machine

variable {s t : State} {i j : Nat} {x : Job} {y : Session} {c d : Nat}

/-! The anti-replay window (R187) -/

/-- Counters that the window refuses: those 256 or more below the highest, and those whose bit is set. -/
theorem Session.replayed_isSome : (y.replayed d).isSome = true ↔ (y.replay = true ∧ y.rxValid = true ∧ d ≤ y.rxHigh) ∧
    (256 ≤ y.rxHigh - d ∨ y.rxWindow.getLsbD (y.rxHigh - d) = true) := by
  unfold Session.replayed
  by_cases hin : y.replay = true ∧ y.rxValid = true ∧ d ≤ y.rxHigh
  · rw [if_pos hin]
    by_cases hfar : 256 ≤ y.rxHigh - d
    · simp [hin, hfar]
    · simp [hin, hfar, apply_ite Option.isSome]
  · simp [hin]

/-- DETAIL 0 is for a counter of the window whose bit is set. -/
theorem Session.replayed_of_getLsbD (hr : y.replay = true) (hv : y.rxValid = true) (hc : c ≤ y.rxHigh)
    (hb : y.rxWindow.getLsbD (y.rxHigh - c) = true) : y.replayed c = some 0 := by
  unfold Session.replayed
  have hlt : y.rxHigh - c < 256 := BitVec.lt_of_getLsbD hb
  simp only [hr, hv, hc, hb, and_self, if_true, if_neg (Nat.not_le.2 hlt)]

theorem Session.admitted_first (hr : y.replay = true) (hv : y.rxValid = false) :
    y.admitted c = { y with rxHigh := c, rxWindow := 1, rxValid := true } := by
  simp [Session.admitted, hr, hv]

theorem Session.admitted_above (hr : y.replay = true) (hv : y.rxValid = true) (hc : y.rxHigh < c) :
    y.admitted c = { y with rxWindow := (y.rxWindow <<< (c - y.rxHigh)) ||| 1, rxHigh := c } := by
  simp [Session.admitted, hr, hv, hc]

theorem Session.admitted_within (hr : y.replay = true) (hv : y.rxValid = true) (hc : c ≤ y.rxHigh) :
    y.admitted c = { y with rxWindow := y.rxWindow ||| BitVec.ofNat 256 (2 ^ (y.rxHigh - c)) } := by
  simp [Session.admitted, hr, hv, Nat.not_lt.2 hc]

/-- A counter that the window takes is refused from then on. -/
theorem Session.replayed_admitted_self (hr : y.replay = true) (hc : y.replayed c = none) :
    (y.admitted c).replayed c = some 0 := by
  cases hv : y.rxValid with
  | false =>
    rw [Session.admitted_first hr hv]
    exact Session.replayed_of_getLsbD hr rfl (Nat.le_refl c) (by simp)
  | true =>
    rcases Nat.lt_or_ge y.rxHigh c with hlt | hle
    · rw [Session.admitted_above hr hv hlt]
      exact Session.replayed_of_getLsbD hr hv (Nat.le_refl c) (by simp)
    · have hin : y.rxHigh - c < 256 := by
        refine Nat.lt_of_not_le fun hout => ?_
        have hs := Session.replayed_isSome.2 ⟨⟨hr, hv, hle⟩, .inl hout⟩
        rw [hc] at hs
        cases hs
      rw [Session.admitted_within hr hv hle]
      exact Session.replayed_of_getLsbD hr hv hle (by
        simp only [BitVec.getLsbD_or, BitVec.getLsbD_ofNat, hin, Nat.testBit_two_pow_self, decide_true, Bool.and_self, Bool.or_true])

/-- What the window refused before it admitted a counter, it refuses after. -/
theorem Session.replayed_admitted_mono (h : (y.replayed d).isSome = true) : ((y.admitted c).replayed d).isSome = true := by
  obtain ⟨⟨hr, hv, hd⟩, hw⟩ := Session.replayed_isSome.1 h
  rw [Session.replayed_isSome]
  rcases Nat.lt_or_ge y.rxHigh c with hlt | hle
  · rw [Session.admitted_above hr hv hlt]
    refine ⟨⟨hr, hv, Nat.le_trans hd (Nat.le_of_lt hlt)⟩, ?_⟩
    have hmove : c - d - (c - y.rxHigh) = y.rxHigh - d := by omega
    dsimp only
    rcases hw with hfar | hbit
    · exact .inl (by omega)
    · rcases Nat.lt_or_ge (c - d) 256 with hin | hout
      · have hge : ¬c - d < c - y.rxHigh := by omega
        exact .inr (by simp [hin, hge, hmove, hbit])
      · exact .inl hout
  · rw [Session.admitted_within hr hv hle]
    exact ⟨⟨hr, hv, hd⟩, hw.imp_right fun hbit => by simp [hbit]⟩

/-! Receipts (R187, R188) -/

/-- A job on a session of its slice. -/
theorem onSessionJob_of_sessionBy (f : Nat → Job → State → Result × State)
    (h : s.sessionBy x.slice x.desc.session = some i) : onSessionJob f x s = f i x s := by
  unfold onSessionJob; rw [h]

/-- A command on a session of the job's slice ends its job with what its operation gives there. -/
theorem exec_sessionJob {cmd : Instr} {op : Nat} {f : Nat → Job → State → Result × State} {r : Result}
    (h : s.Ends j 0x20 op x) (hc : exec cmd s = .next (s.compute j 0x20 op (onSessionJob f)))
    (hi : s.sessionBy x.slice x.desc.session = some i) (hf : f i x s = (r, t)) :
    exec cmd s = .next (t.produce j r) := by
  rw [hc, State.compute_ends h, onSessionJob_of_sessionBy f hi, hf]

/-- A receipt whose counter the window refuses gives REPLAY, and counts. -/
theorem receiveOne_replayed {right p : Nat} {bad : Status} {f : Session → Bytes → Option Bytes}
    (h : (s.session i).replayed c = some d) : receiveOne right bad f p c i x s =
      (fail .replay d, s.onSession i fun y => { y with replays := (y.replays + 1) % 2 ^ 64 }) := by
  unfold receiveOne
  dsimp only
  rw [h]
  rfl

/-- Settles O24: the window keeps each bit set, and a receipt looks at it first. -/
theorem replayWindow : Obligations.ReplayWindow := by
  unfold Obligations.ReplayWindow
  refine ⟨fun y c hr hc => ⟨Session.replayed_admitted_self hr hc, fun d => Session.replayed_admitted_mono⟩, ?_⟩
  intro s j i d x hi hd r
  have hopen : openOne i x s = (fail .replay d, r) := by
    unfold openOne tailSplit splitAt
    exact receiveOne_replayed hd
  have hverify : verifyOne i x s = (fail .replay d, r) := by
    unfold verifyOne tailSplit splitAt
    exact receiveOne_replayed hd
  exact ⟨fun h => exec_sessionJob h rfl hi hopen, fun h => exec_sessionJob h rfl hi hverify⟩

end Sys2Proof.Machine
end

section
/-! PROOFS. The end of a session, and what the end of an operation leaves of jobs, keys and sessions. -/

namespace Sys2Proof.Machine

variable {s t : State} {i j n c : Nat} {x : Job}

/-! The end of an operation: sessions, keys and jobs (R219, R282) -/

theorem State.jobOnly.sameTables (h : s.jobOnly t) (hs : t.sch = s.sch) : s.SameTables t := by
  unfold State.jobOnly at h
  exact ⟨hs, by rw [h]⟩

theorem State.shares_sameTables (s : State) (k : Nat) (b : Bytes) : s.SameTables (s.shares k b).2 := by
  induction k generalizing s b with
  | zero => exact .refl s
  | succ k ih =>
    cases k with
    | zero => exact .refl s
    | succ k => exact (s.generate_sameTables 4 b.length).trans (ih _ _)

theorem State.placeResult_sameTables (s : State) (e slot : Nat) (r : Result) : s.SameTables (s.placeResult e slot r) := by
  unfold State.placeResult
  split
  · exact .refl s
  · dsimp only
    split
    · exact ⟨rfl, rfl⟩
    · exact (s.shares_sameTables _ _).trans ⟨rfl, rfl⟩

theorem State.leaveRunning_sameTables (s : State) (e : Nat) : s.SameTables (s.leaveRunning e) := by
  unfold State.leaveRunning
  split
  · exact .refl s
  · dsimp only
    split <;> exact ⟨rfl, rfl⟩

theorem State.frostJob_sameTables (s : State) (e : Nat) (b : Bool) : s.SameTables (s.frostJob e b) := by
  unfold State.frostJob
  split
  · have hv : s.SameTables (s.onVce e fun v => v.left b) := ⟨s.onVce_sch .., s.onVce_kmg ..⟩
    exact hv.trans ((State.endLends_jobOnly _ e).sameTables (State.endLends_sch _ e))
  · exact ⟨rfl, rfl⟩

/-- Leaving its engine changes nothing of the job, the keys and the sessions. -/
theorem State.stepLeaves_sameTables (s : State) (e j slot : Nat) : s.SameTables (s.stepLeaves e j slot) := by
  unfold State.stepLeaves
  extract_lets r
  have h := ((s.placeResult_sameTables e slot r).trans (State.leaveRunning_sameTables _ e)).trans
    (State.frostJob_sameTables _ e false)
  exact ⟨h.sch, h.kmg⟩

/-- Of the job table and the keys, a result changes its job alone, which has it from then on. -/
theorem State.produce_sameTables (s : State) (j : Nat) (r : Result) :
    (s.onJob j fun y => { y with computed := some r }).SameTables (s.produce j r) := by
  unfold State.produce
  dsimp only
  split
  · exact State.stepLeaves_sameTables ..
  · exact .refl _

theorem State.produce_computed {r : Result} (hj : s.job? j = some x) :
    ((s.produce j r).job? j).bind Job.computed = some r := by
  rw [State.job_of_sch (s.produce_sameTables j r).sch, State.job_onJob, hj]
  rfl

theorem State.session_of_sessions (h : t.kmg.sessions = s.kmg.sessions) (i : Nat) : t.session i = s.session i := by
  unfold State.session; rw [h]

@[simp] theorem State.produce_session (s : State) (j : Nat) (r : Result) (i : Nat) :
    (s.produce j r).session i = s.session i :=
  State.session_of_sessions (by rw [(s.produce_sameTables j r).kmg, State.onJob_kmg]) i

/-- A job that can give its result is in the table. -/
theorem State.job_of_atEnd (h : s.atEnd j = some x) : s.job? j = some x := by
  unfold State.atEnd at h
  split at h
  · split at h
    · rwa [‹s.job? j = some _›]
    · cases h
  · cases h

/-! The end of a session (R180, R181, R184) -/

/-- Letting a key go changes slots alone. -/
theorem State.dropKey_slots (s : State) (h : Nat) :
    ∃ l, s.dropKey h = { s with kmg := { s.kmg with slots := l } } := by
  unfold State.dropKey State.unpin
  dsimp only
  split
  · exact ⟨_, rfl⟩
  · split <;> exact ⟨_, rfl⟩

/-- A session that ends is freed; of the rest, slots and the context cache alone change. -/
theorem State.endSession_frees (s : State) (i : Nat) : ∃ l c, s.endSession i =
    { s with kmg := { (s.onSession i Session.freed).kmg with slots := l, sessCache := c } } := by
  obtain ⟨l, hl⟩ := s.dropKey_slots (s.session i).key
  unfold State.endSession
  dsimp only
  rw [hl]
  split
  · obtain ⟨m, hm⟩ := State.dropKey_slots { s with kmg := { s.kmg with slots := l } } (s.session i).keyNext
    rw [hm]
    exact ⟨_, _, rfl⟩
  · exact ⟨_, _, rfl⟩

theorem State.endSession_session (s : State) (i k : Nat) :
    (s.endSession i).session k = (s.onSession i Session.freed).session k := by
  obtain ⟨l, c, h⟩ := s.endSession_frees i
  rw [h]
  rfl

theorem State.endSession_sch (s : State) (i : Nat) : (s.endSession i).sch = s.sch := by
  obtain ⟨l, c, h⟩ := s.endSession_frees i
  rw [h]

/-- The session that a handle names has the index in its low 20 bits. -/
theorem State.index_of_sessionBy (h : s.sessionBy n c = some i) : c % 2 ^ 20 = i := by
  unfold State.sessionBy at h
  dsimp only at h
  split at h
  · exact Option.some.inj h
  · cases h

/-- No handle names a session that is FREE. -/
theorem State.sessionBy_free (h : (s.session (c % 2 ^ 20)).st = .free) : s.sessionBy n c = none := by
  unfold State.sessionBy
  exact if_neg fun ⟨_, _, hst, _⟩ => hst h

/-- Settles O25: a FREE session has no handle, and the end of the job leaves the sessions as they are. -/
theorem sessionLifeCycle : Obligations.SessionLifeCycle := by
  unfold Obligations.SessionLifeCycle
  intro s j i x h hi
  have hexec : exec (.sessionDestroy j) s = .next ((s.endSession i).produce j {}) :=
    exec_sessionJob h rfl hi (f := destroyOne) rfl
  have hjob : (s.endSession i).job? j = some x :=
    (State.job_of_sch (s.endSession_sch i) j).trans (State.job_of_atEnd h.at_)
  have hself : ((s.endSession i).produce j {}).session i = (s.session i).freed := by
    rw [State.produce_session, State.endSession_session, State.session_onSession]
  refine ⟨_, hexec, State.produce_computed hjob, by rw [hself]; rfl, by rw [hself]; rfl, ?stale, fun n hn => ?others⟩
  case stale => exact State.sessionBy_free (by rw [State.index_of_sessionBy hi, hself]; rfl)
  case others => rw [State.produce_session, State.endSession_session, State.session_onSession_ne _ _ hn]

end Sys2Proof.Machine
end
